-- ==== Sys2Proof/Word.lean ====
section
/-! DEFINITION. The word types of the device (00_scope.md R5 to R8). -/

namespace Sys2Proof

/-- A 32-bit word: a DCS or BAR0 register, a core register, an IMEM word (R8). -/
abbrev W32 := BitVec 32

/-- A 64-bit tick count or address (R8, R69). -/
abbrev W64 := BitVec 64

/-- A byte of a memory. -/
abbrev Byte := BitVec 8

end Sys2Proof
end

