-- ==== Sys2Proof/Config.lean ====
section
/-! DEFINITION. What an implementation fixes, the free values (log entry 7), and the names that commands use. -/

namespace Sys2Proof

/-- A value that the spec leaves open, drawn with the counter that State holds: nothing constrains it
(log entry 7). -/
opaque Config.freeWord : Nat → W32

/-- The alert latency of JESD238 at a data rate, in CK_MEM (15 R366), which the spec does not give (log entry 7). -/
opaque Config.alertLatency : Nat → Nat

/-- What a byte of memory reads whose content the spec leaves undefined: key and storage location (log entry 7). -/
opaque Config.lostByte : Nat → Nat → Byte

/-- The 64-bit serial (`ID_SERIAL`, 16 R420), fixed per device: its low and high words, which the spec does not
state (log entry 7). -/
opaque Config.serial : Nat → W32

/-- Factory contents of the flash, which the spec does not state (20 R489; log entry 7): kind 0 slice tables, 1 bin tables,
2 default equalisers, 3 training delays, 4 base currents in mA; and the index within the kind. -/
opaque Config.factory : Nat → Nat → W32

/-- What the device key makes of a byte of an image (20 R503): key of the initialisation vector, offset, byte (log entry 7). -/
opaque Config.cipher : Nat → Nat → Byte → Byte

/-- The silicon stepping (`DEV_ID.stepping`, 04 R122), fixed per device and not stated (log entry 7). -/
opaque Config.stepping : BitVec 4

/-- Coefficient j of the fractional-delay filter that the device derives from a SKEW in 0.01 ps and a sample period in ticks, in
1/2^17 (05 R125); the spec states its kind and not its words (log entry 7). -/
opaque Config.fracCoef : Int → Nat → Nat → Int

/-- Raw codes of a signal's samples in order, the first taken at a count of ticks (04 R106, R109); samples not listed are code 0. -/
structure Samples where
  first : W64
  codes : List (BitVec 12)
  deriving DecidableEq, Repr

/-- Who gives a bulk DMA command (R333, R421): the host, or a core by DSTART, its channel named by the instruction or
by a register. -/
inductive DmaSource where
  | host
  | core (q : Fin 16)
  | coreReg (q : Fin 16) (ga : Fin 32)
  deriving DecidableEq, Repr

/-- A register of a function's configuration space, named; its offset is the standard's (16 R395, R396). -/
inductive ConfigReg where
  | id | command | classRev | subsystem | power | msix | devCtl | sriov | ptm | bar0 | bar2 | bar2Size | serialLo | serialHi
  | aerCorr | aerUncorr
  deriving DecidableEq, Repr

end Sys2Proof
end

