-- ==== Sys2Proof/Machine/Bits.lean ====
section
/-! DEFINITION. Bit fields, sign extension, byte order, twins, and sparse tables in canonical form. -/

namespace Sys2Proof.Machine

/-- The least multiple of `k` at or after `n`. -/
def alignUp (n k : Nat) : Nat := (n + (k - 1)) / k * k

/-- The quotient rounded up. -/
def ceilDiv (n k : Nat) : Nat := (n + (k - 1)) / k

/-- Field of `len` bits from bit `lo` of a word, as a number. -/
def fld (w : W32) (lo len : Nat) : Nat := w.toNat / 2 ^ lo % 2 ^ len

/-- Bit `i` of a word. -/
def bit (w : W32) (i : Nat) : Bool := w.getLsbD i

/-- `w` with its field of `len` bits from bit `lo` holding `v`. -/
def setFld (w : W32) (lo len v : Nat) : W32 :=
  let m : W32 := BitVec.ofNat 32 ((2 ^ len - 1) * 2 ^ lo)
  (w &&& ~~~ m) ||| (BitVec.ofNat 32 (v % 2 ^ len * 2 ^ lo))

/-- A Bool as a bit of a register. -/
def b2n (b : Bool) : Nat := if b then 1 else 0

/-- A word made of fields given as (lo, value); the fields of a card never overlap. -/
def pack : List (Nat × Nat) → W32
  | [] => 0
  | (lo, v) :: r => BitVec.ofNat 32 (v * 2 ^ lo) ||| pack r

/-- Sign extension of a number of `len` bits. -/
def sextInt (len n : Nat) : Int := if n % 2 ^ len < 2 ^ (len - 1) then (n % 2 ^ len : Nat) else (n % 2 ^ len : Nat) - (2 ^ len : Nat)

/-- Low word of a number. -/
def loW (n : Nat) : W32 := BitVec.ofNat 32 n

/-- High word of a 64-bit number. -/
def hiW (n : Nat) : W32 := BitVec.ofNat 32 (n / 2 ^ 32)

/-- The 64-bit number of two words, low word first (R7). -/
def join (lo hi : W32) : Nat := lo.toNat + hi.toNat * 2 ^ 32

/-- Saturating increment of a 32-bit counter (R9). -/
def satInc (w : W32) (n : Nat) : W32 := BitVec.ofNat 32 (min (w.toNat + n) 0xFFFFFFFF)

/-- The bytes of a number, least significant first (R7). -/
def leBytes : Nat → Nat → List Byte
  | 0, _ => []
  | k + 1, n => BitVec.ofNat 8 n :: leBytes k (n / 256)

/-- The number that bytes spell, least significant first (R7). -/
def ofBytes : List Byte → Nat
  | [] => 0
  | b :: r => b.toNat + 256 * ofBytes r

/-- The words of a twin: the value words, then their complements (R14). -/
def twinWords (vs : List W32) : List W32 := vs ++ vs.map (~~~ ·)

/-- The check of R15 on a twin of `2 n` words. -/
def twinOk (ws : List W32) : Bool :=
  let n := ws.length / 2
  (ws.drop n) == (ws.take n).map (~~~ ·)

/-- Entry `a` of a sparse table; an entry not listed reads as `d`. -/
def Assoc.get {α : Type} (d : α) : List (Nat × α) → Nat → α
  | [], _ => d
  | (k, v) :: r, a => if a = k then v else Assoc.get d r a

/-- The sparse table with `v` listed at `a`, in the order of the keys. -/
def Assoc.ins {α : Type} (a : Nat) (v : α) : List (Nat × α) → List (Nat × α)
  | [] => [(a, v)]
  | (k, w) :: r => if a < k then (a, v) :: (k, w) :: r else if a = k then (a, v) :: r else (k, w) :: Assoc.ins a v r

/-- The sparse table with `v` at `a`: keys rise strictly, and an entry equal to `d` is not listed. -/
def Assoc.put {α : Type} [DecidableEq α] (d : α) (m : List (Nat × α)) (a : Nat) (v : α) : List (Nat × α) :=
  if v = d then m.filter (fun e => e.1 ≠ a) else Assoc.ins a v m

/-- Keys rise strictly from above `lo`, and no entry equals its unlisted value. -/
def Assoc.wfFrom {α : Type} [DecidableEq α] (d : Nat → α) (lo : Nat) : List (Nat × α) → Bool
  | [] => true
  | (k, v) :: r => decide (lo ≤ k) && decide (v ≠ d k) && Assoc.wfFrom d (k + 1) r

/-- The canonical form of a sparse table. -/
def Assoc.wf {α : Type} [DecidableEq α] (d : Nat → α) (m : List (Nat × α)) : Bool := Assoc.wfFrom d 0 m

/-- Byte `a` of a memory; a byte that nothing has written reads 0 (log entry 4). -/
def Mem.byte (m : List Host.Cell) (a : Nat) : Byte := Assoc.get 0 m a

/-- The memory with byte `b` at `a`. -/
def Mem.setByte (m : List Host.Cell) (a : Nat) (b : Byte) : List Host.Cell := Assoc.put 0 m a b

/-- `n` bytes from `a`, rising. -/
def Mem.read (m : List Host.Cell) (a : Nat) : Nat → List Byte
  | 0 => []
  | n + 1 => Mem.byte m a :: Mem.read m (a + 1) n

/-- The memory with bytes `bs` from `a`, rising. -/
def Mem.write (m : List Host.Cell) (a : Nat) : List Byte → List Host.Cell
  | [] => m
  | b :: r => Mem.write (Mem.setByte m a b) (a + 1) r

/-- The 32-bit word at byte address `a` (R7). -/
def Mem.word (m : List Host.Cell) (a : Nat) : W32 := BitVec.ofNat 32 (ofBytes (Mem.read m a 4))

/-- The memory with word `w` at byte address `a` (R7). -/
def Mem.setWord (m : List Host.Cell) (a : Nat) (w : W32) : List Host.Cell := Mem.write m a (leBytes 4 w.toNat)

/-- `n` words from byte address `a`. -/
def Mem.words (m : List Host.Cell) (a : Nat) : Nat → List W32
  | 0 => []
  | n + 1 => Mem.word m a :: Mem.words m (a + 4) n

/-- The memory with words `ws` from byte address `a`, in ascending address order. -/
def Mem.setWords (m : List Host.Cell) (a : Nat) : List W32 → List Host.Cell
  | [] => m
  | w :: r => Mem.setWords (Mem.setWord m a w) (a + 4) r

/-- The canonical form of a byte memory: addresses rise strictly and no listed byte is 0. -/
def Mem.wf (m : List Host.Cell) : Bool := Assoc.wf (fun _ => (0 : Byte)) m

/-- The numbers below `n`, rising. -/
def upTo (n : Nat) : List Nat := List.range n

/-- The list with `f` applied to its entry `i`, if it has one. -/
def modAt {α : Type} : List α → Nat → (α → α) → List α
  | [], _, _ => []
  | a :: r, 0, f => f a :: r
  | a :: r, i + 1, f => a :: modAt r i f

/-- Bits set in a mask of `n` bits, rising. -/
def bitsOf (n m : Nat) : List Nat := (List.range n).filter (fun i => m.testBit i)

end Sys2Proof.Machine
end

