-- ==== Sys2Proof/Machine/Regs.lean ====
section
/-! DEFINITION. The register tables of the chapters: for every register that is a plain stored word, its address, its
reset value and the bits that a staged write (DCS) or a host write (BAR0) changes, as its field card gives
(00 R11, R12). A BAR0 address `b` has the key `2^32 + b`. Registers whose contents live in a part of State of their own
(core registers, grant entries, mapping masks, tables, live status) are not listed here; Registers.lean reads them. -/

namespace Sys2Proof.Machine

/-- How a write acts on a stored register: by its mask; a counter that a staged 0 clears (R9); a counter that any host
write clears (14 R365). -/
inductive RegKind where
  | plain | counter | hostCounter
  deriving DecidableEq, Repr

/-- A row of the register tables: registers at `base + i * s1 + j * s2` for `i < c1`, `j < c2`. -/
structure RegRow where
  base : Nat
  s1 : Nat
  c1 : Nat
  s2 : Nat
  c2 : Nat
  rst : Nat
  rw : Nat
  w1c : Nat
  kind : RegKind
  deriving DecidableEq, Repr

/-- Whether a row holds the register at `a`. -/
def RegRow.has (r : RegRow) (a : Nat) : Bool :=
  let o := a - r.base
  decide (r.base ≤ a) &&
    (if r.s1 = 0 then o == 0
     else
      let i := o / r.s1
      let p := o % r.s1
      decide (i < r.c1) && (if r.s2 = 0 then p == 0 else decide (p / r.s2 < r.c2) && p % r.s2 == 0))

/-! Addresses, by the chapters' register names. -/

def R.spanCtrl : Nat := 0x10
def R.spanLast : Nat := 0x18
def R.ksLastOld : Nat := 0x1010
def R.ksLastNew : Nat := 0x1018
def R.ksEpoch : Nat := 0x1020
def R.refCtrl : Nat := 0x1030
def R.nodCtrl : Nat := 0x1040
def R.nodLat : Nat := 0x1048
def R.nodLead : Nat := 0x104C
def R.nodAsymAdj : Nat := 0x1050
def R.nodTrigTx : Nat := 0x1054
def R.nodTrigDrop : Nat := 0x1058
def R.nodMsgErr : Nat := 0x105C
def R.modeReq : Nat := 0x2000
def R.modeCtrl : Nat := 0x2008
def R.modeLastEntry : Nat := 0x2010
def R.dpResetReg : Nat := 0x3000
def R.dpResetStatus : Nat := 0x3004
def R.dpResetLast : Nat := 0x3008
def R.permitDeniedCount : Nat := 0x4014
def R.permitAlertInfo : Nat := 0x4018
def R.memRate : Nat := 0x8060
def R.memReg (i : Nat) : Nat := 0x8100 + i * 0x8
def R.memRegFloor (i : Nat) : Nat := 0x8104 + i * 0x8
def R.memRefCtrl : Nat := 0xC000
def R.memRdCtrl : Nat := 0xC010
def R.memRdPenalty : Nat := 0xC014
def R.memSrCtrl : Nat := 0xC020
def R.memRetMask : Nat := 0xC028
def R.memRetMaskHi : Nat := 0xC02C
def R.convCtrl (i : Nat) : Nat := 0x100000 + i * 0x10000
def R.convOvrCount (i : Nat) : Nat := 0x100014 + i * 0x10000
def R.convLaneErr (i : Nat) : Nat := 0x100018 + i * 0x10000
def R.convFaultInfo (i : Nat) : Nat := 0x10001C + i * 0x10000
def R.calCtrl (i : Nat) : Nat := 0x101000 + i * 0x10000
def R.calLimits (i : Nat) : Nat := 0x10100C + i * 0x10000
def R.calLastRot (i : Nat) : Nat := 0x101018 + i * 0x10000
def R.calRotCount (i : Nat) : Nat := 0x101020 + i * 0x10000
def R.calSkipCount (i : Nat) : Nat := 0x101024 + i * 0x10000
def R.calClampCount (i : Nat) : Nat := 0x101028 + i * 0x10000
def R.calFallbackCount (i : Nat) : Nat := 0x10102C + i * 0x10000
def R.calAlertInfo (i : Nat) : Nat := 0x101030 + i * 0x10000
def R.calLastEst (i j : Nat) : Nat := 0x101034 + i * 0x10000 + j * 0x4
def R.chCorr (i : Nat) : Nat := 0x200000 + i * 0x10000
def R.chGain (i : Nat) : Nat := 0x200004 + i * 0x10000
def R.chFirCtrl (i : Nat) : Nat := 0x200010 + i * 0x10000
def R.chFirHdr (i j : Nat) : Nat := 0x200020 + i * 0x10000 + j * 0x4
def R.chDecCtrl (i : Nat) : Nat := 0x200030 + i * 0x10000
def R.chSatCorr (i : Nat) : Nat := 0x200040 + i * 0x10000
def R.chSatFir (i : Nat) : Nat := 0x200044 + i * 0x10000
def R.chAlertInfo (i : Nat) : Nat := 0x200048 + i * 0x10000
def R.toneCtrl (i : Nat) : Nat := 0x200100 + i * 0x10000
def R.toneLen (i : Nat) : Nat := 0x200104 + i * 0x10000
def R.toneFreq (i : Nat) : Nat := 0x200108 + i * 0x10000
def R.toneThrHi (i : Nat) : Nat := 0x200110 + i * 0x10000
def R.toneThrLo (i : Nat) : Nat := 0x200118 + i * 0x10000
def R.toneBlkCount (i : Nat) : Nat := 0x200138 + i * 0x10000
def R.toneDiscard (i : Nat) : Nat := 0x20013C + i * 0x10000
def R.chFirA (i j : Nat) : Nat := 0x201000 + i * 0x10000 + j * 0x4
def R.chFirB (i j : Nat) : Nat := 0x202000 + i * 0x10000 + j * 0x4
def R.trigAggDrop : Nat := 0x300004
def R.trigAlertInfo : Nat := 0x300008
def R.trigOutCtrl (i : Nat) : Nat := 0x300100 + i * 0x10
def R.trigOutDelay (i : Nat) : Nat := 0x300104 + i * 0x10
def R.trigOutLate (i : Nat) : Nat := 0x300108 + i * 0x10
def R.tcCtrl (i : Nat) : Nat := 0x301000 + i * 0x40
def R.tcLevelU (i : Nat) : Nat := 0x301004 + i * 0x40
def R.tcLevelLo (i : Nat) : Nat := 0x301008 + i * 0x40
def R.tcHyst (i : Nat) : Nat := 0x30100C + i * 0x40
def R.tcT1 (i : Nat) : Nat := 0x301018 + i * 0x40
def R.tcT2 (i : Nat) : Nat := 0x301020 + i * 0x40
def R.tcFireCount (i : Nat) : Nat := 0x30102C + i * 0x40
def R.tpCtrl (i : Nat) : Nat := 0x302000 + i * 0x100
def R.tpPatReq (i : Nat) : Nat := 0x302004 + i * 0x100
def R.tpPatEvt (i : Nat) : Nat := 0x302008 + i * 0x100
def R.tpSeq (i : Nat) : Nat := 0x30200C + i * 0x100
def R.tpSeqWin (i : Nat) : Nat := 0x302010 + i * 0x100
def R.tpHoldTime (i : Nat) : Nat := 0x302018 + i * 0x100
def R.tpHoldCount (i : Nat) : Nat := 0x302020 + i * 0x100
def R.tpFinalCount (i : Nat) : Nat := 0x302028 + i * 0x100
def R.tpHoldDrop (i : Nat) : Nat := 0x30202C + i * 0x100
def R.tpRateDrop (i : Nat) : Nat := 0x302030 + i * 0x100
def R.tpLastKts (i j : Nat) : Nat := 0x302040 + i * 0x100 + j * 0x4
def R.tpLastDec (i : Nat) : Nat := 0x302050 + i * 0x100
def R.tmrCtrl : Nat := 0x380000
def R.tmrStopMask : Nat := 0x380004
def R.tmrWinOpen : Nat := 0x380010
def R.tmrWinClose : Nat := 0x380018
def R.tmrFifoCtrl : Nat := 0x380028
def R.tmrMemBase : Nat := 0x380040
def R.tmrMemSize : Nat := 0x380048
def R.tmrMemWr : Nat := 0x380050
def R.tmrFrame : Nat := 0x380060
def R.tmrFrameId : Nat := 0x380064
def R.tmrFrameDrop : Nat := 0x380068
def R.tmrStartRefused : Nat := 0x38006C
def R.tmrStartBusy : Nat := 0x380070
def R.tmrAlertInfo : Nat := 0x380074
def R.tmrCalCtrl : Nat := 0x380080
def R.tiCtrl (i : Nat) : Nat := 0x380100 + i * 0x20
def R.tiSkew (i : Nat) : Nat := 0x380104 + i * 0x20
def R.tiEdgeCount (i : Nat) : Nat := 0x380108 + i * 0x20
def R.tiDeadDrop (i : Nat) : Nat := 0x38010C + i * 0x20
def R.recRingCtrl (i : Nat) : Nat := 0x400000 + i * 0x100
def R.recRingBase (i : Nat) : Nat := 0x400008 + i * 0x100
def R.recRingSize (i : Nat) : Nat := 0x400010 + i * 0x100
def R.recFlagBase (i : Nat) : Nat := 0x400018 + i * 0x100
def R.recFlagSize (i : Nat) : Nat := 0x400020 + i * 0x100
def R.recWrCount (i : Nat) : Nat := 0x400028 + i * 0x100
def R.recStartCount (i : Nat) : Nat := 0x400030 + i * 0x100
def R.recStartTick (i : Nat) : Nat := 0x400038 + i * 0x100
def R.recEndTick (i : Nat) : Nat := 0x400040 + i * 0x100
def R.recGapCount (i : Nat) : Nat := 0x400048 + i * 0x100
def R.recArm : Nat := 0x400800
def R.recNodCtrl : Nat := 0x400810
def R.recNodSend : Nat := 0x400814
def R.recNodLate : Nat := 0x400818
def R.recAlertInfo : Nat := 0x400820
def R.dirCtrl (i : Nat) : Nat := 0x401000 + i * 0x100
def R.dirBase (i : Nat) : Nat := 0x401008 + i * 0x100
def R.dirPre (i : Nat) : Nat := 0x401010 + i * 0x100
def R.dirPost (i : Nat) : Nat := 0x401014 + i * 0x100
def R.dirCreated (i : Nat) : Nat := 0x401020 + i * 0x100
def R.dirSealed (i : Nat) : Nat := 0x401028 + i * 0x100
def R.dirRelease (i : Nat) : Nat := 0x401030 + i * 0x100
def R.dirLostCount (i : Nat) : Nat := 0x401038 + i * 0x100
def R.dirFullDrop (i : Nat) : Nat := 0x40103C + i * 0x100
def R.dirUnboundDrop (i : Nat) : Nat := 0x401040 + i * 0x100
def R.recCorePin (i : Nat) : Nat := 0x402000 + i * 0x10
def R.recCorePinSeq (i : Nat) : Nat := 0x402008 + i * 0x10
def R.churnCtrl (i : Nat) : Nat := 0x500000 + i * 0x20000
def R.churnLen (i : Nat) : Nat := 0x500004 + i * 0x20000
def R.churnPre (i : Nat) : Nat := 0x500008 + i * 0x20000
def R.churnYmap (i : Nat) : Nat := 0x50000C + i * 0x20000
def R.churnDecay (i : Nat) : Nat := 0x500010 + i * 0x20000
def R.churnDecayN (i : Nat) : Nat := 0x500014 + i * 0x20000
def R.churnDecayT (i : Nat) : Nat := 0x500018 + i * 0x20000
def R.churnAutoTimeout (i : Nat) : Nat := 0x500020 + i * 0x20000
def R.churnSnapCtrl (i : Nat) : Nat := 0x500028 + i * 0x20000
def R.churnSnapPeriod (i : Nat) : Nat := 0x500030 + i * 0x20000
def R.churnPageBase (i : Nat) : Nat := 0x500038 + i * 0x20000
def R.churnRender (i : Nat) : Nat := 0x500040 + i * 0x20000
def R.churnWfmCount (i : Nat) : Nat := 0x500050 + i * 0x20000
def R.churnAvgCount (i : Nat) : Nat := 0x500058 + i * 0x20000
def R.churnSnapSeq (i : Nat) : Nat := 0x50005C + i * 0x20000
def R.churnBusyDrop (i : Nat) : Nat := 0x500060 + i * 0x20000
def R.churnPreDrop (i : Nat) : Nat := 0x500064 + i * 0x20000
def R.churnOvrReject (i : Nat) : Nat := 0x500068 + i * 0x20000
def R.churnDiscard (i : Nat) : Nat := 0x50006C + i * 0x20000
def R.churnSnapSkip (i : Nat) : Nat := 0x500070 + i * 0x20000
def R.churnSramErr (i : Nat) : Nat := 0x500074 + i * 0x20000
def R.churnAlertInfo (i : Nat) : Nat := 0x500078 + i * 0x20000
def R.sensSeqCtrl : Nat := 0x600000
def R.sensInjCtrl : Nat := 0x60000C
def R.sensPassCount : Nat := 0x600010
def R.sensTrigDrop : Nat := 0x600014
def R.sensInjDrop : Nat := 0x600018
def R.sensMemWait : Nat := 0x60001C
def R.sensAlertInfo : Nat := 0x600020
def R.sensMemBase : Nat := 0x600028
def R.sensMemSize : Nat := 0x600030
def R.sensMemWr : Nat := 0x600038
def R.sensInjRes : Nat := 0x600040
def R.sensInjStat : Nat := 0x600044
def R.sensInjKts (i : Nat) : Nat := 0x600048 + i * 0x4
def R.sensInjHold : Nat := 0x600058
def R.sensEntry (i : Nat) : Nat := 0x600100 + i * 0x4
def R.sensRes (i : Nat) : Nat := 0x600200 + i * 0x10
def R.sensResStat (i : Nat) : Nat := 0x600204 + i * 0x10
def R.sensResTick (i : Nat) : Nat := 0x600208 + i * 0x10
def R.excCtrl (i : Nat) : Nat := 0x600400 + i * 0x10
def R.evtRoute (i : Nat) : Nat := 0x700000 + i * 0x4
def R.ptmCtrl : Nat := 0x100000100
def R.ptmStatus : Nat := 0x100000104
def R.ptmMaster : Nat := 0x100000108
def R.ptmKts (i : Nat) : Nat := 0x100000110 + i * 0x4
def R.bar2WinBase : Nat := 0x100000200
def R.modeHostReq : Nat := 0x100000300
def R.evtStatus (i : Nat) : Nat := 0x100010000 + i * 0x4
def R.evtMask (i : Nat) : Nat := 0x100010020 + i * 0x4
def R.evtQueueOvf : Nat := 0x100010100
def R.evtTwinInfo : Nat := 0x100010104
def R.evtTwinPath : Nat := 0x100010108
def R.evtCoresFault : Nat := 0x100010110
def R.evtCoresMbx : Nat := 0x100010114
def R.evtCoresLate : Nat := 0x100010118
def R.evtCoresReject : Nat := 0x10001011C
def R.evtCoresConflict : Nat := 0x100010120
def R.evtNodCause : Nat := 0x100010124
def R.evtMsixRoute (i : Nat) : Nat := 0x100011000 + i * 0x4
def R.evtCount (i : Nat) : Nat := 0x100012000 + i * 0x4
def R.evtOvfVec (i : Nat) : Nat := 0x100013000 + i * 0x4
def R.tapTimeout : Nat := 0x100050008
def R.tapCtxSel : Nat := 0x100050010
def R.tapCtxCmd : Nat := 0x100050014
def R.tapCtxData (i : Nat) : Nat := 0x100050040 + i * 0x4
def R.tapFnWeight (i : Nat) : Nat := 0x100050100 + i * 0x4
def R.dmaTimeout : Nat := 0x100048004
def R.dspCtrl : Nat := 0x100060000
def R.dspFaultInfo : Nat := 0x100060034
def R.dspFaultCount (i : Nat) : Nat := 0x100060300 + i * 0x4
def R.memXlateIn : Nat := 0x100070000
def R.memAddrErrLo : Nat := 0x100070010
def R.memAddrErrHi : Nat := 0x100070014
def R.memPortLines (i : Nat) : Nat := 0x100070100 + i * 0x8
def R.memPortStall (i : Nat) : Nat := 0x100070104 + i * 0x8
def R.memAerrCount : Nat := 0x100071000
def R.memReplayCount : Nat := 0x100071004
def R.memDerrCount : Nat := 0x100071008
def R.memEccCorrCount : Nat := 0x10007100C
def R.memPoisonCount : Nat := 0x100071010
def R.memRdCount : Nat := 0x100071014
def R.memNbrRefCount : Nat := 0x100071018
def R.memSrLate : Nat := 0x10007101C
def R.memPoisonPath : Nat := 0x100071020
def R.memPoisonLo : Nat := 0x100071028
def R.memPoisonHi : Nat := 0x10007102C
def R.mgtFwVersion : Nat := 0x100090084
def R.dspTim (i : Nat) : Nat := 0x100060040 + 4 * i
def R.dspTimM (i : Nat) : Nat := 0x100060060 + 4 * i
def R.dspGlob (i : Nat) : Nat := 0x100060080 + 4 * i
def R.dspGlobM (i : Nat) : Nat := 0x1000600C0 + 4 * i
def R.dspLayer (l o : Nat) : Nat := 0x100060100 + l * 0x40 + o
def R.dspLayerM (l o : Nat) : Nat := 0x100060200 + l * 0x40 + o
def R.churnLut (n k : Nat) : Nat := 0x501000 + n * 0x20000 + 4 * k

/-- Rows of the register tables, part 1. -/
def regRows0 : List RegRow := [
  { base := 0x10, s1 := 0x0, c1 := 1, s2 := 0x0, c2 := 1, rst := 0x0, rw := 0xF, w1c := 0x0, kind := .plain },
  { base := 0x18, s1 := 0x0, c1 := 1, s2 := 0x0, c2 := 1, rst := 0x0, rw := 0x0, w1c := 0x0, kind := .plain },
  { base := 0x1C, s1 := 0x0, c1 := 1, s2 := 0x0, c2 := 1, rst := 0x0, rw := 0x0, w1c := 0x0, kind := .plain },
  { base := 0x1010, s1 := 0x0, c1 := 1, s2 := 0x0, c2 := 1, rst := 0x0, rw := 0x0, w1c := 0x0, kind := .plain },
  { base := 0x1014, s1 := 0x0, c1 := 1, s2 := 0x0, c2 := 1, rst := 0x0, rw := 0x0, w1c := 0x0, kind := .plain },
  { base := 0x1018, s1 := 0x0, c1 := 1, s2 := 0x0, c2 := 1, rst := 0x0, rw := 0x0, w1c := 0x0, kind := .plain },
  { base := 0x101C, s1 := 0x0, c1 := 1, s2 := 0x0, c2 := 1, rst := 0x0, rw := 0x0, w1c := 0x0, kind := .plain },
  { base := 0x1020, s1 := 0x0, c1 := 1, s2 := 0x0, c2 := 1, rst := 0x0, rw := 0x0, w1c := 0x0, kind := .plain },
  { base := 0x1030, s1 := 0x0, c1 := 1, s2 := 0x0, c2 := 1, rst := 0x0, rw := 0x3, w1c := 0x0, kind := .plain },
  { base := 0x1040, s1 := 0x0, c1 := 1, s2 := 0x0, c2 := 1, rst := 0x8, rw := 0xF, w1c := 0x0, kind := .plain },
  { base := 0x1048, s1 := 0x0, c1 := 1, s2 := 0x0, c2 := 1, rst := 0x0, rw := 0x0, w1c := 0x0, kind := .plain },
  { base := 0x104C, s1 := 0x0, c1 := 1, s2 := 0x0, c2 := 1, rst := 0x0, rw := 0x0, w1c := 0x0, kind := .plain },
  { base := 0x1050, s1 := 0x0, c1 := 1, s2 := 0x0, c2 := 1, rst := 0x0, rw := 0xFFFF, w1c := 0x0, kind := .plain },
  { base := 0x1054, s1 := 0x0, c1 := 1, s2 := 0x0, c2 := 1, rst := 0x0, rw := 0xF, w1c := 0x0, kind := .plain },
  { base := 0x1058, s1 := 0x0, c1 := 1, s2 := 0x0, c2 := 1, rst := 0x0, rw := 0x0, w1c := 0x0, kind := .counter },
  { base := 0x105C, s1 := 0x0, c1 := 1, s2 := 0x0, c2 := 1, rst := 0x0, rw := 0x0, w1c := 0x0, kind := .counter },
  { base := 0x2000, s1 := 0x0, c1 := 1, s2 := 0x0, c2 := 1, rst := 0x2, rw := 0xE, w1c := 0x0, kind := .plain },
  { base := 0x2008, s1 := 0x0, c1 := 1, s2 := 0x0, c2 := 1, rst := 0x20, rw := 0xFF, w1c := 0x0, kind := .plain },
  { base := 0x2010, s1 := 0x0, c1 := 1, s2 := 0x0, c2 := 1, rst := 0x0, rw := 0x0, w1c := 0x0, kind := .plain },
  { base := 0x2014, s1 := 0x0, c1 := 1, s2 := 0x0, c2 := 1, rst := 0x0, rw := 0x0, w1c := 0x0, kind := .plain },
  { base := 0x3000, s1 := 0x0, c1 := 1, s2 := 0x0, c2 := 1, rst := 0x0, rw := 0x0, w1c := 0x0, kind := .plain },
  { base := 0x3004, s1 := 0x0, c1 := 1, s2 := 0x0, c2 := 1, rst := 0x0, rw := 0x0, w1c := 0x0, kind := .plain },
  { base := 0x3008, s1 := 0x0, c1 := 1, s2 := 0x0, c2 := 1, rst := 0x0, rw := 0x0, w1c := 0x0, kind := .plain },
  { base := 0x300C, s1 := 0x0, c1 := 1, s2 := 0x0, c2 := 1, rst := 0x0, rw := 0x0, w1c := 0x0, kind := .plain },
  { base := 0x4014, s1 := 0x0, c1 := 1, s2 := 0x0, c2 := 1, rst := 0x0, rw := 0x0, w1c := 0x0, kind := .plain },
  { base := 0x4018, s1 := 0x0, c1 := 1, s2 := 0x0, c2 := 1, rst := 0x0, rw := 0x0, w1c := 0x0, kind := .plain },
  { base := 0x8060, s1 := 0x0, c1 := 1, s2 := 0x0, c2 := 1, rst := 0x0, rw := 0xF, w1c := 0x0, kind := .plain },
  { base := 0x8140, s1 := 0x8, c1 := 1, s2 := 0x0, c2 := 1, rst := 0x200100, rw := 0x3FFFFFFF, w1c := 0x0, kind := .plain },
  { base := 0x8148, s1 := 0x8, c1 := 1, s2 := 0x0, c2 := 1, rst := 0x200200, rw := 0x3FFFFFFF, w1c := 0x0, kind := .plain },
  { base := 0x8150, s1 := 0x8, c1 := 2, s2 := 0x0, c2 := 1, rst := 0x11000580, rw := 0x3FFFFFFF, w1c := 0x0, kind := .plain },
  { base := 0x8160, s1 := 0x8, c1 := 4, s2 := 0x0, c2 := 1, rst := 0x800080, rw := 0x3FFFFFFF, w1c := 0x0, kind := .plain },
  { base := 0x8180, s1 := 0x8, c1 := 1, s2 := 0x0, c2 := 1, rst := 0x10400199, rw := 0x3FFFFFFF, w1c := 0x0, kind := .plain },
  { base := 0x8188, s1 := 0x8, c1 := 1, s2 := 0x0, c2 := 1, rst := 0x10400100, rw := 0x3FFFFFFF, w1c := 0x0, kind := .plain },
  { base := 0x8190, s1 := 0x8, c1 := 1, s2 := 0x0, c2 := 1, rst := 0x8100040, rw := 0x3FFFFFFF, w1c := 0x0, kind := .plain },
  { base := 0x8144, s1 := 0x8, c1 := 11, s2 := 0x0, c2 := 1, rst := 0x20, rw := 0x7FFF, w1c := 0x0, kind := .plain },
  { base := 0x8100, s1 := 0x8, c1 := 8, s2 := 0x0, c2 := 1, rst := 0x20000000, rw := 0x18000000, w1c := 0x0, kind := .plain },
  { base := 0x8104, s1 := 0x8, c1 := 8, s2 := 0x0, c2 := 1, rst := 0x0, rw := 0x0, w1c := 0x0, kind := .plain },
  { base := 0xC000, s1 := 0x0, c1 := 1, s2 := 0x0, c2 := 1, rst := 0x1, rw := 0x7, w1c := 0x0, kind := .plain },
  { base := 0xC010, s1 := 0x0, c1 := 1, s2 := 0x0, c2 := 1, rst := 0x40013, rw := 0x1FFFFF, w1c := 0x0, kind := .plain },
  { base := 0xC014, s1 := 0x0, c1 := 1, s2 := 0x0, c2 := 1, rst := 0x263, rw := 0xFFFFFF, w1c := 0x0, kind := .plain },
  { base := 0xC020, s1 := 0x0, c1 := 1, s2 := 0x0, c2 := 1, rst := 0x7D1, rw := 0x1FFFFF, w1c := 0x0, kind := .plain },
  { base := 0xC028, s1 := 0x0, c1 := 1, s2 := 0x0, c2 := 1, rst := 0xFFFFFFFF, rw := 0xFFFFFFFF, w1c := 0x0, kind := .plain },
  { base := 0xC02C, s1 := 0x0, c1 := 1, s2 := 0x0, c2 := 1, rst := 0xFFFFFFFF, rw := 0xFFFFFFFF, w1c := 0x0, kind := .plain },
  { base := 0x100000, s1 := 0x10000, c1 := 8, s2 := 0x0, c2 := 1, rst := 0x0, rw := 0x3, w1c := 0x0, kind := .plain },
  { base := 0x100014, s1 := 0x10000, c1 := 8, s2 := 0x0, c2 := 1, rst := 0x0, rw := 0x0, w1c := 0x0, kind := .counter },
  { base := 0x100018, s1 := 0x10000, c1 := 8, s2 := 0x0, c2 := 1, rst := 0x0, rw := 0x0, w1c := 0x0, kind := .counter },
  { base := 0x10001C, s1 := 0x10000, c1 := 8, s2 := 0x0, c2 := 1, rst := 0x0, rw := 0x0, w1c := 0x0, kind := .plain },
  { base := 0x101000, s1 := 0x10000, c1 := 8, s2 := 0x0, c2 := 1, rst := 0x1F0, rw := 0x3FF, w1c := 0x0, kind := .plain },
  { base := 0x10100C, s1 := 0x10000, c1 := 8, s2 := 0x0, c2 := 1, rst := 0x10323240, rw := 0xFFFFFFFF, w1c := 0x0, kind := .plain },
  { base := 0x101018, s1 := 0x10000, c1 := 8, s2 := 0x0, c2 := 1, rst := 0x0, rw := 0x0, w1c := 0x0, kind := .plain }]

/-- Rows of the register tables, part 2. -/
def regRows1 : List RegRow := [
  { base := 0x10101C, s1 := 0x10000, c1 := 8, s2 := 0x0, c2 := 1, rst := 0x0, rw := 0x0, w1c := 0x0, kind := .plain },
  { base := 0x101020, s1 := 0x10000, c1 := 8, s2 := 0x0, c2 := 1, rst := 0x0, rw := 0x0, w1c := 0x0, kind := .counter },
  { base := 0x101024, s1 := 0x10000, c1 := 8, s2 := 0x0, c2 := 1, rst := 0x0, rw := 0x0, w1c := 0x0, kind := .counter },
  { base := 0x101028, s1 := 0x10000, c1 := 8, s2 := 0x0, c2 := 1, rst := 0x0, rw := 0x0, w1c := 0x0, kind := .counter },
  { base := 0x10102C, s1 := 0x10000, c1 := 8, s2 := 0x0, c2 := 1, rst := 0x0, rw := 0x0, w1c := 0x0, kind := .counter },
  { base := 0x101030, s1 := 0x10000, c1 := 8, s2 := 0x0, c2 := 1, rst := 0x0, rw := 0x0, w1c := 0x0, kind := .plain },
  { base := 0x101034, s1 := 0x10000, c1 := 8, s2 := 0x4, c2 := 3, rst := 0x0, rw := 0x0, w1c := 0x0, kind := .plain },
  { base := 0x200000, s1 := 0x10000, c1 := 8, s2 := 0x0, c2 := 1, rst := 0x0, rw := 0x1FFFFF, w1c := 0x0, kind := .plain },
  { base := 0x200004, s1 := 0x10000, c1 := 8, s2 := 0x0, c2 := 1, rst := 0x10000, rw := 0x3FFFF, w1c := 0x0, kind := .plain },
  { base := 0x200010, s1 := 0x10000, c1 := 8, s2 := 0x0, c2 := 1, rst := 0x0, rw := 0x3, w1c := 0x0, kind := .plain },
  { base := 0x200020, s1 := 0x10000, c1 := 8, s2 := 0x4, c2 := 2, rst := 0x400001, rw := 0x7FFFFF, w1c := 0x0, kind := .plain },
  { base := 0x200030, s1 := 0x10000, c1 := 8, s2 := 0x0, c2 := 1, rst := 0x1, rw := 0x31FFFFF, w1c := 0x0, kind := .plain },
  { base := 0x200040, s1 := 0x10000, c1 := 8, s2 := 0x0, c2 := 1, rst := 0x0, rw := 0x0, w1c := 0x0, kind := .counter },
  { base := 0x200044, s1 := 0x10000, c1 := 8, s2 := 0x0, c2 := 1, rst := 0x0, rw := 0x0, w1c := 0x0, kind := .counter },
  { base := 0x200048, s1 := 0x10000, c1 := 8, s2 := 0x0, c2 := 1, rst := 0x0, rw := 0x0, w1c := 0x0, kind := .plain },
  { base := 0x200100, s1 := 0x10000, c1 := 8, s2 := 0x0, c2 := 1, rst := 0x0, rw := 0xFF, w1c := 0x0, kind := .plain },
  { base := 0x200104, s1 := 0x10000, c1 := 8, s2 := 0x0, c2 := 1, rst := 0x400, rw := 0x1FFFFF, w1c := 0x0, kind := .plain },
  { base := 0x200108, s1 := 0x10000, c1 := 8, s2 := 0x0, c2 := 1, rst := 0x0, rw := 0xFFFFFFFF, w1c := 0x0, kind := .plain },
  { base := 0x200110, s1 := 0x10000, c1 := 8, s2 := 0x0, c2 := 1, rst := 0x0, rw := 0xFFFFFFFF, w1c := 0x0, kind := .plain },
  { base := 0x200114, s1 := 0x10000, c1 := 8, s2 := 0x0, c2 := 1, rst := 0x0, rw := 0xFFFF, w1c := 0x0, kind := .plain },
  { base := 0x200118, s1 := 0x10000, c1 := 8, s2 := 0x0, c2 := 1, rst := 0x0, rw := 0xFFFFFFFF, w1c := 0x0, kind := .plain },
  { base := 0x20011C, s1 := 0x10000, c1 := 8, s2 := 0x0, c2 := 1, rst := 0x0, rw := 0xFFFF, w1c := 0x0, kind := .plain },
  { base := 0x200138, s1 := 0x10000, c1 := 8, s2 := 0x0, c2 := 1, rst := 0x0, rw := 0x0, w1c := 0x0, kind := .counter },
  { base := 0x20013C, s1 := 0x10000, c1 := 8, s2 := 0x0, c2 := 1, rst := 0x0, rw := 0x0, w1c := 0x0, kind := .counter },
  { base := 0x201000, s1 := 0x10000, c1 := 8, s2 := 0x0, c2 := 1, rst := 0x10000, rw := 0x3FFFF, w1c := 0x0, kind := .plain },
  { base := 0x202000, s1 := 0x10000, c1 := 8, s2 := 0x0, c2 := 1, rst := 0x10000, rw := 0x3FFFF, w1c := 0x0, kind := .plain },
  { base := 0x201000, s1 := 0x10000, c1 := 8, s2 := 0x4, c2 := 384, rst := 0x0, rw := 0x3FFFF, w1c := 0x0, kind := .plain },
  { base := 0x202000, s1 := 0x10000, c1 := 8, s2 := 0x4, c2 := 384, rst := 0x0, rw := 0x3FFFF, w1c := 0x0, kind := .plain },
  { base := 0x300004, s1 := 0x0, c1 := 1, s2 := 0x0, c2 := 1, rst := 0x0, rw := 0x0, w1c := 0x0, kind := .counter },
  { base := 0x300008, s1 := 0x0, c1 := 1, s2 := 0x0, c2 := 1, rst := 0x0, rw := 0x0, w1c := 0x0, kind := .plain },
  { base := 0x300100, s1 := 0x10, c1 := 4, s2 := 0x0, c2 := 1, rst := 0x80, rw := 0x7FFF, w1c := 0x0, kind := .plain },
  { base := 0x300104, s1 := 0x10, c1 := 4, s2 := 0x0, c2 := 1, rst := 0x4000, rw := 0xFFFFFF, w1c := 0x0, kind := .plain },
  { base := 0x300108, s1 := 0x10, c1 := 4, s2 := 0x0, c2 := 1, rst := 0x0, rw := 0x0, w1c := 0x0, kind := .counter },
  { base := 0x301000, s1 := 0x40, c1 := 16, s2 := 0x0, c2 := 1, rst := 0x0, rw := 0x1FFFFFF, w1c := 0x0, kind := .plain },
  { base := 0x301004, s1 := 0x40, c1 := 16, s2 := 0x0, c2 := 1, rst := 0x0, rw := 0xFFFFFFFF, w1c := 0x0, kind := .plain },
  { base := 0x301008, s1 := 0x40, c1 := 16, s2 := 0x0, c2 := 1, rst := 0x0, rw := 0xFFFFFFFF, w1c := 0x0, kind := .plain },
  { base := 0x30100C, s1 := 0x40, c1 := 16, s2 := 0x0, c2 := 1, rst := 0x0, rw := 0xFFFFFFFF, w1c := 0x0, kind := .plain },
  { base := 0x301018, s1 := 0x40, c1 := 16, s2 := 0x0, c2 := 1, rst := 0x0, rw := 0xFFFFFFFF, w1c := 0x0, kind := .plain },
  { base := 0x30101C, s1 := 0x40, c1 := 16, s2 := 0x0, c2 := 1, rst := 0x0, rw := 0xFF, w1c := 0x0, kind := .plain },
  { base := 0x301020, s1 := 0x40, c1 := 16, s2 := 0x0, c2 := 1, rst := 0x0, rw := 0xFFFFFFFF, w1c := 0x0, kind := .plain },
  { base := 0x301024, s1 := 0x40, c1 := 16, s2 := 0x0, c2 := 1, rst := 0x0, rw := 0xFF, w1c := 0x0, kind := .plain },
  { base := 0x30102C, s1 := 0x40, c1 := 16, s2 := 0x0, c2 := 1, rst := 0x0, rw := 0x0, w1c := 0x0, kind := .counter },
  { base := 0x302000, s1 := 0x100, c1 := 4, s2 := 0x0, c2 := 1, rst := 0x0, rw := 0x7F, w1c := 0x0, kind := .plain },
  { base := 0x302004, s1 := 0x100, c1 := 4, s2 := 0x0, c2 := 1, rst := 0x0, rw := 0xFFFFFFFF, w1c := 0x0, kind := .plain },
  { base := 0x302008, s1 := 0x100, c1 := 4, s2 := 0x0, c2 := 1, rst := 0x0, rw := 0xFFFF, w1c := 0x0, kind := .plain },
  { base := 0x30200C, s1 := 0x100, c1 := 4, s2 := 0x0, c2 := 1, rst := 0x0, rw := 0x1FFF, w1c := 0x0, kind := .plain },
  { base := 0x302010, s1 := 0x100, c1 := 4, s2 := 0x0, c2 := 1, rst := 0x0, rw := 0xFFFFFFFF, w1c := 0x0, kind := .plain },
  { base := 0x302014, s1 := 0x100, c1 := 4, s2 := 0x0, c2 := 1, rst := 0x0, rw := 0xFFFF, w1c := 0x0, kind := .plain },
  { base := 0x302018, s1 := 0x100, c1 := 4, s2 := 0x0, c2 := 1, rst := 0x0, rw := 0xFFFFFFFF, w1c := 0x0, kind := .plain },
  { base := 0x30201C, s1 := 0x100, c1 := 4, s2 := 0x0, c2 := 1, rst := 0x0, rw := 0x1FFFF, w1c := 0x0, kind := .plain }]

/-- Rows of the register tables, part 3. -/
def regRows2 : List RegRow := [
  { base := 0x302020, s1 := 0x100, c1 := 4, s2 := 0x0, c2 := 1, rst := 0x0, rw := 0xFFFFFFFF, w1c := 0x0, kind := .plain },
  { base := 0x302028, s1 := 0x100, c1 := 4, s2 := 0x0, c2 := 1, rst := 0x0, rw := 0x0, w1c := 0x0, kind := .counter },
  { base := 0x30202C, s1 := 0x100, c1 := 4, s2 := 0x0, c2 := 1, rst := 0x0, rw := 0x0, w1c := 0x0, kind := .counter },
  { base := 0x302030, s1 := 0x100, c1 := 4, s2 := 0x0, c2 := 1, rst := 0x0, rw := 0x0, w1c := 0x0, kind := .counter },
  { base := 0x302040, s1 := 0x100, c1 := 4, s2 := 0x4, c2 := 3, rst := 0x0, rw := 0x0, w1c := 0x0, kind := .plain },
  { base := 0x302050, s1 := 0x100, c1 := 4, s2 := 0x0, c2 := 1, rst := 0x0, rw := 0x0, w1c := 0x0, kind := .plain },
  { base := 0x302054, s1 := 0x100, c1 := 4, s2 := 0x0, c2 := 1, rst := 0x0, rw := 0x0, w1c := 0x0, kind := .plain },
  { base := 0x380000, s1 := 0x0, c1 := 1, s2 := 0x0, c2 := 1, rst := 0x3C0, rw := 0xFFF, w1c := 0x0, kind := .plain },
  { base := 0x380004, s1 := 0x0, c1 := 1, s2 := 0x0, c2 := 1, rst := 0x0, rw := 0x3FF, w1c := 0x0, kind := .plain },
  { base := 0x380010, s1 := 0x0, c1 := 1, s2 := 0x0, c2 := 1, rst := 0x0, rw := 0xFFFFFFFF, w1c := 0x0, kind := .plain },
  { base := 0x380014, s1 := 0x0, c1 := 1, s2 := 0x0, c2 := 1, rst := 0x0, rw := 0xFFFF, w1c := 0x0, kind := .plain },
  { base := 0x380018, s1 := 0x0, c1 := 1, s2 := 0x0, c2 := 1, rst := 0x0, rw := 0xFFFFFFFF, w1c := 0x0, kind := .plain },
  { base := 0x38001C, s1 := 0x0, c1 := 1, s2 := 0x0, c2 := 1, rst := 0x0, rw := 0xFFFF, w1c := 0x0, kind := .plain },
  { base := 0x380028, s1 := 0x0, c1 := 1, s2 := 0x0, c2 := 1, rst := 0x200, rw := 0x7FF, w1c := 0x0, kind := .plain },
  { base := 0x380040, s1 := 0x0, c1 := 1, s2 := 0x0, c2 := 1, rst := 0x0, rw := 0xFFFF0000, w1c := 0x0, kind := .plain },
  { base := 0x380044, s1 := 0x0, c1 := 1, s2 := 0x0, c2 := 1, rst := 0x0, rw := 0xFF, w1c := 0x0, kind := .plain },
  { base := 0x380048, s1 := 0x0, c1 := 1, s2 := 0x0, c2 := 1, rst := 0x1, rw := 0xFFFF, w1c := 0x0, kind := .plain },
  { base := 0x380050, s1 := 0x0, c1 := 1, s2 := 0x0, c2 := 1, rst := 0x0, rw := 0x0, w1c := 0x0, kind := .plain },
  { base := 0x380054, s1 := 0x0, c1 := 1, s2 := 0x0, c2 := 1, rst := 0x0, rw := 0x0, w1c := 0x0, kind := .plain },
  { base := 0x380060, s1 := 0x0, c1 := 1, s2 := 0x0, c2 := 1, rst := 0x0, rw := 0x3FFF, w1c := 0x0, kind := .plain },
  { base := 0x380064, s1 := 0x0, c1 := 1, s2 := 0x0, c2 := 1, rst := 0x0, rw := 0xFFFFFFFF, w1c := 0x0, kind := .plain },
  { base := 0x380068, s1 := 0x0, c1 := 1, s2 := 0x0, c2 := 1, rst := 0x0, rw := 0x0, w1c := 0x0, kind := .counter },
  { base := 0x38006C, s1 := 0x0, c1 := 1, s2 := 0x0, c2 := 1, rst := 0x0, rw := 0x0, w1c := 0x0, kind := .counter },
  { base := 0x380070, s1 := 0x0, c1 := 1, s2 := 0x0, c2 := 1, rst := 0x0, rw := 0x0, w1c := 0x0, kind := .counter },
  { base := 0x380074, s1 := 0x0, c1 := 1, s2 := 0x0, c2 := 1, rst := 0x0, rw := 0x0, w1c := 0x0, kind := .plain },
  { base := 0x380080, s1 := 0x0, c1 := 1, s2 := 0x0, c2 := 1, rst := 0x0, rw := 0x7FE, w1c := 0x0, kind := .plain },
  { base := 0x380100, s1 := 0x20, c1 := 10, s2 := 0x0, c2 := 1, rst := 0x1000000, rw := 0x1FFFFFF, w1c := 0x0, kind := .plain },
  { base := 0x380104, s1 := 0x20, c1 := 10, s2 := 0x0, c2 := 1, rst := 0x0, rw := 0xFFFFFF, w1c := 0x0, kind := .plain },
  { base := 0x380108, s1 := 0x20, c1 := 10, s2 := 0x0, c2 := 1, rst := 0x0, rw := 0x0, w1c := 0x0, kind := .counter },
  { base := 0x38010C, s1 := 0x20, c1 := 10, s2 := 0x0, c2 := 1, rst := 0x0, rw := 0x0, w1c := 0x0, kind := .counter },
  { base := 0x400000, s1 := 0x100, c1 := 8, s2 := 0x0, c2 := 1, rst := 0x0, rw := 0x7, w1c := 0x0, kind := .plain },
  { base := 0x400008, s1 := 0x100, c1 := 8, s2 := 0x0, c2 := 1, rst := 0x0, rw := 0xFFE00000, w1c := 0x0, kind := .plain },
  { base := 0x40000C, s1 := 0x100, c1 := 8, s2 := 0x0, c2 := 1, rst := 0x0, rw := 0xFF, w1c := 0x0, kind := .plain },
  { base := 0x400010, s1 := 0x100, c1 := 8, s2 := 0x0, c2 := 1, rst := 0x0, rw := 0x7FFF, w1c := 0x0, kind := .plain },
  { base := 0x400018, s1 := 0x100, c1 := 8, s2 := 0x0, c2 := 1, rst := 0x0, rw := 0xFFFF0000, w1c := 0x0, kind := .plain },
  { base := 0x40001C, s1 := 0x100, c1 := 8, s2 := 0x0, c2 := 1, rst := 0x0, rw := 0xFF, w1c := 0x0, kind := .plain },
  { base := 0x400020, s1 := 0x100, c1 := 8, s2 := 0x0, c2 := 1, rst := 0x0, rw := 0xFFFF, w1c := 0x0, kind := .plain },
  { base := 0x400028, s1 := 0x100, c1 := 8, s2 := 0x0, c2 := 1, rst := 0x0, rw := 0x0, w1c := 0x0, kind := .plain },
  { base := 0x40002C, s1 := 0x100, c1 := 8, s2 := 0x0, c2 := 1, rst := 0x0, rw := 0x0, w1c := 0x0, kind := .plain },
  { base := 0x400030, s1 := 0x100, c1 := 8, s2 := 0x0, c2 := 1, rst := 0x0, rw := 0x0, w1c := 0x0, kind := .plain },
  { base := 0x400034, s1 := 0x100, c1 := 8, s2 := 0x0, c2 := 1, rst := 0x0, rw := 0x0, w1c := 0x0, kind := .plain },
  { base := 0x400038, s1 := 0x100, c1 := 8, s2 := 0x0, c2 := 1, rst := 0x0, rw := 0x0, w1c := 0x0, kind := .plain },
  { base := 0x40003C, s1 := 0x100, c1 := 8, s2 := 0x0, c2 := 1, rst := 0x0, rw := 0x0, w1c := 0x0, kind := .plain },
  { base := 0x400040, s1 := 0x100, c1 := 8, s2 := 0x0, c2 := 1, rst := 0x0, rw := 0x0, w1c := 0x0, kind := .plain },
  { base := 0x400044, s1 := 0x100, c1 := 8, s2 := 0x0, c2 := 1, rst := 0x0, rw := 0x0, w1c := 0x0, kind := .plain },
  { base := 0x400048, s1 := 0x100, c1 := 8, s2 := 0x0, c2 := 1, rst := 0x0, rw := 0x0, w1c := 0x0, kind := .counter },
  { base := 0x400800, s1 := 0x0, c1 := 1, s2 := 0x0, c2 := 1, rst := 0x0, rw := 0xFF, w1c := 0x0, kind := .plain },
  { base := 0x400810, s1 := 0x0, c1 := 1, s2 := 0x0, c2 := 1, rst := 0x0, rw := 0x1FF, w1c := 0x0, kind := .plain },
  { base := 0x400814, s1 := 0x0, c1 := 1, s2 := 0x0, c2 := 1, rst := 0x0, rw := 0x3FFE, w1c := 0x0, kind := .plain },
  { base := 0x400818, s1 := 0x0, c1 := 1, s2 := 0x0, c2 := 1, rst := 0x0, rw := 0x0, w1c := 0x0, kind := .counter }]

/-- Rows of the register tables, part 4. -/
def regRows3 : List RegRow := [
  { base := 0x400820, s1 := 0x0, c1 := 1, s2 := 0x0, c2 := 1, rst := 0x0, rw := 0x0, w1c := 0x0, kind := .plain },
  { base := 0x401000, s1 := 0x100, c1 := 4, s2 := 0x0, c2 := 1, rst := 0x2800, rw := 0x7FFF, w1c := 0x0, kind := .plain },
  { base := 0x401008, s1 := 0x100, c1 := 4, s2 := 0x0, c2 := 1, rst := 0x0, rw := 0xFFFF0000, w1c := 0x0, kind := .plain },
  { base := 0x40100C, s1 := 0x100, c1 := 4, s2 := 0x0, c2 := 1, rst := 0x0, rw := 0xFF, w1c := 0x0, kind := .plain },
  { base := 0x401010, s1 := 0x100, c1 := 4, s2 := 0x0, c2 := 1, rst := 0x0, rw := 0xFFFFFFFF, w1c := 0x0, kind := .plain },
  { base := 0x401014, s1 := 0x100, c1 := 4, s2 := 0x0, c2 := 1, rst := 0x1, rw := 0xFFFFFFFF, w1c := 0x0, kind := .plain },
  { base := 0x401020, s1 := 0x100, c1 := 4, s2 := 0x0, c2 := 1, rst := 0x0, rw := 0x0, w1c := 0x0, kind := .plain },
  { base := 0x401024, s1 := 0x100, c1 := 4, s2 := 0x0, c2 := 1, rst := 0x0, rw := 0x0, w1c := 0x0, kind := .plain },
  { base := 0x401028, s1 := 0x100, c1 := 4, s2 := 0x0, c2 := 1, rst := 0x0, rw := 0x0, w1c := 0x0, kind := .plain },
  { base := 0x40102C, s1 := 0x100, c1 := 4, s2 := 0x0, c2 := 1, rst := 0x0, rw := 0x0, w1c := 0x0, kind := .plain },
  { base := 0x401030, s1 := 0x100, c1 := 4, s2 := 0x0, c2 := 1, rst := 0x0, rw := 0xFFFFFFFF, w1c := 0x0, kind := .plain },
  { base := 0x401034, s1 := 0x100, c1 := 4, s2 := 0x0, c2 := 1, rst := 0x0, rw := 0xFFFFFFFF, w1c := 0x0, kind := .plain },
  { base := 0x401038, s1 := 0x100, c1 := 4, s2 := 0x0, c2 := 1, rst := 0x0, rw := 0x0, w1c := 0x0, kind := .counter },
  { base := 0x40103C, s1 := 0x100, c1 := 4, s2 := 0x0, c2 := 1, rst := 0x0, rw := 0x0, w1c := 0x0, kind := .counter },
  { base := 0x401040, s1 := 0x100, c1 := 4, s2 := 0x0, c2 := 1, rst := 0x0, rw := 0x0, w1c := 0x0, kind := .counter },
  { base := 0x402000, s1 := 0x10, c1 := 16, s2 := 0x0, c2 := 1, rst := 0x0, rw := 0xC, w1c := 0x0, kind := .plain },
  { base := 0x402008, s1 := 0x10, c1 := 16, s2 := 0x0, c2 := 1, rst := 0x0, rw := 0xFFFFFFFF, w1c := 0x0, kind := .plain },
  { base := 0x40200C, s1 := 0x10, c1 := 16, s2 := 0x0, c2 := 1, rst := 0x0, rw := 0xFFFFFFFF, w1c := 0x0, kind := .plain },
  { base := 0x500000, s1 := 0x20000, c1 := 8, s2 := 0x0, c2 := 1, rst := 0x580, rw := 0x7FF, w1c := 0x0, kind := .plain },
  { base := 0x500004, s1 := 0x20000, c1 := 8, s2 := 0x0, c2 := 1, rst := 0x800, rw := 0x1FFFFF, w1c := 0x0, kind := .plain },
  { base := 0x500008, s1 := 0x20000, c1 := 8, s2 := 0x0, c2 := 1, rst := 0x0, rw := 0x1FFFFF, w1c := 0x0, kind := .plain },
  { base := 0x50000C, s1 := 0x20000, c1 := 8, s2 := 0x0, c2 := 1, rst := 0x60000, rw := 0x7FFFF, w1c := 0x0, kind := .plain },
  { base := 0x500010, s1 := 0x20000, c1 := 8, s2 := 0x0, c2 := 1, rst := 0x0, rw := 0x1F, w1c := 0x0, kind := .plain },
  { base := 0x500014, s1 := 0x20000, c1 := 8, s2 := 0x0, c2 := 1, rst := 0x400, rw := 0xFFFFFFFF, w1c := 0x0, kind := .plain },
  { base := 0x500018, s1 := 0x20000, c1 := 8, s2 := 0x0, c2 := 1, rst := 0x0, rw := 0xFFFFFFFF, w1c := 0x0, kind := .plain },
  { base := 0x50001C, s1 := 0x20000, c1 := 8, s2 := 0x0, c2 := 1, rst := 0x0, rw := 0xFFFF, w1c := 0x0, kind := .plain },
  { base := 0x500020, s1 := 0x20000, c1 := 8, s2 := 0x0, c2 := 1, rst := 0x7A1200, rw := 0xFFFFFFFF, w1c := 0x0, kind := .plain },
  { base := 0x500024, s1 := 0x20000, c1 := 8, s2 := 0x0, c2 := 1, rst := 0x0, rw := 0xFFFF, w1c := 0x0, kind := .plain },
  { base := 0x500028, s1 := 0x20000, c1 := 8, s2 := 0x0, c2 := 1, rst := 0x8, rw := 0x3FFF, w1c := 0x0, kind := .plain },
  { base := 0x500030, s1 := 0x20000, c1 := 8, s2 := 0x0, c2 := 1, rst := 0x4F790D55, rw := 0xFFFFFFFF, w1c := 0x0, kind := .plain },
  { base := 0x500034, s1 := 0x20000, c1 := 8, s2 := 0x0, c2 := 1, rst := 0x0, rw := 0xFFFF, w1c := 0x0, kind := .plain },
  { base := 0x500038, s1 := 0x20000, c1 := 8, s2 := 0x0, c2 := 1, rst := 0x0, rw := 0xFF000000, w1c := 0x0, kind := .plain },
  { base := 0x50003C, s1 := 0x20000, c1 := 8, s2 := 0x0, c2 := 1, rst := 0x0, rw := 0xFF, w1c := 0x0, kind := .plain },
  { base := 0x500040, s1 := 0x20000, c1 := 8, s2 := 0x0, c2 := 1, rst := 0x80200, rw := 0x7FFFFF, w1c := 0x0, kind := .plain },
  { base := 0x500050, s1 := 0x20000, c1 := 8, s2 := 0x0, c2 := 1, rst := 0x0, rw := 0x0, w1c := 0x0, kind := .plain },
  { base := 0x500054, s1 := 0x20000, c1 := 8, s2 := 0x0, c2 := 1, rst := 0x0, rw := 0x0, w1c := 0x0, kind := .plain },
  { base := 0x500058, s1 := 0x20000, c1 := 8, s2 := 0x0, c2 := 1, rst := 0x0, rw := 0x0, w1c := 0x0, kind := .plain },
  { base := 0x50005C, s1 := 0x20000, c1 := 8, s2 := 0x0, c2 := 1, rst := 0x0, rw := 0x0, w1c := 0x0, kind := .plain },
  { base := 0x500060, s1 := 0x20000, c1 := 8, s2 := 0x0, c2 := 1, rst := 0x0, rw := 0x0, w1c := 0x0, kind := .counter },
  { base := 0x500064, s1 := 0x20000, c1 := 8, s2 := 0x0, c2 := 1, rst := 0x0, rw := 0x0, w1c := 0x0, kind := .counter },
  { base := 0x500068, s1 := 0x20000, c1 := 8, s2 := 0x0, c2 := 1, rst := 0x0, rw := 0x0, w1c := 0x0, kind := .counter },
  { base := 0x50006C, s1 := 0x20000, c1 := 8, s2 := 0x0, c2 := 1, rst := 0x0, rw := 0x0, w1c := 0x0, kind := .counter },
  { base := 0x500070, s1 := 0x20000, c1 := 8, s2 := 0x0, c2 := 1, rst := 0x0, rw := 0x0, w1c := 0x0, kind := .counter },
  { base := 0x500074, s1 := 0x20000, c1 := 8, s2 := 0x0, c2 := 1, rst := 0x0, rw := 0x0, w1c := 0x0, kind := .counter },
  { base := 0x500078, s1 := 0x20000, c1 := 8, s2 := 0x0, c2 := 1, rst := 0x0, rw := 0x0, w1c := 0x0, kind := .plain },
  { base := 0x600000, s1 := 0x0, c1 := 1, s2 := 0x0, c2 := 1, rst := 0x3C0000, rw := 0x3FFFFFF, w1c := 0x0, kind := .plain },
  { base := 0x60000C, s1 := 0x0, c1 := 1, s2 := 0x0, c2 := 1, rst := 0x0, rw := 0x3FF, w1c := 0x0, kind := .plain },
  { base := 0x600010, s1 := 0x0, c1 := 1, s2 := 0x0, c2 := 1, rst := 0x0, rw := 0x0, w1c := 0x0, kind := .counter },
  { base := 0x600014, s1 := 0x0, c1 := 1, s2 := 0x0, c2 := 1, rst := 0x0, rw := 0x0, w1c := 0x0, kind := .counter },
  { base := 0x600018, s1 := 0x0, c1 := 1, s2 := 0x0, c2 := 1, rst := 0x0, rw := 0x0, w1c := 0x0, kind := .counter }]

/-- Rows of the register tables, part 5. -/
def regRows4 : List RegRow := [
  { base := 0x60001C, s1 := 0x0, c1 := 1, s2 := 0x0, c2 := 1, rst := 0x0, rw := 0x0, w1c := 0x0, kind := .counter },
  { base := 0x600020, s1 := 0x0, c1 := 1, s2 := 0x0, c2 := 1, rst := 0x0, rw := 0x0, w1c := 0x0, kind := .plain },
  { base := 0x600028, s1 := 0x0, c1 := 1, s2 := 0x0, c2 := 1, rst := 0x0, rw := 0xFFFF0000, w1c := 0x0, kind := .plain },
  { base := 0x60002C, s1 := 0x0, c1 := 1, s2 := 0x0, c2 := 1, rst := 0x0, rw := 0xFF, w1c := 0x0, kind := .plain },
  { base := 0x600030, s1 := 0x0, c1 := 1, s2 := 0x0, c2 := 1, rst := 0x0, rw := 0xFFFF, w1c := 0x0, kind := .plain },
  { base := 0x600038, s1 := 0x0, c1 := 1, s2 := 0x0, c2 := 1, rst := 0x0, rw := 0x0, w1c := 0x0, kind := .plain },
  { base := 0x60003C, s1 := 0x0, c1 := 1, s2 := 0x0, c2 := 1, rst := 0x0, rw := 0x0, w1c := 0x0, kind := .plain },
  { base := 0x600040, s1 := 0x0, c1 := 1, s2 := 0x0, c2 := 1, rst := 0x0, rw := 0x0, w1c := 0x0, kind := .plain },
  { base := 0x600044, s1 := 0x0, c1 := 1, s2 := 0x0, c2 := 1, rst := 0x0, rw := 0x0, w1c := 0x0, kind := .plain },
  { base := 0x600048, s1 := 0x4, c1 := 3, s2 := 0x0, c2 := 1, rst := 0x0, rw := 0x0, w1c := 0x0, kind := .plain },
  { base := 0x600058, s1 := 0x0, c1 := 1, s2 := 0x0, c2 := 1, rst := 0x0, rw := 0x0, w1c := 0x0, kind := .plain },
  { base := 0x60005C, s1 := 0x0, c1 := 1, s2 := 0x0, c2 := 1, rst := 0x0, rw := 0x0, w1c := 0x0, kind := .plain },
  { base := 0x600100, s1 := 0x4, c1 := 16, s2 := 0x0, c2 := 1, rst := 0x400, rw := 0x1FFFFFF, w1c := 0x0, kind := .plain },
  { base := 0x600200, s1 := 0x10, c1 := 16, s2 := 0x0, c2 := 1, rst := 0x0, rw := 0x0, w1c := 0x0, kind := .plain },
  { base := 0x600204, s1 := 0x10, c1 := 16, s2 := 0x0, c2 := 1, rst := 0x2, rw := 0x0, w1c := 0x0, kind := .plain },
  { base := 0x600208, s1 := 0x10, c1 := 16, s2 := 0x0, c2 := 1, rst := 0x0, rw := 0x0, w1c := 0x0, kind := .plain },
  { base := 0x60020C, s1 := 0x10, c1 := 16, s2 := 0x0, c2 := 1, rst := 0x0, rw := 0x0, w1c := 0x0, kind := .plain },
  { base := 0x600400, s1 := 0x10, c1 := 4, s2 := 0x0, c2 := 1, rst := 0x0, rw := 0x3FFF, w1c := 0x0, kind := .plain },
  { base := 0x70002C, s1 := 0x0, c1 := 1, s2 := 0x0, c2 := 1, rst := 0x280000, rw := 0x3FFFFF, w1c := 0x0, kind := .plain },
  { base := 0x700000, s1 := 0x4, c1 := 256, s2 := 0x0, c2 := 1, rst := 0x0, rw := 0x3FFFFF, w1c := 0x0, kind := .plain },
  { base := 0x100000100, s1 := 0x0, c1 := 1, s2 := 0x0, c2 := 1, rst := 0x0, rw := 0xF5, w1c := 0x0, kind := .plain },
  { base := 0x100000104, s1 := 0x0, c1 := 1, s2 := 0x0, c2 := 1, rst := 0x0, rw := 0x0, w1c := 0x20000, kind := .plain },
  { base := 0x100000108, s1 := 0x0, c1 := 1, s2 := 0x0, c2 := 1, rst := 0x0, rw := 0x0, w1c := 0x0, kind := .plain },
  { base := 0x10000010C, s1 := 0x0, c1 := 1, s2 := 0x0, c2 := 1, rst := 0x0, rw := 0x0, w1c := 0x0, kind := .plain },
  { base := 0x100000110, s1 := 0x4, c1 := 3, s2 := 0x0, c2 := 1, rst := 0x0, rw := 0x0, w1c := 0x0, kind := .plain },
  { base := 0x100000200, s1 := 0x0, c1 := 1, s2 := 0x0, c2 := 1, rst := 0x0, rw := 0xF0000000, w1c := 0x0, kind := .plain },
  { base := 0x100000204, s1 := 0x0, c1 := 1, s2 := 0x0, c2 := 1, rst := 0x0, rw := 0xFF, w1c := 0x0, kind := .plain },
  { base := 0x100000300, s1 := 0x0, c1 := 1, s2 := 0x0, c2 := 1, rst := 0x2, rw := 0xE, w1c := 0x0, kind := .plain },
  { base := 0x100010000, s1 := 0x4, c1 := 8, s2 := 0x0, c2 := 1, rst := 0x0, rw := 0x0, w1c := 0xFFFFFFFF, kind := .plain },
  { base := 0x100010020, s1 := 0x4, c1 := 8, s2 := 0x0, c2 := 1, rst := 0xFFFFFFFF, rw := 0xFFFFFFFF, w1c := 0x0, kind := .plain },
  { base := 0x100010100, s1 := 0x0, c1 := 1, s2 := 0x0, c2 := 1, rst := 0x0, rw := 0x0, w1c := 0x200, kind := .plain },
  { base := 0x100010104, s1 := 0x0, c1 := 1, s2 := 0x0, c2 := 1, rst := 0x0, rw := 0x0, w1c := 0x80000000, kind := .plain },
  { base := 0x100010108, s1 := 0x0, c1 := 1, s2 := 0x0, c2 := 1, rst := 0x0, rw := 0x0, w1c := 0x0, kind := .plain },
  { base := 0x10001010C, s1 := 0x0, c1 := 1, s2 := 0x0, c2 := 1, rst := 0x0, rw := 0x0, w1c := 0x0, kind := .plain },
  { base := 0x100010110, s1 := 0x0, c1 := 1, s2 := 0x0, c2 := 1, rst := 0x0, rw := 0x0, w1c := 0xFFFF, kind := .plain },
  { base := 0x100010114, s1 := 0x0, c1 := 1, s2 := 0x0, c2 := 1, rst := 0x0, rw := 0x0, w1c := 0xFFFF, kind := .plain },
  { base := 0x100010118, s1 := 0x0, c1 := 1, s2 := 0x0, c2 := 1, rst := 0x0, rw := 0x0, w1c := 0xFFFF, kind := .plain },
  { base := 0x10001011C, s1 := 0x0, c1 := 1, s2 := 0x0, c2 := 1, rst := 0x0, rw := 0x0, w1c := 0xFFFF, kind := .plain },
  { base := 0x100010120, s1 := 0x0, c1 := 1, s2 := 0x0, c2 := 1, rst := 0x0, rw := 0x0, w1c := 0xFFFF, kind := .plain },
  { base := 0x100010124, s1 := 0x0, c1 := 1, s2 := 0x0, c2 := 1, rst := 0x0, rw := 0x0, w1c := 0x7, kind := .plain },
  { base := 0x100011000, s1 := 0x4, c1 := 256, s2 := 0x0, c2 := 1, rst := 0x1000, rw := 0xFFFFFFFF, w1c := 0x0, kind := .plain },
  { base := 0x100012000, s1 := 0x4, c1 := 256, s2 := 0x0, c2 := 1, rst := 0x0, rw := 0x0, w1c := 0x0, kind := .hostCounter },
  { base := 0x100013000, s1 := 0x4, c1 := 64, s2 := 0x0, c2 := 1, rst := 0x0, rw := 0x0, w1c := 0x0, kind := .plain },
  { base := 0x100050008, s1 := 0x0, c1 := 1, s2 := 0x0, c2 := 1, rst := 0x10000, rw := 0xFFFFFF, w1c := 0x0, kind := .plain },
  { base := 0x100050010, s1 := 0x0, c1 := 1, s2 := 0x0, c2 := 1, rst := 0x0, rw := 0xFFF, w1c := 0x0, kind := .plain },
  { base := 0x100050014, s1 := 0x0, c1 := 1, s2 := 0x0, c2 := 1, rst := 0x0, rw := 0x0, w1c := 0x0, kind := .plain },
  { base := 0x10005007C, s1 := 0x0, c1 := 1, s2 := 0x0, c2 := 1, rst := 0x0, rw := 0x0, w1c := 0x0, kind := .plain },
  { base := 0x100050040, s1 := 0x4, c1 := 16, s2 := 0x0, c2 := 1, rst := 0x0, rw := 0xFFFFFFFF, w1c := 0x0, kind := .plain },
  { base := 0x100050100, s1 := 0x4, c1 := 64, s2 := 0x0, c2 := 1, rst := 0x1, rw := 0xFF, w1c := 0x0, kind := .plain },
  { base := 0x100048004, s1 := 0x0, c1 := 1, s2 := 0x0, c2 := 1, rst := 0x10000, rw := 0xFFFFFF, w1c := 0x0, kind := .plain }]

/-- Rows of the register tables, part 6. -/
def regRows5 : List RegRow := [
  { base := 0x100060000, s1 := 0x0, c1 := 1, s2 := 0x0, c2 := 1, rst := 0x0, rw := 0x0, w1c := 0x0, kind := .plain },
  { base := 0x100060034, s1 := 0x0, c1 := 1, s2 := 0x0, c2 := 1, rst := 0x0, rw := 0x0, w1c := 0x0, kind := .plain },
  { base := 0x100060040, s1 := 0x0, c1 := 1, s2 := 0x0, c2 := 1, rst := 0x11300F00, rw := 0x3FFF0FFF, w1c := 0x0, kind := .plain },
  { base := 0x100060060, s1 := 0x0, c1 := 1, s2 := 0x0, c2 := 1, rst := 0x11300F00, rw := 0x0, w1c := 0x0, kind := .plain },
  { base := 0x100060044, s1 := 0x0, c1 := 1, s2 := 0x0, c2 := 1, rst := 0x5800B0, rw := 0x83FF3FFF, w1c := 0x0, kind := .plain },
  { base := 0x100060064, s1 := 0x0, c1 := 1, s2 := 0x0, c2 := 1, rst := 0x5800B0, rw := 0x0, w1c := 0x0, kind := .plain },
  { base := 0x100060048, s1 := 0x0, c1 := 1, s2 := 0x0, c2 := 1, rst := 0x8CA0870, rw := 0x1FFF0FFF, w1c := 0x0, kind := .plain },
  { base := 0x100060068, s1 := 0x0, c1 := 1, s2 := 0x0, c2 := 1, rst := 0x8CA0870, rw := 0x0, w1c := 0x0, kind := .plain },
  { base := 0x10006004C, s1 := 0x0, c1 := 1, s2 := 0x0, c2 := 1, rst := 0xA0000, rw := 0x80FF1FFF, w1c := 0x0, kind := .plain },
  { base := 0x10006006C, s1 := 0x0, c1 := 1, s2 := 0x0, c2 := 1, rst := 0xA0000, rw := 0x0, w1c := 0x0, kind := .plain },
  { base := 0x100060050, s1 := 0x0, c1 := 1, s2 := 0x0, c2 := 1, rst := 0x320129, rw := 0xFFFFFFF, w1c := 0x0, kind := .plain },
  { base := 0x100060070, s1 := 0x0, c1 := 1, s2 := 0x0, c2 := 1, rst := 0x320129, rw := 0x0, w1c := 0x0, kind := .plain },
  { base := 0x100060080, s1 := 0x0, c1 := 1, s2 := 0x0, c2 := 1, rst := 0x20080000, rw := 0x3FFFFFFF, w1c := 0x0, kind := .plain },
  { base := 0x1000600C0, s1 := 0x0, c1 := 1, s2 := 0x0, c2 := 1, rst := 0x20080000, rw := 0x0, w1c := 0x0, kind := .plain },
  { base := 0x100060084, s1 := 0x0, c1 := 1, s2 := 0x0, c2 := 1, rst := 0x1000, rw := 0xFFFFFFFF, w1c := 0x0, kind := .plain },
  { base := 0x1000600C4, s1 := 0x0, c1 := 1, s2 := 0x0, c2 := 1, rst := 0x1000, rw := 0x0, w1c := 0x0, kind := .plain },
  { base := 0x100060088, s1 := 0x0, c1 := 1, s2 := 0x0, c2 := 1, rst := 0x10001932, rw := 0xFFFFFFFF, w1c := 0x0, kind := .plain },
  { base := 0x1000600C8, s1 := 0x0, c1 := 1, s2 := 0x0, c2 := 1, rst := 0x10001932, rw := 0x0, w1c := 0x0, kind := .plain },
  { base := 0x10006008C, s1 := 0x0, c1 := 1, s2 := 0x0, c2 := 1, rst := 0xF883FD01, rw := 0xFFFFFFFF, w1c := 0x0, kind := .plain },
  { base := 0x1000600CC, s1 := 0x0, c1 := 1, s2 := 0x0, c2 := 1, rst := 0xF883FD01, rw := 0x0, w1c := 0x0, kind := .plain },
  { base := 0x100060090, s1 := 0x0, c1 := 1, s2 := 0x0, c2 := 1, rst := 0x1DB11000, rw := 0xFFFFFFFF, w1c := 0x0, kind := .plain },
  { base := 0x1000600D0, s1 := 0x0, c1 := 1, s2 := 0x0, c2 := 1, rst := 0x1DB11000, rw := 0x0, w1c := 0x0, kind := .plain },
  { base := 0x100060094, s1 := 0x0, c1 := 1, s2 := 0x0, c2 := 1, rst := 0x0, rw := 0x3FFFFFF, w1c := 0x0, kind := .plain },
  { base := 0x1000600D4, s1 := 0x0, c1 := 1, s2 := 0x0, c2 := 1, rst := 0x0, rw := 0x0, w1c := 0x0, kind := .plain },
  { base := 0x100060100, s1 := 0x40, c1 := 4, s2 := 0x0, c2 := 1, rst := 0xFF2, rw := 0x1FFFFF, w1c := 0x0, kind := .plain },
  { base := 0x100060200, s1 := 0x40, c1 := 4, s2 := 0x0, c2 := 1, rst := 0xFF2, rw := 0x0, w1c := 0x0, kind := .plain },
  { base := 0x100060104, s1 := 0x40, c1 := 4, s2 := 0x0, c2 := 1, rst := 0x0, rw := 0x3FF03FF, w1c := 0x0, kind := .plain },
  { base := 0x100060204, s1 := 0x40, c1 := 4, s2 := 0x0, c2 := 1, rst := 0x0, rw := 0x0, w1c := 0x0, kind := .plain },
  { base := 0x100060108, s1 := 0x40, c1 := 4, s2 := 0x0, c2 := 1, rst := 0x2000200, rw := 0x3FF03FF, w1c := 0x0, kind := .plain },
  { base := 0x100060208, s1 := 0x40, c1 := 4, s2 := 0x0, c2 := 1, rst := 0x2000200, rw := 0x0, w1c := 0x0, kind := .plain },
  { base := 0x10006010C, s1 := 0x40, c1 := 4, s2 := 0x0, c2 := 1, rst := 0x0, rw := 0x3FFF3FFF, w1c := 0x0, kind := .plain },
  { base := 0x10006020C, s1 := 0x40, c1 := 4, s2 := 0x0, c2 := 1, rst := 0x0, rw := 0x0, w1c := 0x0, kind := .plain },
  { base := 0x100060110, s1 := 0x40, c1 := 4, s2 := 0x0, c2 := 1, rst := 0x8700F00, rw := 0xFFF0FFF, w1c := 0x0, kind := .plain },
  { base := 0x100060210, s1 := 0x40, c1 := 4, s2 := 0x0, c2 := 1, rst := 0x8700F00, rw := 0x0, w1c := 0x0, kind := .plain },
  { base := 0x100060114, s1 := 0x40, c1 := 4, s2 := 0x0, c2 := 1, rst := 0x1E00, rw := 0x3FFFF, w1c := 0x0, kind := .plain },
  { base := 0x100060214, s1 := 0x40, c1 := 4, s2 := 0x0, c2 := 1, rst := 0x1E00, rw := 0x0, w1c := 0x0, kind := .plain },
  { base := 0x100060118, s1 := 0x40, c1 := 4, s2 := 0x0, c2 := 1, rst := 0x0, rw := 0xFFFFFFFF, w1c := 0x0, kind := .plain },
  { base := 0x100060218, s1 := 0x40, c1 := 4, s2 := 0x0, c2 := 1, rst := 0x0, rw := 0x0, w1c := 0x0, kind := .plain },
  { base := 0x10006011C, s1 := 0x40, c1 := 4, s2 := 0x0, c2 := 1, rst := 0x0, rw := 0xFF, w1c := 0x0, kind := .plain },
  { base := 0x10006021C, s1 := 0x40, c1 := 4, s2 := 0x0, c2 := 1, rst := 0x0, rw := 0x0, w1c := 0x0, kind := .plain },
  { base := 0x100060120, s1 := 0x40, c1 := 4, s2 := 0x0, c2 := 1, rst := 0x0, rw := 0xFFFFFFFF, w1c := 0x0, kind := .plain },
  { base := 0x100060220, s1 := 0x40, c1 := 4, s2 := 0x0, c2 := 1, rst := 0x0, rw := 0x0, w1c := 0x0, kind := .plain },
  { base := 0x100060124, s1 := 0x40, c1 := 4, s2 := 0x0, c2 := 1, rst := 0x0, rw := 0xFF, w1c := 0x0, kind := .plain },
  { base := 0x100060224, s1 := 0x40, c1 := 4, s2 := 0x0, c2 := 1, rst := 0x0, rw := 0x0, w1c := 0x0, kind := .plain },
  { base := 0x100060300, s1 := 0x4, c1 := 4, s2 := 0x0, c2 := 1, rst := 0x0, rw := 0x0, w1c := 0x0, kind := .hostCounter },
  { base := 0x100070000, s1 := 0x0, c1 := 1, s2 := 0x0, c2 := 1, rst := 0x0, rw := 0xFFFFFFFF, w1c := 0x0, kind := .plain },
  { base := 0x100070004, s1 := 0x0, c1 := 1, s2 := 0x0, c2 := 1, rst := 0x0, rw := 0xFF, w1c := 0x0, kind := .plain },
  { base := 0x100070010, s1 := 0x0, c1 := 1, s2 := 0x0, c2 := 1, rst := 0x0, rw := 0x0, w1c := 0x0, kind := .plain },
  { base := 0x100070014, s1 := 0x0, c1 := 1, s2 := 0x0, c2 := 1, rst := 0x0, rw := 0x0, w1c := 0x80000000, kind := .plain },
  { base := 0x100070100, s1 := 0x8, c1 := 19, s2 := 0x0, c2 := 1, rst := 0x0, rw := 0x0, w1c := 0x0, kind := .hostCounter }]

/-- Rows of the register tables, part 7. -/
def regRows6 : List RegRow := [
  { base := 0x100070104, s1 := 0x8, c1 := 19, s2 := 0x0, c2 := 1, rst := 0x0, rw := 0x0, w1c := 0x0, kind := .hostCounter },
  { base := 0x100071000, s1 := 0x0, c1 := 1, s2 := 0x0, c2 := 1, rst := 0x0, rw := 0x0, w1c := 0x0, kind := .hostCounter },
  { base := 0x100071004, s1 := 0x0, c1 := 1, s2 := 0x0, c2 := 1, rst := 0x0, rw := 0x0, w1c := 0x0, kind := .hostCounter },
  { base := 0x100071008, s1 := 0x0, c1 := 1, s2 := 0x0, c2 := 1, rst := 0x0, rw := 0x0, w1c := 0x0, kind := .hostCounter },
  { base := 0x10007100C, s1 := 0x0, c1 := 1, s2 := 0x0, c2 := 1, rst := 0x0, rw := 0x0, w1c := 0x0, kind := .hostCounter },
  { base := 0x100071010, s1 := 0x0, c1 := 1, s2 := 0x0, c2 := 1, rst := 0x0, rw := 0x0, w1c := 0x0, kind := .hostCounter },
  { base := 0x100071014, s1 := 0x0, c1 := 1, s2 := 0x0, c2 := 1, rst := 0x0, rw := 0x0, w1c := 0x0, kind := .hostCounter },
  { base := 0x100071018, s1 := 0x0, c1 := 1, s2 := 0x0, c2 := 1, rst := 0x0, rw := 0x0, w1c := 0x0, kind := .hostCounter },
  { base := 0x10007101C, s1 := 0x0, c1 := 1, s2 := 0x0, c2 := 1, rst := 0x0, rw := 0x0, w1c := 0x0, kind := .hostCounter },
  { base := 0x100071020, s1 := 0x0, c1 := 1, s2 := 0x0, c2 := 1, rst := 0x0, rw := 0x0, w1c := 0x0, kind := .plain },
  { base := 0x100071024, s1 := 0x0, c1 := 1, s2 := 0x0, c2 := 1, rst := 0x0, rw := 0x0, w1c := 0x0, kind := .plain },
  { base := 0x100071028, s1 := 0x0, c1 := 1, s2 := 0x0, c2 := 1, rst := 0x0, rw := 0x0, w1c := 0x0, kind := .plain },
  { base := 0x10007102C, s1 := 0x0, c1 := 1, s2 := 0x0, c2 := 1, rst := 0x0, rw := 0x0, w1c := 0x80000000, kind := .plain },
  { base := 0x100090084, s1 := 0x0, c1 := 1, s2 := 0x0, c2 := 1, rst := 0x0, rw := 0x0, w1c := 0x0, kind := .plain }]

/-- All rows, in the order in which an address is looked up. -/
def regRows : List RegRow := regRows0 ++ regRows1 ++ regRows2 ++ regRows3 ++ regRows4 ++ regRows5 ++ regRows6

/-- The row of an address, if it is a stored register. -/
def regRow (a : Nat) : Option RegRow := regRows.find? (fun r => r.has a)

/-- Index k of an address in a Churn look-up table, if it lies in one (10, `CHURN_LUT`). -/
def churnLutIndex (a : Nat) : Option Nat :=
  if 0x500000 ≤ a ∧ a < 0x600000 then
    let o := (a - 0x500000) % 0x20000
    if 0x1000 ≤ o ∧ o < 0x2000 ∧ o % 4 = 0 then some ((o - 0x1000) / 4) else none
  else none

/-- The reset value of a stored register; a reserved address reads 0 (R12). `CHURN_LUTk` resets to k. -/
def resetVal (a : Nat) : W32 :=
  match churnLutIndex a with
  | some k => BitVec.ofNat 32 k
  | none => match regRow a with
    | some r => BitVec.ofNat 32 r.rst
    | none => 0

/-- The bits of a stored register that a write changes. -/
def writeMask (a : Nat) : W32 :=
  match churnLutIndex a with
  | some _ => 0x3FF
  | none => match regRow a with
    | some r => BitVec.ofNat 32 r.rw
    | none => 0

/-- The write-1-to-clear bits of a stored register (R11). -/
def w1cMask (a : Nat) : W32 :=
  match regRow a with
  | some r => BitVec.ofNat 32 r.w1c
  | none => 0

/-- Whether a stored register is a counter that a staged 0 clears, or that any host write clears. -/
def regKind (a : Nat) : RegKind :=
  match regRow a with
  | some r => r.kind
  | none => .plain

/-- Addresses of blocks absent on the SLW-9620 (R2, R3): inputs 4 to 7 in every region that has one block per input. -/
def absent9620 (a : Nat) : Bool :=
  (decide (0x140000 ≤ a) && decide (a < 0x180000)) || (decide (0x240000 ≤ a) && decide (a < 0x280000)) ||
  (decide (0x400400 ≤ a) && decide (a < 0x400800)) || (decide (0x580000 ≤ a) && decide (a < 0x600000)) ||
  a == 0x4010 || a == 0xC02C

end Sys2Proof.Machine
end

