-- ==== Sys2Proof/Syntax.lean ====
section
/-! DEFINITION. The commands of the block: one constructor per row of spec/opcode_table.json, in the table's order of
groups. Core numbers, register numbers, channel numbers and the like are bounded by their types; what an encoding
can hold and the spec reserves is checked in WellFormed. -/

namespace Sys2Proof

/-- The commands (the rows of the opcode table). -/
inductive Instr where
  -- Ashlar arithmetic and logic (R319): core, destination, sources
  | add (q : Fin 16) (gd ga gb : Fin 32)
  | addc (q : Fin 16) (gd ga gb : Fin 32)
  | sub (q : Fin 16) (gd ga gb : Fin 32)
  | subc (q : Fin 16) (gd ga gb : Fin 32)
  | and (q : Fin 16) (gd ga gb : Fin 32)
  | or (q : Fin 16) (gd ga gb : Fin 32)
  | xor (q : Fin 16) (gd ga gb : Fin 32)
  | shl (q : Fin 16) (gd ga gb : Fin 32)
  | shr (q : Fin 16) (gd ga gb : Fin 32)
  | sar (q : Fin 16) (gd ga gb : Fin 32)
  | mul (q : Fin 16) (gd ga gb : Fin 32)
  | mulhu (q : Fin 16) (gd ga gb : Fin 32)
  | cmp (q : Fin 16) (ga gb : Fin 32)
  | tst (q : Fin 16) (ga gb : Fin 32)
  | addi (q : Fin 16) (gd ga : Fin 32) (imm : BitVec 15)
  | andi (q : Fin 16) (gd ga : Fin 32) (imm : BitVec 15)
  | ori (q : Fin 16) (gd ga : Fin 32) (imm : BitVec 15)
  | xori (q : Fin 16) (gd ga : Fin 32) (imm : BitVec 15)
  | shli (q : Fin 16) (gd ga : Fin 32) (imm : BitVec 15)
  | shri (q : Fin 16) (gd ga : Fin 32) (imm : BitVec 15)
  | sari (q : Fin 16) (gd ga : Fin 32) (imm : BitVec 15)
  | cmpi (q : Fin 16) (ga : Fin 32) (imm : BitVec 15)
  | li (q : Fin 16) (gd : Fin 32) (imm32 : W32)
  -- loads, stores, twins (R320, R321)
  | ldw (q : Fin 16) (gd ga : Fin 32) (imm : BitVec 15)
  | ldb (q : Fin 16) (gd ga : Fin 32) (imm : BitVec 15)
  | stw (q : Fin 16) (gd ga : Fin 32) (imm : BitVec 15)
  | stb (q : Fin 16) (gd ga : Fin 32) (imm : BitVec 15)
  | ldtw (q : Fin 16) (gd ga : Fin 32) (w : BitVec 4)
  | sttw (q : Fin 16) (gd ga : Fin 32) (w : BitVec 4)
  -- flow of control (R322, R323)
  | bCond (q : Fin 16) (cond : BitVec 4) (off : BitVec 13)
  | call (q : Fin 16) (off : BitVec 13)
  | ret (q : Fin 16)
  | loop (q : Fin 16) (ga : Fin 32) (off : BitVec 13)
  | jr (q : Fin 16) (ga : Fin 32)
  | halt (q : Fin 16)
  | nop (q : Fin 16)
  -- DCS access and commits (R324)
  | dwr (q : Fin 16) (gd ga : Fin 32) (imm : BitVec 15)
  | dwri (q : Fin 16) (ga : Fin 32) (imm : BitVec 15) (imm32 : W32)
  | drd (q : Fin 16) (gd ga : Fin 32) (imm : BitVec 15)
  | commit (q : Fin 16) (gd ga : Fin 32) (discard : Bool)
  | commitev (q : Fin 16) (gd ga : Fin 32) (src : BitVec 8)
  | cwait (q : Fin 16) (gd ga : Fin 32)
  | synczZero (q : Fin 16)
  | synczOffset (q : Fin 16) (ga : Fin 32)
  -- time and events (R327 to R330)
  | tick (q : Fin 16) (gd : Fin 32)
  | wait (q : Fin 16) (gd : Fin 32) (src : BitVec 8) (gb : Fin 32)
  | waitt (q : Fin 16) (ga : Fin 32)
  | sig (q : Fin 16) (n : BitVec 4)
  -- permits, mailboxes, semaphores (R331 to R336)
  | permit (q : Fin 16) (gd ga gb : Fin 32) (kind : BitVec 4)
  | release (q : Fin 16) (kind : BitVec 4)
  | mbxSend (q : Fin 16) (gd : Fin 32) (n : BitVec 4) (try_ : Bool)
  | mbxReceive (q : Fin 16) (gd ga : Fin 32) (try_ : Bool)
  | mbxMgtSend (q : Fin 16) (gd : Fin 32) (n : BitVec 4) (try_ : Bool)
  | mbxMgtReceive (q : Fin 16) (gd ga : Fin 32) (try_ : Bool)
  | semtake (q : Fin 16) (n : BitVec 4)
  | semtry (q : Fin 16) (n : BitVec 4)
  | semgive (q : Fin 16) (n : BitVec 4)
  -- core events
  | drdComplete (q : Fin 16)
  | drdTimeout (q : Fin 16)
  | waitOccurrence (q : Fin 16)
  | waitTimeout (q : Fin 16)
  | waittReached (q : Fin 16)
  | mbxWaitDone (q : Fin 16)
  | commitSlotFree (q : Fin 16)
  | groupTransferEnd (q : Fin 16)
  | commitApply
  | commitevTriggered (q : Fin 16) (ticket : W32)
  | evExpired (q : Fin 16) (ticket : W32)
  -- host control of the cores: w is the word the host writes to SEQ_CTRL
  | seqStart (q : Fin 16) (w : W32)
  | seqResume (q : Fin 16) (w : W32)
  | seqHaltReq (q : Fin 16) (w : W32)
  | seqStep (q : Fin 16) (w : W32)
  | coreReset (q : Fin 16) (w : W32)
  | seqHaltDone (q : Fin 16)
  | seqGroupStart (cores : BitVec 16)
  | seqSemForce (sems : BitVec 16)
  | seqCommitCancel (q : Fin 16)
  | seqH2cPost (q : Fin 16) (w : W32)
  | seqC2hAck (q : Fin 16)
  | hostImemWrite (q : Fin 16) (off : BitVec 16) (w : W32)
  | registerWrite (addr : W32) (w : W32)
  -- time base, PTM, Nodric (03)
  | refLost
  | refAcquire
  | refLocked
  | ksWrap
  | ptmNow
  | ptmAutoDialog
  | ptmDialogDone (ok : Bool) (master : W64) (ticks : W64)
  | nodTrainingDone (lane : Bool)
  | nodMeasureDone (lane : Bool) (roundTrip upLat : W32) (upFollower : Bool) (id hops : BitVec 3) (eighth : Bool)
  | nodLoadSend (lane : Bool) (known : BitVec 3) (lat : W32) (b : W64)
  | nodLoad (ahead : W32) (count : W64) (crc : BitVec 3)
  | nodAlign
  | nodZero (isZero : Bool) (o : W32) (b : W64) (crc : BitVec 3)
  | nodZeroBoundary
  | nodArmMark (arm : Bool) (code : BitVec 8) (programs : BitVec 4) (b : W64) (crc : BitVec 3)
  | nodRate (count : W64) (upUnlocked : Bool) (crc : BitVec 3)
  | nodRateSend
  | nodTrigRx (lane : Bool) (origin hops : BitVec 3) (prog : Fin 4) (ticks : W64) (word2 : W32) (crcOk : Bool)
  | nodLinkDown (lane : Bool)
  -- converters (04): limit code of input n at count t; lane error of a slice in the vector now
  | convOvr (n : Fin 8) (hi : Bool) (t : W64)
  | laneError (slice : Fin 24) (t : W64)
  | sliceFault (slice : Fin 24)
  | settleEnd (n : Fin 8)
  | sliceRejoin (slice : Fin 24)
  -- live calibration (05): what the slices deliver is an operand (log 7): the window's pairs of raw codes, incoming then outgoing;
  -- the count and sums of a skew estimate, in words; a reference measurement in table units; new tables that fail their check
  | shadowWindowOpen (n : Fin 8)
  | calRotation (n : Fin 8) (pairs : List (BitVec 12 × BitVec 12)) (bad : BitVec 24)
  | skewEstimateDone (slice : Fin 24) (count : W32) (dot sq : W64)
  | refMeasureStart (slice : Fin 24)
  | refMeasureDone (slice : Fin 24) (off gain tone : W32)
  | tableTwinCheck (slice : Fin 24) (flip prevFlip : W32)
  | forcedWindowOpen (n : Fin 8)
  | rotateNowDenied (n : Fin 8)
  | fgCalStepDone (vals : List W32) (bad : BitVec 6)
  -- channel processing (06): raw codes of the signal that reach the vector at count t, or the detector's block with its device's M and P
  | chSat (n : Fin 8) (t : W64) (x : Samples)
  | toneBlockDeliver (n : Fin 8) (x : Samples) (mag : W64) (phase : BitVec 16)
  -- trigger (07): a sample of the watched stream at count t, from the raw codes around it
  | tcFire (c : Fin 16) (t : W64) (x : Samples)
  | tcTimeoutExpire (c : Fin 16) (t : W64)
  | tcWindowWaitExpire (c : Fin 16) (t : W64)
  | tpSeqWindowEnd (p : Fin 4)
  | trigoutEdge (m : Fin 4)
  | trigoutPulseEnd (m : Fin 4)
  -- interval timer (08): the edge's CK_TDC count, tap count, direction, and time at its new level in 100 ps; `flip` values
  -- are upsets of stored twins (log 7)
  | tiEdge (k : Fin 10) (tclk : W64) (tap : Fin 512) (falling : Bool) (held : BitVec 8) (flip prevFlip : W32)
  | tiBlindEnd (k : Fin 10)
  | tmrItemProcess (flip : W32) (held : BitVec 7)
  | tmrWindowEnd (flip : W32)
  | tmrCalCountDone (k : Fin 10) (hits : List W32)
  | tmrCalUnitReturn (k : Fin 10)
  | tmrCalUnitSkip (k : Fin 10)
  | tmrFifoRead (q : Fin 16)
  -- record (09): the outputs of the chunk that are issued, and the raw codes around them; `full`: the writer's buffer is full (log 7)
  | recChunkWrite (n : Fin 8) (full : Bool) (outs : BitVec 6) (x : Samples)
  | recEnd (n : Fin 8) (full : Bool) (x : Samples)
  | dirInitDone (p : Fin 4)
  | dirEntryWrite (p : Fin 4)
  | dirSeal (p : Fin 4)
  -- Churn (10): the raw codes around the waveform; array errors seen by an operation (log 7):
  -- corrected ones, and a word of column c, rows 4r to 4r + 3, in a macro
  | churnFreeOffer (n : Fin 8)
  | churnAutoTimeout (n : Fin 8)
  | churnWfmComplete (n : Fin 8) (x : Samples)
  | churnEngineStart (n : Fin 8)
  | churnOpEnd (n : Fin 8) (corrected : W32) (bad : Option (BitVec 12 × Fin 2048 × Fin 256))
  | churnDecayTimer (n : Fin 8)
  | churnSnapPeriod (n : Fin 8)
  | churnSnapEvent (n : Fin 8)
  | churnBandRead (n : Fin 8)
  | churnSnapPublish (n : Fin 8)
  -- permits (11)
  | ballastStepUp
  | permitGrantDirect
  | ballastStepDown
  | permitDenied (req : Fin 64) (kind : BitVec 4)
  | loadFall
  | permitForce (cores : BitVec 16)
  -- memory controller and integrity (14, 15): port, engine (stack x 32 + channel x 2 + pseudo-channel) and channel numbers;
  -- what the stack returns is an operand (log 7): 0 clean, 1 corrected, 2 parity error, 3 uncorrectable
  | memLinePresent (p : Fin 19) (write : Bool) (dpa : BitVec 40) (mask : W64) (data : BitVec 512)
  | memLineAccept (e : Fin 64) (write : Bool)
  | memReadReturn (e : Fin 64) (out : Fin 4)
  | memMapDrainDone
  | memMapTwinCheck (w : Fin 20) (flip : W32)
  | memXlate (aselm : Bool) (addr : W32)
  | memAerr (c : Fin 32)
  | memReplayAttemptEnd (c : Fin 32) (dur : BitVec 9)
  | memUnfenceDone (c : Fin 32) (ok : Bool)
  | memDerr (e : Fin 64) (i : Fin 32)
  | memRowDisturb (e : Fin 64) (sid : Fin 3) (bank : Fin 16) (row : BitVec 14)
  | memRdPenaltyEnd (p : Fin 19)
  | memRdWindow (st : Fin 2)
  | memTempRead (st : Fin 2) (temp : BitVec 8)
  | memRefreshDue (e : Fin 64) (bank : Fin 16)
  | memSrEntry (c : Fin 32)
  | memSrExitDone (c : Fin 32) (dt : BitVec 16)
  | memRateDone (st : Fin 2)
  | memCommandIssue (e : Fin 64) (rd : Fin 4)
  -- host link and taps (16): functions 0 (PF) to 63; what memory returns is an operand (log 7)
  | perstAssert
  | perstRelease
  | configReady
  | configRequest (f : Fin 64) (r : ConfigReg) (write : Bool) (w : W32)
  | hostLinkUp (lanes : Fin 5) (rate : Fin 6)
  | pfFlr
  | vfFlr (v : Fin 64)
  | flrDone (f : Fin 64) (dt : W32)
  | vfEnableClear
  | busMasterChange (f : Fin 64) (bme d3 : Bool)
  | aerError (correctable : Bool) (k : Fin 32)
  | bar2Access (off : BitVec 36) (wr : Option (List Byte)) (n : BitVec 13) (outs : List (Fin 4))
  | tapCtxRead (f : Fin 64)
  | tapCtxWrite (f : Fin 64)
  | tapEnable (f : Fin 64)
  | tapDisable (f : Fin 64)
  | tapAbort (f : Fin 64)
  | tapStopDone (t : BitVec 12)
  | tapDoorbell (f : Fin 64) (t : BitVec 12) (w : W32)
  | tapOwnerWrite (t : BitVec 12) (w : Byte)
  | tapSegmentTake (t : BitVec 12)
  | tapChurnTake (t : BitVec 12)
  | tapLineReturn (t : BitVec 12) (out : Fin 4)
  | tapRecordDone (t : BitVec 12)
  | tapItemDone (t : BitVec 12)
  | tapStreamFlush (t : BitVec 12) (first : W64)
  | tapLineTimeout (t : BitVec 12)
  | tapIrqTime (t : BitVec 12)
  | aspmL1 (enter : Bool)
  -- bulk DMA (17): the host's DMA_CMD or a core's DSTART (R333); what host memory and the stacks return are operands (log 7):
  -- 0 clean, 1 corrected, 2 parity, 3 uncorrectable, 4 EP, 5 Unsupported Request, 6 Completer Abort
  | dmaGo (src : DmaSource) (c : Fin 32)
  | dmaResume (src : DmaSource) (c : Fin 32)
  | dmaSkip (src : DmaSource) (c : Fin 32)
  | dmaAbort (src : DmaSource) (c : Fin 32)
  | dmaDoorbell (c : Fin 32) (w : W32)
  | dmaOwnerWrite (w : W32)
  | dmaSetLoadDone (c : Fin 32) (out : Fin 7) (words : List W32)
  | dmaBurstReturn (c : Fin 32) (i : Fin 16) (outs : List (Fin 7)) (data : List Byte)
  | dmaBurstTimeout (c : Fin 32) (i : Fin 16)
  | dmaSetComplete (c : Fin 32)
  | dmaFenceDone (c : Fin 32)
  | dmaStopDone (c : Fin 32)
  -- display (18): what memory returns for each line read, and what the sink reports, are operands (log 7)
  | dspEnable (on : Bool)
  | dspFrameStart
  | dspFlipReq (bits : BitVec 5)
  | dspFlipCancel (bits : BitVec 5)
  | dspModeApply
  | dspLineFetch (l : Fin 4) (outs : List (Fin 4))
  | dspLayerFault (l : Fin 4) (underrun : Bool) (line : BitVec 12)
  | dspFlipDone
  | hpdConnect
  | hpdDisconnect
  | irqHpd (lostLock : Bool)
  -- sensor converter (19): the code of a conversion before the clamp of R466, and whether fewer than 2 buffer entries are free
  -- (log 7)
  | sensConvEnd (v : W32) (full : Bool)
  | sensResultWrite
  | sensStartEvent (full : Bool)
  | sensPowerDown
  | sensStartupDone (full : Bool)
  | sensMgtInject (source : BitVec 6) (gainExp : Fin 8) (samp : BitVec 11)
  | sensInjResult
  | sensMemWaitEnd (cycles : BitVec 16)
  | excRampDone (k : Fin 4)
  | excLimit (k : Fin 4)
  | excLimitEnd (k : Fin 4)
  -- management (20): what calibrations, self-tests, cryptography, sinks, sensors and the flash give are operands (log 7)
  | getInfo
  | sensorRead
  | cairnCopy
  | lifetimeCopy
  | settingsGet
  | settingsSet (flash : Bool)
  | fgCal
  | tableInstall (bad : BitVec 24)
  | tmrCal
  | eyeSweep
  | memSelftest
  | seqSelftest (pass : BitVec 16)
  | dpTrain (lanes rate : Fin 4) (pass : Bool)
  | updBegin (flash : Bool)
  | updChunk (flash : Bool)
  | updVerify (kwador cosign gcm flash : Bool)
  | updActivate (flash : Bool)
  | updConfirm (flash : Bool)
  | updRevert (flash : Bool)
  | cosignFuse
  | cosignFuseTail
  | badCmd
  | eyeSweepStepStart
  | eyeSweepStepEnd (dt : BitVec 20) (found : List (Fin 19 × BitVec 7 × BitVec 7)) (end_ : Option (W64 × List Byte))
  | memSelftestDone (pass : W64) (e : Fin 64) (bank : BitVec 4) (cell : BitVec 16) (lane : Option (BitVec 8))
  -- the boot ROM finds in each slot an image that passes its checks, with version, epoch and schema, or none; whether the image
  -- reads the stored settings; whether the flash serves
  | bootRom (a b : Option (W32 × BitVec 5 × BitVec 16)) (reads flash : Bool)
  | thermSample (temps : List (BitVec 16))
  | smbSensorSelect (id pec : Byte)
  -- modes, power-up, resets (21)
  | modeHostPost (w : W32)
  | modeConverterEntry
  | modeConverterSwitch
  | modeConverterExit
  | modeDenied
  | retainEntry
  | retainExit
  | porRelease
  | porAssert
  | vddAonLow
  -- event fabric (22)
  | evtCoalTimeout (src : Fin 256)
  | evtMsixSend
  | evtMaskWrite (k : Fin 8) (w : W32)
  | wake
  -- boundary scan (23): the cells captured from the balls (log 7) and the cells shifted in, from TDI to TDO
  | jtagExtest (capture load : BitVec 127)
  | jtagSamplePreload (capture load : BitVec 127)
  | jtagIdcode
  | jtagHighz
  | jtagClamp
  | jtagExtestPulse (capture load : BitVec 127)
  | jtagExtestTrain (capture load : BitVec 127)
  | jtagBypass (code : BitVec 8)
  | testLogicReset
  | vddAonRestore
  | nodLinkReturn (lane : Bool)
  | fgCalInstall
  | trigDecision
  | tmrCalGrant
  | tmrCalDenied
  | mgtAnsAck
  | mgtRestartReq
  | mgtWatchdog
  | mgtReady
  | supplyCheck
  | lifeSecond
  | lifeSave
  | cairnDrain
  | cairnOvf
  | confirmWindowExpiry
  | autoConfirm
  | smbStatus
  | smbTemperature
  | smbSensorRead
  | smbVersions
  | smbLife
  | smbCairnIndex
  | smbAlertCauses
  | smbAlertResponse
  | fgCalPermitDenied
  deriving DecidableEq, Repr

end Sys2Proof
end

