-- ==== Sys2Proof/Machine/State.lean ====
section
/-! DEFINITION. The state of the block as plain data: every register, buffer, queue, counter and mode that the chapters
give it, and the queue of waiting commands. Registers that are plain stored words stand in `State.regs`, a sparse table
with the reset values of Regs.lean; every other piece stands in the structure of its block. Times are elapsed ticks
(log entry 1). -/

namespace Sys2Proof.Machine

/-- Stops of the model that are faults. No meaning raises one: a program's fault halts its core as a next state (R66). -/
inductive Fault where
  /-- Raised by no meaning; kept so that the type names a reason. Safe. -/
  | unused
  deriving DecidableEq, Repr

/-- Stops of the model that are refusals. -/
inductive Refusal where
  /-- Raised by `exec` for a command that has no meaning yet, by the row's mnemonic. Safe. -/
  | notModelled (mnemonic : String)
  deriving DecidableEq, Repr

/-! ### Sequencer cores (02_programming_model.md) -/

/-- `SEQ_STATUS.state` (02 R61). -/
inductive RunState where
  | halted | running | blocked | faulted | halting
  deriving DecidableEq, Repr

/-- A staged write of an open group (R49): a register write, or a Keystone action (R57), which counts as one. -/
inductive Staged where
  | reg (addr : Nat) (val : W32)
  | zero
  | offset (o : W32)
  deriving DecidableEq, Repr

/-- How a group was closed: COMMIT names a tick and a late policy (R52, R53), COMMITEV a source and a deadline
(R54). -/
inductive GroupCond where
  | tick (k : Nat) (discard : Bool)
  | event (src : Nat) (deadline : Nat)
  deriving DecidableEq, Repr

/-- A group held by a core: transferring or armed (02, "Commit groups"). Times are elapsed ticks. -/
structure Group where
  ticket : W32
  writes : List Staged
  cond : GroupCond
  /-- End of the transfer (R51). -/
  tEnd : Nat
  /-- Earliest boundary (R51, R97). -/
  bMin : Nat
  /-- The boundary at which the group falls due, when one is known (R52, R54, R57). -/
  due : Option Nat
  /-- The boundary at which an event group without an occurrence expires (R54). -/
  expire : Option Nat
  /-- The group falls due late (R53, R57). -/
  late : Bool
  /-- The first occurrence of the named source at or after `bMin` (R54). -/
  seen : Option Nat
  armed : Bool
  deriving DecidableEq, Repr

/-- An outstanding DCS read (R48, R325). -/
structure Drd where
  gd : Nat
  addr : Nat
  issued : Nat
  due : Nat
  pc : W32
  /-- The value, once the read has reached its register. -/
  val : Option W32
  deriving DecidableEq, Repr

/-- The waiting instruction of a BLOCKED core (R40), with the elapsed edge at which it began where it counts,
and for a WAIT the elapsed tick of its occurrence and the low word of the count there (R328). -/
inductive Waiting where
  | wait (gd src start tmo : Nat) (seen : Option (Nat × W32))
  | waitt (k due : Nat) (missed : Bool)
  | slot (gd : Nat) (cond : GroupCond)
  | drd (gd addr : Nat)
  | cwait (gd : Nat) (ticket : W32)
  | semtake (n : Nat)
  | permit (gd kind : Nat) (deadline : Option Nat)
  | mbxSend (gd n : Nat)
  | mbxRecv (gd ga : Nat)
  | mgtRecv (gd ga : Nat)
  deriving DecidableEq, Repr

/-- One sequencer core (R39) and its host registers (02, "Host control of the cores"). -/
structure Core where
  /-- g0 to g31; g0 is never written and reads 0 (R39). -/
  g : Vector W32 32
  fz : Bool
  fn : Bool
  fc : Bool
  fv : Bool
  /-- The next instruction's word address; a value above 4,095 faults PC_RANGE when it is fetched (R322). -/
  pc : W32
  /-- Return stack, newest first, at most 16. -/
  stack : List W32
  run : RunState
  waiting : Option Waiting
  /-- Elapsed tick at which the waiting instruction's condition was met (R316). -/
  met : Option Nat
  /-- The core executes one instruction under SEQ_CTRL.step and then halts (R61). -/
  stepping : Bool
  /-- Elapsed tick of the CK_CTL edge at which the next instruction can begin (R316). -/
  edge : Nat
  openGrp : List Staged
  groups : List Group
  /-- Elapsed tick at which the last transfer ends (R51). -/
  xferEnd : Nat
  ticket : W32
  /-- The 16 most recently completed groups, newest first: ticket and status word (R58). -/
  done : List (W32 × W32)
  drds : List Drd
  cause : W32
  info : W32
  drdTimeout : W32
  hostWrErr : Bool
  waitTrap : Bool
  startPc : BitVec 12
  h2c : Vector W32 8
  h2cCount : Nat
  h2cFull : Bool
  h2cErr : Bool
  c2h : Vector W32 8
  c2hCount : Nat
  c2hFull : Bool
  imem : List Host.Cell
  dmem : List Host.Cell
  deriving DecidableEq, Repr

/-- A core at cold reset (R62, SEQ_* field cards; IMEM and DMEM contents: log entry 4). -/
def Core.reset : Core where
  g := Vector.replicate 32 0
  fz := false
  fn := false
  fc := false
  fv := false
  pc := 0
  stack := []
  run := .halted
  waiting := none
  met := none
  stepping := false
  edge := 0
  openGrp := []
  groups := []
  xferEnd := 0
  ticket := 0
  done := []
  drds := []
  cause := 0
  info := 0
  drdTimeout := 0x4000
  hostWrErr := false
  waitTrap := false
  startPc := 0
  h2c := Vector.replicate 8 0
  h2cCount := 0
  h2cFull := false
  h2cErr := false
  c2h := Vector.replicate 8 0
  c2hCount := 0
  c2hFull := false
  imem := []
  dmem := []

/-- A hardware semaphore (R43): its owner, its last owner, and the cores that wait; for one that an instruction has taken while it
was free, the elapsed edge at which that began, the owner before, and whether it was a SEMTRY. -/
structure Sem where
  owner : Option Nat
  last : Nat
  waiters : List Nat
  took : Option Nat
  prev : Nat
  tried : Bool
  deriving DecidableEq, Repr

/-- A semaphore at cold reset counts as last owned by Q15 (R43). -/
def Sem.reset : Sem := { owner := none, last := 15, waiters := [], took := none, prev := 15, tried := false }

/-- A latched register word of one reader (R22): cores 0 to 15, the host 16, Aselm 17. -/
structure Latch where
  reader : Nat
  addr : Nat
  val : W32
  deriving DecidableEq, Repr

/-- An access to SMEM that the arbiter has not served whole (R42): its requester (cores 0 to 15, host window 16), the bytes of SMEM
from `lo` to below `hi`, whether it stores, the tick at which it began, its words, those not yet served, and the cycles of wait
that its instruction has been charged; of a store, its bytes; of a load, the registers from `gd` on that it writes; and the bytes that
SMEM held before the stores that wait. -/
structure SmemJob where
  req : Nat
  lo : Nat
  hi : Nat
  store : Bool
  start : Nat
  words : Nat
  left : Nat
  waited : Nat
  data : List Byte
  under : List Byte
  gd : Nat
  regs : Nat
  deriving DecidableEq, Repr

/-! ### Keystone, reference path, PTM and Nodric (03_time_base.md) -/

/-- The Keystone count (R68): count = base + elapsed ticks, modulo 2^64; held in RETAIN (R88). -/
structure Keystone where
  base : Nat
  held : Bool
  deriving DecidableEq, Repr

/-- Reference path states (R73), with the codes of `REF_STATUS.state`. -/
inductive RefState where
  | free | locked | holdover | acquiring | off
  deriving DecidableEq, Repr

/-- The reference path (R72 to R78). -/
structure RefPath where
  state : RefState
  present : Bool
  slip : Bool
  losses : Nat
  /-- Elapsed tick of the entry to HOLDOVER, and its last measured duration (REF_HOLDOVER). -/
  holdStart : Nat
  holdTicks : Nat
  /-- Source selected when LOCKED was last entered (R77). -/
  lockedSel : Option Nat
  /-- The source has changed since then (R77). -/
  changed : Bool
  /-- Elapsed tick at which the `unlocked` or `follower` mark of a KTS last changed, and both before it (R69, R70; the model's own
  record, for a KTS of a tick that has passed). -/
  lockTick : Nat
  lockWas : Bool
  alignWas : Bool
  deriving DecidableEq, Repr

/-- A TRIG message (R94): origin, hops, program, full KTS. -/
structure TrigMsg where
  origin : Nat
  hops : Nat
  prog : Nat
  ticks : W64
  word2 : W32
  deriving DecidableEq, Repr

/-- What the device has handed to a Nodric lane (R94). -/
inductive NodMsg where
  | zero (isZero : Bool) (o : W32) (b : Nat)
  | load (b count : Nat)
  | arm (op : Bool) (code progs : Nat) (b : Nat)
  | rate (count : Nat) (upUnlocked : Bool)
  | trig (m : TrigMsg)
  deriving DecidableEq, Repr

/-- A Keystone action that a mark named for a follower (R98), at an elapsed boundary. -/
structure NodAction where
  isZero : Bool
  o : W32
  /-- The boundary named, in the count before the action, and its elapsed tick. -/
  b : Nat
  at_ : Nat
  /-- The elapsed tick at which the follower applies it. -/
  due : Nat
  late : Bool
  deriving DecidableEq, Repr

/-- Nodric state (R91 to R100). -/
structure Nodric where
  /-- `NOD_STATUS.state`: 0 DOWN to 5 REFUSED. -/
  state : Nat
  id : Nat
  hops : Nat
  upUnlocked : Bool
  /-- Links of lanes 0 and 1 (R92): 0 down, 1 TRAINING, 2 MEASURING, 3 up. -/
  link0 : Nat
  link1 : Nat
  /-- On the root: the arm of each follower to which it has given an ID, by ID from 1 (R91); true: lane 1. -/
  ids : List Bool
  /-- On the root: latency, in ticks x 16, of each follower that is ALIGNED, by follower number. -/
  followers : List (Nat × Nat)
  /-- TRIG messages queued on each lane with the elapsed tick at which each leaves, at most 64 (R95). -/
  lane0 : List (Nat × TrigMsg)
  lane1 : List (Nat × TrigMsg)
  /-- A LOAD mark awaited at an elapsed boundary, with the root's count there (R92). -/
  pendingLoad : Option (Nat × Nat)
  pendingZero : List NodAction
  /-- The reference is awaited before MEASURING (R92 step 2). -/
  waitRef : Bool
  /-- Messages sent, newest first, with the lane (model's record of the outputs). -/
  sent : List (Nat × NodMsg)
  deriving DecidableEq, Repr

/-- PTM: whether a dialog runs, and the elapsed tick of the last automatic start (R89). -/
structure Ptm where
  dialog : Bool
  /-- PTM Enable in the configuration space (R89). -/
  cfgEnable : Bool
  lastAuto : Nat
  deriving DecidableEq, Repr

/-! ### Converters (04_converters.md) -/

/-- One converter slice. -/
structure Slice where
  powered : Bool
  faulted : Bool
  /-- Elapsed tick at which a power-up ends (R113). -/
  readyAt : Nat
  /-- Elapsed ticks of its lane errors, newest first, at most 16 (R119), and the lane of the newest (R105). -/
  errs : List Nat
  lane : Nat
  /-- Elapsed tick at which it entered its slot, or began to rest (R131). -/
  since : Nat
  /-- A readmitted slice joins at this elapsed tick (R120). -/
  joinAt : Option Nat
  /-- Its tables (R126), 12 words each: full scale 0 current and previous, then full scale 1. -/
  tables : List (List W32)
  /-- Both tables of a full scale failed: it stays faulted until an install (R128). -/
  tablesLost : Bool
  /-- A complete skew estimate not yet used, as a fraction in SKEW units (R136). -/
  skewEst : Option (Int × Int)
  /-- The reference sequence of this rest period (R137): 0 not started, 1 running, 2 done; and its elapsed start. -/
  refPhase : Nat
  refStart : Nat
  /-- The last ladder and tone measurement: offset, gain, tone, in table units; those of its last origin 2 table (offset
  and gain), and of the time it last left service (tone) (R138). -/
  meas : Option (Int × Int × Int)
  baseLadder : Option (Int × Int)
  baseTone : Option Int
  deriving DecidableEq, Repr

/-- An open shadow window (R132, R142): incoming and outgoing slice, and the elapsed rotation boundary at its end. -/
structure Shadow where
  inc : Nat
  out : Nat
  rot : Nat
  forced : Bool
  deriving DecidableEq, Repr

/-- What governs the samples that an input's signal takes from an elapsed boundary on (02 R46, 06 R154). -/
structure Era where
  since : Nat
  /-- The stream breaks there (06 R165): nothing before it belongs to the stream after it. -/
  brk : Bool
  /-- Ticks between samples (R109); 0: the signal delivers none. -/
  period : Nat
  /-- OFFSET, GAIN and SKEW of the slice in each slot (05 R126); none: the slot is empty (R119). -/
  slots : List (Option (W32 × W32 × W32))
  /-- `CH_CORR` and `CH_GAIN` (06 R155). -/
  corr : W32
  gain : W32
  /-- The FIR in force: coefficients from c[0], centre, shift, and whether it is in decimating form (06 R157, R158). -/
  coefs : List Int
  centre : Nat
  shift : Nat
  decim : Bool
  /-- The trigger cells and the detector take the FIR input (06 R159). -/
  tap : Bool
  /-- Decimation mode, ratio in use, and the label of the anchor (06 R168, R169). -/
  mode : Nat
  ratio : Nat
  anchor : Nat
  /-- `TONE_THR_HI` and `TONE_THR_LO` (06 R177). -/
  thrHi : Nat
  thrLo : Nat
  deriving DecidableEq, Repr

/-- One input and the signal it heads. -/
structure Input where
  /-- Slots 0 to k - 1 of the signal it heads; none: empty (R119). -/
  slots : List (Option Nat)
  /-- Elapsed start and end of the last settle window, and of those before it (R118). -/
  settleFrom : Nat
  settleEnd : Nat
  settles : List (Nat × Nat)
  /-- What has governed its samples, the latest first. -/
  eras : List Era
  /-- The signal is powered (R113). -/
  running : Bool
  /-- A settle window is open whose end has not been reported. -/
  settling : Bool
  /-- Elapsed tick of the next scheduled rotation (R129). -/
  next : Nat
  window : Option Shadow
  /-- `CAL_STATUS.rn_state`, and the elapsed end of the wait for its permit (R142). -/
  rn : Nat
  rnEnd : Nat
  deriving DecidableEq, Repr

/-- The converters: 24 slices, 8 inputs, and the flags of the vectors that carry one, keyed by
input + 8 x vector: bit 0 ovr_hi, bit 1 ovr_lo, bit 2 NBR (R114, R116, R118). -/
structure Converters where
  slices : Vector Slice 24
  inputs : Vector Input 8
  flags : List (Nat × Nat)
  deriving DecidableEq, Repr

/-- A table of R126 as twins: words 0 to 11. -/
def tableWords (off gain skew info lo hi : W32) : List W32 :=
  [off, ~~~ off, gain, ~~~ gain, skew, ~~~ skew, info, ~~~ info, lo, ~~~ lo, hi, ~~~ hi]

/-- The table that a slice holds before any install: no offset, gain 1.0, no skew (log entry 3). -/
def identityTable (fs : Nat) : List W32 := tableWords 0 0x40000 0 (BitVec.ofNat 32 (fs * 2 ^ 18)) 0 0

/-- A slice at cold reset: off, not faulted. -/
def Slice.reset : Slice :=
  { powered := false, faulted := false, readyAt := 0, errs := [], lane := 0, since := 0, joinAt := none,
    tables := [identityTable 0, identityTable 0, identityTable 1, identityTable 1], tablesLost := false, skewEst := none, refPhase := 0, refStart := 0,
    meas := none, baseLadder := none, baseTone := none }

/-- An input at cold reset: off, no signal. -/
def Input.reset : Input :=
  { slots := [], settleEnd := 0, running := false, settling := false, next := 0, window := none, rn := 0, rnEnd := 0, settleFrom := 0,
    settles := [], eras := [] }

/-! ### Foreground calibration (05_live_calibration.md) -/

/-- A foreground calibration (R144 to R148). -/
structure FgCal where
  /-- 0 none, 1 awaits its permit, 2 runs. -/
  phase : Nat
  mask : Nat
  save : Bool
  /-- Inputs still to be taken, the first under way; the step of it that runs, 0 for the self-check before the first. -/
  todo : List Nat
  step : Nat
  /-- Elapsed end of the wait or of the step that runs. -/
  due : Nat
  /-- Tables formed so far: slice, full scale, offset, gain, skew. -/
  formed : List (Nat × Nat × W32 × W32 × W32)
  /-- Default equaliser sets formed so far: input, and the coefficients of both full scales' three sets in order (R166). -/
  eqs : List (Nat × List W32)
  /-- Heads of the covered signals. -/
  heads : List Nat
  deriving DecidableEq, Repr

/-- No foreground calibration. -/
def FgCal.reset : FgCal := { phase := 0, mask := 0, save := false, todo := [], step := 0, due := 0, formed := [], eqs := [], heads := [] }

/-! ### Channel processing (06_channel_processing.md) -/

/-- A run of the tone detector from one anchor (R173, R174). -/
structure ToneRun where
  /-- Elapsed boundary of the anchor, and the number of the block that is delivered next. -/
  anchor : Nat
  block : Nat
  /-- Blocks that its stream completed before a new anchor or a break (R176); none: it goes on. -/
  stop : Option Nat
  /-- L, P and the sample period, `TONE_FREQ`, and `TONE_CTRL`. -/
  len : Nat
  pre : Nat
  period : Nat
  freq : W32
  ctrl : W32
  above : Bool
  deriving DecidableEq, Repr

/-- A channel datapath beside its registers. -/
structure Chan where
  /-- `CH_FIR_STATUS.active_wr` (R162). -/
  activeWr : Bool
  /-- Units of the load account handed over for the FIR of this input (R297). -/
  firHeld : Nat
  /-- Elapsed boundary of the decimator's anchor (R168). -/
  decAnchor : Nat
  /-- The tone detector while it runs; its earlier runs with blocks still to be delivered, oldest first; and whether a break left a
  block open (R176). -/
  tone : Option ToneRun
  toneDue : List ToneRun
  toneOpen : Bool
  mag : W64
  info : W32
  start : W64
  deriving DecidableEq, Repr

/-- A channel at cold reset (R179). -/
def Chan.reset : Chan :=
  { activeWr := false, firHeld := 0, decAnchor := 0, tone := none, toneDue := [], toneOpen := false, mag := 0, info := 0, start := 0 }

/-! ### Trigger (07_trigger.md). Times marked "fine" are elapsed ticks x 65,536. -/

/-- A KTS on its way: its fine time, and its tick words and word 2 as they will be read. -/
structure Kts where
  at_ : Nat
  ticks : W64
  word2 : W32
  deriving DecidableEq, Repr

/-- A fire of a cell, or a change of the state that programs see (R189, R192). -/
structure CellItem where
  cell : Nat
  fire : Bool
  kts : Kts
  deriving DecidableEq, Repr

/-- A trigger cell (R184, R186, R189). -/
structure TCell where
  /-- It has had its first value since its last start. -/
  started : Bool
  qU : Bool
  qLo : Bool
  rU : Bool
  fU : Bool
  rLo : Bool
  fLo : Bool
  /-- `above` of a TONE cell's last block. -/
  above : Bool
  /-- The last two samples, newest first: elapsed tick, word, flagged. -/
  prev : List (Nat × Int × Bool)
  /-- Open measurements of positive and negative kind, and the wait of a WINDOW: fine time, interpolated (wait: enter). -/
  openP : Option (Nat × Bool)
  openN : Option (Nat × Bool)
  wait : Option (Nat × Bool × Bool)
  deriving DecidableEq, Repr

/-- A candidate (R197, R198): program, KTS, elapsed evaluation tick. -/
structure Cand where
  prog : Nat
  kts : Kts
  tq : Nat
  deriving DecidableEq, Repr

/-- What falls at a decision tick (R201, R202): a final trigger, or the drop events of a vector. -/
inductive Decision where
  | final (tdec : Nat) (c : Cand)
  | drop (tdec src : Nat)
  deriving DecidableEq, Repr

/-- A trigger program (R198 to R201). -/
structure TProg where
  armed : Bool
  tA : Nat
  /-- The end t_A + W of a TIME window, fine, once it has passed (R583): only a fire at or before it still counts. -/
  ended : Option Nat
  n : Nat
  prevP : Bool
  /-- T_f, fine; none after a clear. -/
  tf : Option Nat
  d : Nat
  bucket : Nat
  bucketVec : Nat
  deriving DecidableEq, Repr

/-- The trigger block. -/
structure Trig where
  cells : Vector TCell 16
  progs : Vector TProg 4
  /-- Items of the evaluation tick under way (R196). -/
  tick : Nat
  items : List CellItem
  /-- Candidates not yet through holdoff and limits, and decisions to come, in order. -/
  cands : List Cand
  decisions : List Decision
  agg : Nat
  aggVec : Nat
  deriving DecidableEq, Repr

/-- A cell that has had no value. -/
def TCell.reset : TCell :=
  { started := false, qU := false, qLo := false, rU := false, fU := false, rLo := false, fLo := false, above := false,
    prev := [], openP := none, openN := none, wait := none }

/-- A program after a restart (R199). -/
def TProg.reset : TProg := { armed := false, tA := 0, ended := none, n := 0, prevP := true, tf := none, d := 0, bucket := 1600, bucketVec := 0 }

/-- The trigger block at reset (R208). -/
def Trig.reset : Trig where
  cells := Vector.replicate 16 TCell.reset
  progs := Vector.replicate 4 TProg.reset
  tick := 0
  items := []
  cands := []
  decisions := []
  agg := 2400
  aggVec := 0

/-! ### Interval timer (08_interval_timer.md) -/

/-- A front end (R211 to R219): tables are 512 pairs of a word and its stored complement; an empty list: not installed. -/
structure TUnit where
  cur : List (W32 × W32)
  prev : List (W32 × W32)
  /-- `TI_STATUSk.table`. -/
  use : Nat
  /-- Elapsed tick of the last reported edge. -/
  last : Option Nat
  /-- The blind time (R213), and the elapsed tick from which the unit reports again after a calibration (R218, R219). -/
  blindFrom : Nat
  blindEnd : Nat
  blind : Bool
  resumeAt : Nat
  /-- The comparator's output, and that of the glitch filter (R212). -/
  level : Bool
  out : Bool
  /-- `TI_CTRLk` and `TI_SKEWk` before their last change, for edges before its boundary (R213). -/
  prior : Option (Nat × W32 × W32)
  /-- Switched to the calibration oscillator; its count ends, or it returns, at `calDue` (R218). -/
  calibrating : Bool
  calCounted : Bool
  calDue : Nat
  deriving DecidableEq, Repr

/-- A unit at cold reset: the nominal table (R217). -/
def TUnit.reset : TUnit :=
  { cur := [], prev := [], use := 2, last := none, blindFrom := 0, blindEnd := 0, blind := false, resumeAt := 0, level := false, out := false, prior := none,
    calibrating := false, calCounted := false, calDue := 0 }

/-- What the timer processes (R220): an edge of a unit, a final trigger, or a program start. -/
inductive TItemKind where
  | edge (unit : Nat) (falling uncal : Bool)
  | trigger (p : Nat)
  | program
  deriving DecidableEq, Repr

/-- An item of the timer with its KTS. -/
structure TItem where
  kts : Kts
  kind : TItemKind
  deriving DecidableEq, Repr

/-- A calibration request (R218). -/
structure TmrCal where
  /-- 0 none, 1 awaits its permit, 2 runs. -/
  phase : Nat
  /-- `TMR_CAL_STATUS.result`. -/
  result : Nat
  units : Nat
  /-- Units not yet free. -/
  waiting : List Nat
  done : Nat
  failed : Nat
  /-- Elapsed end of the wait for the permit, or for units to become free. -/
  due : Nat
  /-- Requested by the mailbox. -/
  byMgt : Bool
  deriving DecidableEq, Repr

/-- The measurement logic (R220 to R229). -/
structure Timer where
  units : Vector TUnit 10
  items : List TItem
  /-- `TMR_STATUS.state`: 0 IDLE, 1 ARMED, 2 MEASURING. -/
  state : Nat
  n : Nat
  seq : Nat
  /-- The start: fine time, and its KTS as a twin of 6 words (R225). -/
  startAt : Nat
  startTwin : List W32
  early : Nat
  edgeDrop : Bool
  /-- The measurement's start source, destination and CONTINUOUS mode (R224). -/
  src : Nat
  dest : Nat
  again : Bool
  /-- Elapsed boundary at which the timer was armed: items before it start nothing (R222). -/
  armedAt : Nat
  /-- The words of registers before their changes, for items before them: boundary, register, word (R224). -/
  seen : List (Nat × Nat × W32)
  /-- Dropped edges that the measurement logic has not come to (R212, R227): fine time and unit. -/
  drops : List (Nat × Nat)
  fifo : List (List W32)
  cal : TmrCal
  deriving DecidableEq, Repr

/-- The timer at cold reset. -/
def Timer.reset : Timer where
  units := Vector.replicate 10 TUnit.reset
  items := []
  state := 0
  n := 0
  seq := 0
  startAt := 0
  startTwin := []
  early := 0
  edgeDrop := false
  src := 0
  dest := 0
  again := false
  armedAt := 0
  seen := []
  drops := []
  fifo := []
  cal := { phase := 0, result := 0, units := 0, waiting := [], done := 0, failed := 0, due := 0, byMgt := false }

/-! ### Record, directory and pins (09_record_and_segments.md). Labels are sample indices in elapsed ticks. -/

/-- One record as its outputs are laid out (R235, R239, R244). -/
structure RecRun where
  /-- Start count A0, and chunk size and outputs per chunk of its format. -/
  a0 : Nat
  cb : Nat
  q : Nat
  /-- Label of output 0, block length, sample period, decimation mode. -/
  label0 : Nat
  ratio : Nat
  ts : Nat
  mode : Nat
  /-- Outputs from which on the signal was powered up again, with the label of the first, newest first. -/
  resumed : List (Nat × Nat)
  /-- The label at which its stream stopped, where it ended with that (R171). -/
  stop : Option Nat
  deriving DecidableEq, Repr

/-- An ended record whose last chunks are still to be issued (R243): outputs it holds and outputs issued. -/
structure Closing where
  run : RecRun
  total : Nat
  issued : Nat
  deriving DecidableEq, Repr

/-- A ring (R234 to R244). -/
structure Ring where
  /-- `REC_STATUSn.state`: 0 IDLE, 1 RECORDING, 2 HALTED; and `halt_cause`. -/
  state : Nat
  haltCause : Nat
  records : Nat
  run : Option RecRun
  issued : Nat
  /-- Ended records, oldest first. -/
  closing : List Closing
  /-- Records before the present one, newest first: start count, end count, number, start tick. -/
  hist : List (Nat × Nat × Nat × Nat)
  /-- The write count W to which the writer has advanced or will have at its closing chunk. -/
  w : Nat
  /-- The last chunk dropped, by number, and the vectors for which a drop has been reported: those below (R258). -/
  gapChunk : Option Nat
  gapVec : Nat
  deriving DecidableEq, Repr

/-- A segment (R245 to R251) that the device still knows. -/
structure Seg where
  seq : Nat
  kts : List W32
  run : RecRun
  inputs : Nat
  kRef : Nat
  pre : Nat
  post : Nat
  preShort : Bool
  postShort : Bool
  isFrame : Bool
  frameValid : Bool
  frame : W32
  aS : Nat
  /-- Words 0 to 13 have been written. -/
  written : Bool
  sealed : Bool
  lost : Bool
  /-- A directory pin holds it (R254). -/
  held : Bool
  deriving DecidableEq, Repr

/-- A directory (R248, R249). -/
structure Dir where
  init : Bool
  bound : Bool
  cause : Nat
  segs : List Seg
  deriving DecidableEq, Repr

/-- The transient pin slot of a core (R254). -/
structure CorePin where
  status : Nat
  refuse : Nat
  pin : Option (Nat × Nat)
  deriving DecidableEq, Repr

/-- Record writers, directories and pins. -/
structure Record where
  rings : Vector Ring 8
  dirs : Vector Dir 4
  corePins : Vector CorePin 16
  /-- Pins of the taps: tap, program, seq. -/
  tapPins : List (Nat × Nat × Nat)
  /-- Id of the latest frame mark, once there has been one (R250). -/
  frame : Option W32
  deriving DecidableEq, Repr

/-- A ring at cold reset. -/
def Ring.reset : Ring := { state := 0, haltCause := 0, records := 0, run := none, issued := 0, closing := [], hist := [], w := 0, gapChunk := none, gapVec := 0 }

/-- A directory at cold reset. -/
def Dir.reset : Dir := { init := false, bound := false, cause := 0, segs := [] }

/-- The record block at cold reset (R264). -/
def Record.reset : Record where
  rings := Vector.replicate 8 Ring.reset
  dirs := Vector.replicate 4 Dir.reset
  corePins := Vector.replicate 16 { status := 0, refuse := 0, pin := none }
  tapPins := []
  frame := none

/-! ### Churn (10_churn.md) -/

/-- A waveform in a column buffer (R271 to R275): its settings are those at its acceptance. -/
structure Wfm where
  /-- Label of the reference output, and the block length, sample period and decimation mode. -/
  ref : Nat
  ratio : Nat
  ts : Nat
  mode : Nat
  phi : Nat
  len : Nat
  pre : Nat
  ymap : W32
  /-- Elapsed tick at which it is complete (R274). -/
  due : Nat
  complete : Bool
  /-- Its outputs as (least, greatest, trace value), once complete, and whether one carries an OVR flag. -/
  outs : List (Int × Int × Int)
  ovr : Bool
  deriving DecidableEq, Repr

/-- What the column engine does (R280). -/
inductive ChurnOp where
  | clear
  | decay (shift : Nat)
  | pass
  deriving DecidableEq, Repr

/-- A running snapshot (R287, R288). -/
structure Snap where
  slot : Nat
  seq : Nat
  base : Nat
  kts : List W32
  wfmAtS : Nat
  wfmLast : Nat
  avgCount : W32
  avg : List (Nat × Int)
  env : List (Nat × (Int × Int))
  /-- Bands read so far, of 64. -/
  band : Nat
  raw : Bool
  render : Bool
  fmt : Bool
  torn : Bool
  /-- A line of it completed POISON (15 R372). -/
  poison : Bool
  deriving DecidableEq, Repr

/-- A boundary's changes, to act at the Churn boundary `at_` (R270): whether `enable` changed, whether the stream did (R290), the registers
that took other words, and the word of `CHURN_CMD`. -/
structure ChurnChange where
  at_ : Nat
  power : Bool
  stream : Bool
  moved : List Nat
  cmd : W32
  deriving DecidableEq, Repr

/-- The Churn of one input. The arrays are sparse: a count not listed is 0, a sum 0, an envelope cleared. -/
structure Churn where
  /-- Counts by column x 1,024 + row. -/
  db : List (Nat × Nat)
  avg : List (Nat × Int)
  env : List (Nat × (Int × Int))
  bufs : List Wfm
  op : Option (ChurnOp × Nat)
  pendClear : Bool
  pendDecay : Nat
  /-- A clear of average and envelope takes away the running pass's effect on them (R281). -/
  pendAvg : Bool
  /-- Column passes since the last decay, and its elapsed tick (R282). -/
  passes : Nat
  decayAt : Nat
  lastAccept : Nat
  /-- AUTO mode offers free waveforms (R271). -/
  autoFree : Bool
  /-- The history holds outputs that reached Churn from this elapsed tick on (R290). -/
  histFrom : Nat
  snap : Option Snap
  snapPending : Bool
  periodAt : Nat
  /-- The last published slot, and whether one was published since `pages_en` last became 1 (R287, CHURN_STATUS). -/
  published : Option Nat
  pubValid : Bool
  /-- Holds on slots: slot, holder (a tap's number, or 100 for L1) (R287). -/
  holds : List (Nat × Nat)
  sat : Bool
  avgFull : Bool
  /-- Changes that are still to act (R270), and the words that registers keep for Churn until then: Churn boundary, register, word. -/
  changes : List ChurnChange
  seen : List (Nat × Nat × W32)
  deriving DecidableEq, Repr

/-- A Churn at reset, off and empty. -/
def Churn.reset : Churn where
  db := []
  avg := []
  env := []
  bufs := []
  op := none
  pendClear := false
  pendDecay := 0
  pendAvg := false
  passes := 0
  decayAt := 0
  lastAccept := 0
  autoFree := false
  histFrom := 0
  snap := none
  snapPending := false
  periodAt := 0
  published := none
  pubValid := false
  holds := []
  sat := false
  avgFull := false
  changes := []
  seen := []

/-! ### Power Permit Arbiter (11_power_permits.md) -/

/-- Units of 100 mA on the four rails (R295). -/
structure Units where
  core : Nat
  conv : Nat
  hbm0 : Nat
  hbm1 : Nat
  deriving DecidableEq, Repr

/-- The twin of a 64-bit value (R14): the value and the stored complement. -/
structure Twin64 where
  v : W64
  n : W64
  deriving DecidableEq, Repr

/-- A request of the arbiter's queue (R300). -/
structure PReq where
  req : Nat
  kind : Nat
  units : Units
  arrival : Nat
  /-- Elapsed boundary at which the request times out (R299). -/
  deadline : Option Nat
  /-- Its grant entry, unless the table was full (R298). -/
  entry : Option Nat
  deriving DecidableEq, Repr

/-- A load that falls at a known boundary (R304). -/
structure Fall where
  due : Nat
  units : Units
  deriving DecidableEq, Repr

/-- The arbiter (R295 to R307). -/
structure Permits where
  entries : Vector Twin64 64
  queue : List PReq
  load : Units
  /-- Rail totals of held units, kept independently of the entries (R307). -/
  held : Units
  ballast : Nat
  /-- Ballast steps still to take upward for the ramping entry, and downward (R301). -/
  rampUp : Nat
  lowering : Nat
  /-- Elapsed ticks of the last 68 steps, newest first (R301). -/
  steps : List Nat
  /-- Rotation units that a SPENT STANDING entry keeps (R305). -/
  rotUnits : Nat
  hold : Bool
  /-- Units in the load accounts for BANDWIDTH, by requester (R297). -/
  bw : List (Nat × Units)
  falls : List Fall
  deriving DecidableEq, Repr

/-- No units. -/
def Units.zero : Units := { core := 0, conv := 0, hbm0 := 0, hbm1 := 0 }

/-- The arbiter at cold reset: all entries and accounts cleared (R306). -/
def Permits.reset : Permits where
  entries := Vector.replicate 64 { v := 0, n := BitVec.allOnes 64 }
  queue := []
  load := Units.zero
  held := Units.zero
  ballast := 0
  rampUp := 0
  lowering := 0
  steps := []
  rotUnits := 0
  hold := false
  bw := []
  falls := []

/-! ### Memory controller and integrity (14_memory_controller.md, 15_memory_integrity.md) -/

/-- A line in an engine or waiting at the crossbar (R349): the address is a line address, `mask` one bit per byte. -/
structure MLine where
  port : Nat
  dpa : Nat
  write : Bool
  mask : Nat
  data : List Byte
  hint : Nat
  /-- Elapsed tick of its presentation, then of its acceptance. -/
  at_ : Nat
  /-- Reissues so far (R369, R370). -/
  tries : Nat
  /-- A read that waits for queued writes (R355). -/
  waits : Bool
  deriving DecidableEq, Repr

/-- A line completed to its port (model's record of the outputs): status 0 OK, 1 ADDR_ERR, 2 POISON. -/
structure MDone where
  port : Nat
  dpa : Nat
  write : Bool
  status : Nat
  data : List Byte
  at_ : Nat
  deriving DecidableEq, Repr

/-- A pseudo-channel engine (R352 to R357). -/
structure Engine where
  /-- Read and write queue, oldest first. -/
  rq : List MLine
  wq : List MLine
  /-- Reads issued whose data have not returned, oldest first. -/
  fly : List MLine
  /-- Writes issued and not yet acknowledged, newest first, at most 32 (R366, R369). -/
  unacked : List MLine
  writing : Bool
  /-- Latency-critical reads accepted up to this elapsed tick are still to be served before the engine returns to WRITE (R357). -/
  lcBy : Option Nat
  /-- Open rows by SID x 16 + bank: row, and the elapsed tick of its last access (R350). -/
  rows : List (Nat × (Nat × Nat))
  /-- Activates of a row in this window, by (SID x 16 + bank) x 16,384 + row: count and last port (R375). -/
  acts : List (Nat × (Nat × Nat))
  /-- Port taken last in round-robin order. -/
  rr : Nat
  /-- First elapsed tick at which the next read, write, command can be accepted or issued (one per CK_MEM). -/
  readyR : Nat
  readyW : Nat
  readyC : Nat
  deriving DecidableEq, Repr

/-- An HBM channel (R366 to R368, R373, R381). -/
structure HChan where
  /-- Replay attempt under way, 0 for none; whether AERR has been reported in it. -/
  attempt : Nat
  failed : Bool
  fenced : Bool
  rateHold : Bool
  sweepHold : Bool
  /-- Re-initialisation under way, and its latest elapsed end. -/
  unfencing : Bool
  unfenceBy : Nat
  /-- Elapsed tick at which the present hold began. -/
  heldFrom : Nat
  idleSince : Nat
  /-- 0 awake, 1 in self-refresh, 2 leaving it, 3 powered down in RETAIN (R382); and the elapsed tick of the acceptance that wakes it. -/
  sr : Nat
  srWake : Nat
  /-- Elapsed ticks at which its last commands issued, newest first, at most 32 (R366). -/
  mortar : List Nat
  /-- Refresh multiplier at which it runs, as a power of two: its stack's, but for a change that meets a hold (R379, R390). -/
  mult : Nat
  deriving DecidableEq, Repr

/-- A port (R351, R358, R359). -/
structure MPort where
  /-- Token bucket in 1/1,024 of a line, as it was at elapsed tick `vAt`. -/
  v : Nat
  vAt : Nat
  /-- Lines presented and not yet accepted, oldest first. -/
  wait : List MLine
  /-- Elapsed end of a row-disturbance penalty (R377). -/
  penalty : Option Nat
  deriving DecidableEq, Repr

/-- A stack (R379, R386). -/
structure Stack where
  /-- Refresh multiplier as a power of two, and the last reading in °C + 64. -/
  mult : Nat
  temp : Nat
  lastRead : Option Nat
  /-- Elapsed start of the tracker window (R375). -/
  winStart : Nat
  /-- Data rate in force (0, 1, 2), and the latest elapsed end of a change under way. -/
  rate : Nat
  rateBy : Option Nat
  /-- Units of the load accounts handed over for raised rates (R297): VDD_CORE, VDD_HBM. -/
  paid : Nat × Nat
  deriving DecidableEq, Repr

/-- An eye sweep (R387): channel, whether its centres are to be applied and saved, steps done, the phase (0 serving, 1 in a step), the
elapsed tick at which the phase began, and for each delay the first and last passing setting found. -/
structure Sweep where
  chan : Nat
  apply : Bool
  save : Bool
  steps : Nat
  inStep : Bool
  at_ : Nat
  found : List (Nat × (Nat × Nat))
  deriving DecidableEq, Repr

/-- The memory subsystem. -/
structure MemCtl where
  /-- Mapping masks as stored: word and complement (R347), and the last masks that passed. -/
  masks : List (W32 × W32)
  good : List W32
  /-- Masks that take effect when the drain of R348 ends. -/
  pendMasks : Option (List (W32 × W32))
  mapSeq : Nat
  engines : Vector Engine 64
  chans : Vector HChan 32
  ports : Vector MPort 19
  stackCtl : Vector Stack 2
  /-- Ended holds: channel, whether it was a replay, elapsed start and end (R373). -/
  holds : List (Nat × Bool × Nat × Nat)
  /-- Engines whose contents are undefined, with the free value's key (R368, R389); unlisted: defined. -/
  lost : List (Nat × Nat)
  /-- Engines under self-test (R389). -/
  testing : Nat
  hot : Bool
  adjLoaded : Bool
  /-- The retention record (R383): 69 value words and 69 complements. -/
  retain : List W32
  /-- Training delays in force by (rate x 32 + channel) x 19 + delay (R386); unlisted: the factory table's. -/
  delays : List (Nat × Nat)
  /-- The repair map (R389): each repaired lane, with the path of its channel (01 R32). -/
  repairs : List (W64 × Nat)
  sweep : Option Sweep
  done : List MDone
  deriving DecidableEq, Repr

/-- Reset value of mask k (14, reset table). -/
def maskReset (is9620 : Bool) (k : Nat) : W32 :=
  if is9620 then (if k = 0 then 0 else BitVec.ofNat 32 (2 ^ (k - 1) + 2 ^ (k + 10))) else BitVec.ofNat 32 (2 ^ k + 2 ^ (k + 12))

/-- An engine at cold reset. -/
def Engine.reset : Engine :=
  { rq := [], wq := [], fly := [], unacked := [], writing := false, lcBy := none, rows := [], acts := [], rr := 18,
    readyR := 0, readyW := 0, readyC := 0 }

/-- A channel at cold reset. -/
def HChan.reset : HChan :=
  { attempt := 0, failed := false, fenced := false, rateHold := false, sweepHold := false, unfencing := false, unfenceBy := 0,
    heldFrom := 0, idleSince := 0, sr := 0, srWake := 0, mortar := [], mult := 0 }

/-- Reset burst of a regulated port (14, port table). -/
def burstReset (p : Nat) : Nat :=
  if p < 8 then 0 else if p < 10 then 64 else if p < 12 then 512 else if p < 16 then 256 else if p < 18 then 128 else 32

/-- The memory subsystem at cold reset: full buckets (R358), zero delays until Aselm loads them (log entry 3). -/
def MemCtl.reset (is9620 : Bool) : MemCtl where
  masks := (List.range 10).map (fun k => (maskReset is9620 k, ~~~ maskReset is9620 k))
  good := (List.range 10).map (maskReset is9620)
  pendMasks := none
  mapSeq := 0
  engines := Vector.replicate 64 Engine.reset
  chans := Vector.replicate 32 HChan.reset
  ports := Vector.ofFn (fun p : Fin 19 => { v := burstReset p.val * 1024, vAt := 0, wait := [], penalty := none })
  stackCtl := Vector.replicate 2 { mult := 0, temp := 0, lastRead := none, winStart := 0, rate := 0, rateBy := none, paid := (0, 0) }
  holds := []
  lost := []
  testing := 0
  hot := false
  adjLoaded := false
  retain := List.replicate 69 0 ++ List.replicate 69 0xFFFFFFFF
  delays := []
  repairs := []
  sweep := none
  done := []


/-! ### Host link and taps (16_host_link.md) -/

/-- A PCI Express function (R395, R400). -/
structure PcieFn where
  /-- Memory Space Enable, Bus Master Enable, D3hot, MSI-X Enable, MSI-X function mask, Relaxed Ordering Enable. -/
  mse : Bool
  bme : Bool
  d3 : Bool
  msixEn : Bool
  msixMask : Bool
  relaxed : Bool
  /-- Latest elapsed end of a function level reset under way. -/
  flr : Option Nat
  deriving DecidableEq, Repr

/-- The host link (R395 to R400). -/
structure Link where
  perst : Bool
  /-- Lanes, rate code, FLIT mode, up, in ASPM L1 (`HOST_LINK_STATUS`; 21 R524). -/
  width : Nat
  rate : Nat
  flit : Bool
  up : Bool
  l1 : Bool
  downs : Nat
  /-- Elapsed release from which the 120 ms of R399 run, and whether they have passed. -/
  released : Nat
  ready : Bool
  /-- Functions by number; unlisted: at reset. VFs exist while VF Enable is 1. -/
  fns : List (Nat × PcieFn)
  vfEnable : Bool
  /-- Resizable BAR size of BAR2 as a power of two, 28 to 36. -/
  bar2Exp : Nat
  /-- Other words of configuration space, by function x 16 + register number of `ConfigReg`. -/
  cfg : List (Nat × W32)
  /-- MSI-X tables by function x 8,192 + vector x 4 + word; unlisted: word 3 is 1 (masked), others 0. -/
  msix : List (Nat × W32)
  /-- Pending bits: function x 2,048 + vector. -/
  pba : List Nat
  /-- The last completion of a configuration request (model's record of the output): 0 success, 1 Request Retry Status,
  2 Unsupported Request; and its data. -/
  reply : Nat × W32
  /-- The last BAR2 read completion: data of its lines, EP bit, Unsupported Request. -/
  bar2 : List Byte × Bool × Bool
  deriving DecidableEq, Repr

/-- A function at reset. -/
def PcieFn.reset : PcieFn :=
  { mse := false, bme := false, d3 := false, msixEn := false, msixMask := false, relaxed := false, flr := none }

/-- The host link at cold reset. -/
def Link.reset : Link :=
  { perst := true, width := 0, rate := 0, flit := false, up := false, l1 := false, downs := 0, released := 0, ready := false,
    fns := [], vfEnable := false, bar2Exp := 28, cfg := [], msix := [], pba := [], reply := (0, 0), bar2 := ([], false, false) }

/-- An item or record under way in a tap (R405 to R410). -/
structure TapItem where
  /-- Source spans still to read: DPA, length, and whether the part ends there and is padded to 64. -/
  spans : List (Nat × Nat × Bool)
  /-- Bytes gathered for the record under way and beyond, and the item's bytes already in records. -/
  buf : List Byte
  off : Nat
  total : Nat
  /-- Record type, and header words 4 to 15 with offsets 0. -/
  typ : Nat
  words : List W32
  poison : Bool
  addrErr : Bool
  /-- The last line read, when it also belongs to the next record: POISON, ADDR_ERR. -/
  spill : Bool × Bool
  /-- It still holds its pin or hold. -/
  holds : Bool
  /-- The count or seq at which the tap goes on after it. -/
  next : Nat
  /-- Elapsed tick at which the line read under way was issued. -/
  since : Nat
  deriving DecidableEq, Repr

/-- A tap (R401 to R417). -/
structure Tap where
  ctx : List W32
  /-- `TAP_STATUSt.state` and cause; pausing and draining are kept apart (below). -/
  state : Nat
  cause : Nat
  dbErr : Bool
  lost : Nat
  db : W32
  /-- Producer and consumer count, record seq, position in the source. -/
  p : Nat
  c : Nat
  seq : Nat
  pos : Nat
  /-- The source began again from 0 when the tap stood at this place, and the SKIP for it is due (R407 to R409). -/
  skip : Option Nat
  item : Option TapItem
  /-- A stop under way is an abort (R417). -/
  abort : Bool
  /-- Records written back since the last message, and the elapsed tick of the first (R412). -/
  recs : Nat
  recAt : Nat
  /-- Token bucket (R413), in 1/1,024 of a line, as it was at elapsed tick `vAt`; deficit in bytes. -/
  v : Nat
  vAt : Nat
  deficit : Nat
  deriving DecidableEq, Repr

/-- A tap at reset: no context. -/
def Tap.reset : Tap :=
  { ctx := List.replicate 16 0, state := 0, cause := 0, dbErr := false, lost := 0, db := 0, p := 0, c := 0, seq := 0, pos := 0, skip := none,
    item := none, abort := false, recs := 0, recAt := 0, v := 0, vAt := 0, deficit := 0 }

/-- A function's tap context port (R416). -/
structure TapPort where
  sel : Nat
  data : List W32
  status : Nat
  deriving DecidableEq, Repr

/-- The taps and their scheduler (R413 to R416). -/
structure TapCtl where
  /-- Taps by number; unlisted: at reset. -/
  taps : List (Nat × Tap)
  /-- `TAP_OWNER` by tap; unlisted: the PF. -/
  owner : List (Nat × Nat)
  ports : List (Nat × TapPort)
  /-- Deficit of each function in bytes. -/
  fnDeficit : List (Nat × Nat)
  /-- `TAP_SCHED_STATUS`: rate covered in 1/64 GB/s, and `permit_wait`; the rate last asked for. -/
  covered : Nat
  wait : Bool
  asked : Nat
  /-- Elapsed tick from which all taps together may read a further line while their rate is limited (R414). -/
  lineAt : Nat
  deriving DecidableEq, Repr

/-- A context port at reset. -/
def TapPort.reset : TapPort := { sel := 0, data := List.replicate 16 0, status := 0 }

/-- The taps at reset. -/
def TapCtl.reset : TapCtl := { taps := [], owner := [], ports := [], fnDeficit := [], covered := 2048, wait := false, asked := 0, lineAt := 0 }


/-! ### Bulk DMA (17_bulk_dma.md) -/

/-- A burst in flight (R426): its element, byte offset in it, length, whether its data have returned, the data, and the
elapsed tick of its issue. -/
structure Burst where
  idx : Nat
  off : Nat
  len : Nat
  src : Nat
  dst : Nat
  data : Option (List Byte)
  issued : Nat
  deriving DecidableEq, Repr

/-- A DMA channel (R423 to R438). -/
structure DmaChan where
  /-- `DMA_DESCc`: the set in force. -/
  set : List W32
  /-- `DMA_STATUSc`: state, result, permit_wait, cmd_err. -/
  state : Nat
  result : Nat
  permitWait : Bool
  cmdErr : Bool
  doorbell : W32
  seen : W32
  cur : W64
  curSpace : Nat
  /-- Element and byte offset of the next burst to issue, and bursts in flight, oldest first. -/
  next : Nat
  nextOff : Nat
  flight : List Burst
  /-- Elements whose reads have not all been issued (R427). -/
  remain : Nat
  errAddr : W64
  errInfo : W32
  errIdx : List W32
  /-- Element and offset of the failing burst, to which RESUME returns, and whether the error was in a set load. -/
  failIdx : Nat
  failOff : Nat
  /-- A load under way: address, its space, whether it is the re-read of R437, elapsed tick of its issue. -/
  load : Option (Nat × Nat × Bool × Nat)
  /-- Elapsed tick at which the fence read was issued. -/
  fenceAt : Nat
  /-- Token bucket in bytes x 1,024 as it was at elapsed tick `vAt` (R426). -/
  v : Nat
  vAt : Nat
  deriving DecidableEq, Repr

/-- A channel at cold reset. -/
def DmaChan.reset : DmaChan :=
  { set := List.replicate 16 0, state := 0, result := 0, permitWait := false, cmdErr := false, doorbell := 0, seen := 0, cur := 0, curSpace := 0,
    next := 0, nextOff := 0, flight := [], remain := 0, errAddr := 0, errInfo := 0, errIdx := [0, 0, 0], failIdx := 0, failOff := 0,
    load := none, fenceAt := 0, v := 16 * 512 * 80, vAt := 0 }

/-- The DMA engine. -/
structure Dma where
  chans : Vector DmaChan 32
  owner : W32
  deriving DecidableEq, Repr

/-- The engine at cold reset. -/
def Dma.reset : Dma := { chans := Vector.replicate 32 DmaChan.reset, owner := 0 }


/-! ### Display (18_display.md) -/

/-- A layer's fetches of the frame (R451 to R456). -/
structure DspLayer where
  /-- The next source line to read in this frame; none once nothing more is read. -/
  next : Option Nat
  /-- Luma and chroma lines in the line buffer, newest first: line number, bytes. -/
  luma : List (Nat × List Byte)
  chroma : List (Nat × List Byte)
  /-- The first source line of the frame that completed badly, and its cause (2 POISON, 3 ADDR). -/
  bad : Option (Nat × Nat)
  /-- Active line from which the layer is faulted in this frame. -/
  faultAt : Option Nat
  /-- The slot that L1 follows in this frame: its address, and 8-bit format (R452). -/
  slot : Option (Nat × Bool)
  deriving DecidableEq, Repr

/-- The display block beside its registers. -/
structure Dsp where
  running : Bool
  /-- The instant of the running frame's start, as an exact fraction of elapsed ticks: numerator and denominator; while
  the first frame is awaited, of that frame's start. -/
  startNum : Nat
  startDen : Nat
  /-- No frame has started since the engine was started. -/
  first : Bool
  frames : W32
  flipCount : W32
  vblankKts : List W32
  flipKts : List W32
  hpd : Bool
  irqHpd : Bool
  blank : Bool
  followMiss : Bool
  flipDone : Bool
  /-- Pending flips: bit l for layer l, bit 4 for the global settings (R457). -/
  flips : Nat
  /-- A timing is pending; `DSP_MODE_CTRL.status`. -/
  apply : Bool
  status : Nat
  /-- `DSP_LINK_STATUS`: state, lanes, rate. -/
  link : Nat
  lanes : Nat
  rate : Nat
  layers : Vector DspLayer 4
  /-- The input whose slot L1 holds (R452). -/
  hold : Option Nat
  deriving DecidableEq, Repr

/-- A layer that fetches nothing. -/
def DspLayer.reset : DspLayer := { next := none, luma := [], chroma := [], bad := none, faultAt := none, slot := none }

/-- The display at cold reset. -/
def Dsp.reset : Dsp where
  running := false
  startNum := 0
  startDen := 1
  first := true
  frames := 0
  flipCount := 0
  vblankKts := [0, 0, 0]
  flipKts := [0, 0, 0]
  hpd := false
  irqHpd := false
  blank := false
  followMiss := false
  flipDone := true
  flips := 0
  apply := false
  status := 0
  link := 0
  lanes := 0
  rate := 0
  layers := Vector.replicate 4 DspLayer.reset
  hold := none

/-! ### Sensor converter and excitation (19_sensor_converter.md). Times are elapsed ticks. -/

/-- A conversion (R465): of an entry, or of the injection slot. -/
structure SConv where
  /-- The injected conversion of the slot; else of the entry in progress. -/
  injected : Bool
  source : Nat
  gainExp : Nat
  /-- Conversions of its average, and the memory writer takes its result. -/
  avg : Nat
  toMem : Bool
  /-- Edges at which its sampling begins, at which it holds, and at which it ends. -/
  start : Nat
  hold : Nat
  stop : Nat
  deriving DecidableEq, Repr

/-- A request in the injection slot (R474). -/
structure Inject where
  /-- Aselm's request, with its own source, gain and sampling time; else a final trigger's. -/
  mgt : Bool
  source : Nat
  gainExp : Nat
  samp : Nat
  prog : Nat
  kts : List W32
  /-- Entry whose settings a final trigger's request uses. -/
  entry : Nat
  /-- First CK_SAR edge at or after its arrival. -/
  edge : Nat
  /-- Once converted: code, clamped, hold tick, unlocked, boundary of its write. -/
  result : Option (Int × Bool × Nat × Bool × Nat)
  deriving DecidableEq, Repr

/-- A result of an entry that is still to be written (R470). -/
structure SRes where
  entry : Nat
  code : Int
  ovr : Bool
  inj : Bool
  unlocked : Bool
  hold : Nat
  toMem : Bool
  source : Nat
  /-- Boundary at which it is written, and whether it ends its pass. -/
  due : Nat
  last : Bool
  deriving DecidableEq, Repr

/-- What the converter does. -/
inductive SPhase where
  /-- No conversion: WAITING, or OFF when the mode is OFF. -/
  | idle
  /-- Powered down (R473). -/
  | down
  /-- The start-up delay runs up to an edge (R473). -/
  | starting (ready : Nat)
  /-- An entry waits for the memory writer since an edge (R480). -/
  | memWait (from_ : Nat)
  | run (c : SConv)
  deriving DecidableEq, Repr

/-- An excitation output (R481, R482). -/
structure Exc where
  on : Bool
  ramping : Bool
  limit : Bool
  /-- Voltage in mV at elapsed tick `since`, and the setting it slews to. -/
  mvAt : Nat
  target : Nat
  since : Nat
  deriving DecidableEq, Repr

/-- The sensor converter. -/
structure Sens where
  phase : SPhase
  /-- A pass runs; the entry in progress or next; its conversions done, their sum, and the polarity of the last clamp. -/
  pass : Bool
  entry : Nat
  done : Nat
  sum : Int
  clamp : Option Bool
  /-- An injected conversion ran since the entry's first sampling phase. -/
  inj : Bool
  /-- A start is latched; settings changed while a conversion ran (R478). -/
  latched : Bool
  restart : Bool
  /-- The last conversion was clamped, so that the next one takes the guard (R476). -/
  guard : Bool
  /-- Elapsed edge at which the last conversion ended. -/
  lastEnd : Nat
  slot : Option Inject
  results : List SRes
  /-- Elapsed tick, plus one, of the last occurrence of `trig_src` taken as a start. -/
  seen : Nat
  exc : Vector Exc 4
  deriving DecidableEq, Repr

/-- An output at reset: disabled, at 0 V. -/
def Exc.reset : Exc := { on := false, ramping := false, limit := false, mvAt := 0, target := 0, since := 0 }

/-- The sensor converter at cold reset: powered down. -/
def Sens.reset : Sens where
  phase := .down
  pass := false
  entry := 0
  done := 0
  sum := 0
  clamp := none
  inj := false
  latched := false
  restart := false
  guard := false
  lastEnd := 0
  slot := none
  results := []
  seen := 0
  exc := Vector.replicate 4 Exc.reset

/-! ### Cairn queues (20 R496 to R498) -/

/-- An entry on its way to the Cairn log: code, severity, detail and path (R496, R549). -/
structure CairnReq where
  code : Nat
  severity : Nat
  detail : Nat
  path : W64
  deriving DecidableEq, Repr

/-- The two Cairn queues (R498): 64 entries in the always-on domain, 256 in Aselm's SRAM. -/
structure CairnQ where
  hw : List CairnReq
  fw : List CairnReq
  /-- Entries lost since the last LOG_OVERFLOW record, and those whose CAIRN_OVF is still to assert. -/
  lost : Nat
  unreported : Nat
  deriving DecidableEq, Repr

/-! ### Management plane (20_management.md) -/

/-- A mailbox slot (R26, R490): the request's words, an unanswered request, one that Aselm has taken and not yet answered,
the answer's words, an answer not yet acknowledged or received, and an answer that is to be discarded (21 R531). -/
structure MSlot where
  req : List W32
  full : Bool
  running : Bool
  ans : List W32
  valid : Bool
  drop : Bool
  deriving DecidableEq, Repr

/-- A copy of the settings store (R499): sequence number, schema, items. -/
structure SetCopy where
  seq : Nat
  schema : Nat
  items : List W32
  deriving DecidableEq, Repr

/-- The lifetime record (R495): seconds in bins B0 to B3, charge of each rail of R295 in mA s, bin of the last reading. -/
structure Life where
  bins : List Nat
  charge : List Nat
  lastBin : Nat
  deriving DecidableEq, Repr

/-- The management plane. -/
structure Mgt where
  slots : Vector MSlot 17
  /-- The slot served last (R26). -/
  last : Nat
  refused : Bool
  /-- `MGT_STATE.state`: 0 BOOT, 1 RUNNING, 2 RESTARTING, 3 RECOVERY, 4 FAILED. -/
  state : Nat
  /-- The boot ROM has chosen an image, and Aselm starts (R508). -/
  started : Bool
  /-- Cause of the boot or restart (R497, 0x100), and the latest elapsed end of a restart. -/
  cause : Nat
  due : Nat
  /-- Elapsed tick of the last MGT_READY. -/
  readyAt : Nat
  /-- Sources that Aselm raised during a restart, oldest first, at most 64 (R487). -/
  held : List Nat
  /-- The QSPI flash by offset, where R489 and the rules fix what its bytes are: an unlisted byte is erased, 0xFF. -/
  flash : List Host.Cell
  /-- The settings copies and the archive (R489, R511). -/
  sets : List SetCopy
  archive : Option SetCopy
  /-- Items 0 and 1 as they were at the last cold reset (R499). -/
  cold : List W32
  incompatible : Bool
  /-- Saved calibration area: tables formed by a saved foreground calibration, as in `FgCal.formed` (R147). -/
  saved : List (Nat × Nat × W32 × W32 × W32)
  savedEqs : List (Nat × List W32)
  /-- Training delays of the flash table that sweeps have rewritten (14 R387). -/
  flashDelays : List (Nat × Nat)
  /-- The repair map kept in flash (15 R389). -/
  laneRepairs : List (W64 × Nat)
  /-- Lifetime record: copies with their sequence numbers, the record in use, `life_warn` reached, and seconds since the
  last LIFE_BIN3 record. -/
  lifeCopies : List (Nat × Life)
  life : Life
  lifeWarned : Bool
  sinceB3 : Nat
  /-- Cairn: index of the next entry, whether the ring has wrapped past its end, and the boot number. -/
  cairnNext : Nat
  boot : Nat
  /-- A foreground calibration with a start record and no end record: mask and step reached (R148). -/
  fgOpen : Option (Nat × Nat)
  /-- Update (R506): state, running slot, its version, epoch and schema, provisional boots counted. -/
  upd : Nat
  slot : Nat
  version : W32
  imgEpoch : Nat
  schema : Nat
  boots : Nat
  /-- Length named by UPD_BEGIN, and bytes received. -/
  pkgLen : Nat
  received : Nat
  /-- Fuses: device epoch, customer key hash. Aselm's copy of the hash's first 28 bytes. -/
  epoch : Nat
  cosign : Option (List W32)
  cosignHead : Option (List W32)
  /-- The latest readings of the 32 die sensors, °C x 16, and of the rails of codes 32 to 39 in mV. -/
  temps : List Int
  rails : List Nat
  /-- Next rail to convert (R493). -/
  railNext : Nat
  throttle : Bool
  warn : Bool
  /-- THERMTRIP_N is low, and the sensor that tripped (R494). -/
  trip : Option Nat
  /-- Trip latched by the always-on domain, still to be logged at the next boot. -/
  tripLog : Option Nat
  /-- SMBus: alert causes, sensor named by command 0x03, the device holds SMB_ALERT_N (R500). -/
  alerts : Nat
  smbSel : Nat
  /-- The last word or block read over the SMBus, bytes in order (model's record of the output). -/
  smbOut : List Byte
  deriving DecidableEq, Repr

/-- An empty slot. -/
def MSlot.reset : MSlot := { req := List.replicate 8 0, full := false, running := false, ans := List.replicate 8 0, valid := false, drop := false }

/-- The reset values of the settings (R499). -/
def setDefaults : List W32 := [0, 0x5A, 10, 0, 0, 125, 50, 900000]

/-- A lifetime record that has counted nothing. -/
def Life.reset : Life := { bins := [0, 0, 0, 0], charge := [0, 0, 0, 0], lastBin := 0 }

/-- The management plane of a device that has never been powered (flash contents, fuses: log entry 3). -/
def Mgt.reset : Mgt where
  slots := Vector.replicate 17 MSlot.reset
  last := 16
  refused := false
  state := 0
  started := false
  cause := 0
  due := 0
  readyAt := 0
  held := []
  flash := []
  sets := [{ seq := 0, schema := 0, items := setDefaults }, { seq := 1, schema := 0, items := setDefaults }]
  archive := none
  cold := [0, 0x5A]
  incompatible := false
  saved := []
  savedEqs := []
  flashDelays := []
  laneRepairs := []
  lifeCopies := [(0, Life.reset), (1, Life.reset)]
  life := Life.reset
  lifeWarned := false
  sinceB3 := 0
  cairnNext := 0
  boot := 0
  fgOpen := none
  upd := 0
  slot := 0
  version := 0
  imgEpoch := 0
  schema := 0
  boots := 0
  pkgLen := 0
  received := 0
  epoch := 0
  cosign := none
  cosignHead := none
  temps := List.replicate 32 (-1024)
  rails := List.replicate 8 0
  railNext := 0
  throttle := false
  warn := false
  trip := none
  tripLog := none
  alerts := 0
  smbSel := 0
  smbOut := []

/-! ### Operating modes (21_modes_and_reset.md) -/

/-- The leg that the running transition is in (R519). -/
inductive Leg where
  | none | entry | switch | exit | toRetain | fromRetain
  deriving DecidableEq, Repr

/-- The mode controller (R516 to R526). Mode codes are those of `MODE_STATUS.mode`. -/
structure ModeCtl where
  mode : Nat
  target : Nat
  busy : Bool
  pending : Option (Nat × Nat)
  forced : Bool
  memReady : Bool
  result : Nat
  requester : Nat
  leg : Leg
  /-- The requester of the running transition's post. -/
  runner : Nat
  /-- Elapsed boundary at which the leg's E falls, when known. -/
  due : Option Nat
  /-- Elapsed tick of the first STANDING request of this leg (R520). -/
  asked : Nat
  /-- Heads that the STANDING request covers (R520). -/
  covered : Nat
  /-- POR_N is high (R528, R530). -/
  porN : Bool
  /-- VDD_AON is below its limit (23 R567). -/
  aonLow : Bool
  /-- The device is booting: release of POR_N seen, MGT_READY not yet (R528). -/
  booting : Bool
  /-- A host post that waits for its boundary, at which a program's post is staged: target and boundary (R517). -/
  hostWait : Option (Nat × Nat)
  /-- Elapsed boundary, plus one, of the last program post (R517). -/
  progAt : Nat
  deriving DecidableEq, Repr

/-- The mode controller at cold reset (MODE_STATUS field card). -/
def ModeCtl.reset : ModeCtl where
  mode := 6
  target := 1
  busy := false
  pending := none
  forced := false
  memReady := false
  result := 0
  requester := 18
  leg := .none
  runner := 18
  due := none
  asked := 0
  covered := 0
  porN := true
  aonLow := false
  booting := true
  hostWait := none
  progAt := 0

/-! ### Event fabric (22_events.md) -/

/-- Coalescing of one source (R544): occurrences since the last request and the elapsed tick of the first. -/
structure Coal where
  c : Nat
  t1 : Nat
  deriving DecidableEq, Repr

/-- A pulse of a TRIGOUT ball (07 R206, R548): elapsed leading edge and end, and whether it is on the ball. -/
structure Pulse where
  start : Nat
  stop : Nat
  on : Bool
  /-- The event source whose route started it (22 R548), or 256 for the trigger block's. -/
  src : Nat
  deriving DecidableEq, Repr

/-- The fabric's own state; its registers stand in the register store. -/
structure Events where
  /-- Coalescing, by source; unlisted: no occurrence counted. -/
  coal : List (Nat × Coal)
  /-- The event queue, oldest first, at most 256 vectors (R545). -/
  queue : List Nat
  /-- Elapsed boundary at which the vector at the head of the queue reached it. -/
  headAt : Nat
  /-- Elapsed tick, plus one, of each source's last occurrence; unlisted: none. -/
  last : List (Nat × Nat)
  /-- Write-1-to-clear bits by register: boundary, plus one, of the last occurrence that set some, and those it set (R13). -/
  fresh : List (Nat × (Nat × W32))
  /-- WAKE_N is driven low (21 R524). -/
  wakeN : Bool
  /-- MSI-X messages sent, newest first: function and vector (model's record of the outputs). -/
  sent : List (Nat × Nat)
  deriving DecidableEq, Repr

/-! ### Boundary scan (23_package_electrical.md R575 to R578) -/

/-- The test access port: the instruction in force, the boundary cells as captured and as updated (127, from TDI to TDO),
and the word or cells that the last scan shifted out (model's record of TDO). -/
structure Jtag where
  ir : BitVec 8
  captured : BitVec 127
  cells : BitVec 127
  tdo : Nat
  deriving DecidableEq, Repr

/-- The port in Test-Logic-Reset: IDCODE is selected (R575). -/
def Jtag.reset : Jtag := { ir := 0x02, captured := 0, cells := 0, tdo := 0 }

/-! ### The whole state -/

/-- The state of the block. -/
structure State where
  /-- Commands waiting, first in first out. -/
  pending : List Instr
  /-- The part is the SLW-9620 (R1, R2; log entry 5). -/
  is9620 : Bool
  /-- Elapsed ticks since Keystone first ran (log entry 1). -/
  now : Nat
  /-- Counter with which free values are drawn (log entry 7). -/
  freeCtr : Nat
  /-- Stored registers, by address key; a register not listed holds its reset value (Regs.lean). -/
  regs : List (Nat × W32)
  latches : List Latch
  ks : Keystone
  ref : RefPath
  nod : Nodric
  ptm : Ptm
  cores : Vector Core 16
  smem : List Host.Cell
  /-- The requester that the SMEM arbiter served last: cores 0 to 15, host window 16 (R42). -/
  smemLast : Nat
  /-- Elapsed tick up to which the SMEM arbiter has served, and the accesses that it serves from there on, oldest first (R42; log
  entries 1, 11). -/
  smemNext : Nat
  smemJobs : List SmemJob
  sems : Vector Sem 16
  permits : Permits
  mode : ModeCtl
  evt : Events
  cairn : CairnQ
  /-- Pulses scheduled or running on each TRIGOUT ball (R206, R548). -/
  trigout : Vector (List Pulse) 4
  conv : Converters
  chans : Vector Chan 8
  trig : Trig
  tmr : Timer
  record : Record
  churn : Vector Churn 8
  fg : FgCal
  mem : MemCtl
  link : Link
  tap : TapCtl
  dma : Dma
  dsp : Dsp
  sens : Sens
  mgt : Mgt
  jtag : Jtag
  /-- HBM by storage location (14 R343, R346; Hbm.lean), each byte less the free value where its engine's contents are
  undefined (log entry 4). -/
  hbm : List Host.Cell
  /-- The word delivered by the host's last register read (model's record of the output). -/
  hostRead : W32
  /-- Host memory as the device's posted writes leave it (log entry 4). -/
  hostMem : List Host.Cell
  deriving DecidableEq, Repr

/-- The state right after a cold reset: POR_N is released and the device boots, its Keystone at 0 (R68, R528, R531; log
entry 10). -/
def State.reset : State where
  pending := []
  is9620 := false
  now := 0
  freeCtr := 0
  regs := []
  latches := []
  ks := { base := 0, held := false }
  ref := { state := .free, present := false, slip := false, losses := 0, holdStart := 0, holdTicks := 0, lockedSel := none, changed := false,
           lockTick := 0, lockWas := true, alignWas := false }
  nod := { state := 0, id := 0, hops := 0, upUnlocked := false, link0 := 0, link1 := 0, ids := [], followers := [], lane0 := [], lane1 := [],
           pendingLoad := none, pendingZero := [], waitRef := false, sent := [] }
  ptm := { dialog := false, cfgEnable := false, lastAuto := 0 }
  cores := Vector.replicate 16 Core.reset
  smem := []
  smemLast := 16
  smemNext := 0
  smemJobs := []
  sems := Vector.replicate 16 Sem.reset
  permits := Permits.reset
  mode := ModeCtl.reset
  evt := { coal := [], queue := [], headAt := 0, last := [], fresh := [], wakeN := false, sent := [] }
  cairn := { hw := [], fw := [], lost := 0, unreported := 0 }
  trigout := Vector.replicate 4 []
  conv := { slices := Vector.replicate 24 Slice.reset, inputs := Vector.replicate 8 Input.reset, flags := [] }
  chans := Vector.replicate 8 Chan.reset
  trig := Trig.reset
  tmr := Timer.reset
  record := Record.reset
  churn := Vector.replicate 8 Churn.reset
  fg := FgCal.reset
  mem := MemCtl.reset false
  link := Link.reset
  tap := TapCtl.reset
  dma := Dma.reset
  dsp := Dsp.reset
  sens := Sens.reset
  mgt := Mgt.reset
  jtag := Jtag.reset
  hbm := []
  hostRead := 0
  hostMem := []

end Sys2Proof.Machine
end

