-- ==== Sys2Proof/Machine/Ops.lean ====
section
/-! DEFINITION. Named operations on the state that every block shares: time and the Keystone count, stored registers,
counters, path codes, twin failures, event occurrences and the Cairn queue, HBM and host memory, free values, the SMEM arbiter. -/

namespace Sys2Proof.Machine

open Sys2Proof

/-! ### Time (03 R68, R79; log entry 1) -/

/-- The Keystone count at elapsed tick `t` (R68, R87). -/
def State.countAt (s : State) (t : Nat) : Nat := (s.ks.base + t) % 2 ^ 64

/-- The Keystone count now. -/
def State.count (s : State) : Nat := s.countAt s.now

/-- The elapsed tick at which the count reads, or read, `k` in the present count. -/
def State.elapsedOf (s : State) (k : Nat) : Nat := if s.count ≤ k then s.now + (k - s.count) else s.now - (s.count - k)

/-- The first CK_DP boundary at or after now (R79). -/
def State.boundary (s : State) : Nat := alignUp s.now 128

/-- The first CK_DP boundary strictly after elapsed tick `t`. -/
def boundaryAfter (t : Nat) : Nat := (t / 128 + 1) * 128

/-- Time moves forward to elapsed tick `t`, never back; while Keystone holds its count it stands (R88; log entry 1). -/
def State.advance (s : State) (t : Nat) : State := if s.ks.held then s else { s with now := max s.now t }

/-- No clock runs and nothing is powered but the always-on domain: POR_N low, VDD_AON low, or the thermal trip latched
(20 R494, 21 R528, R530). -/
def State.clockless (s : State) : Bool := !s.mode.porN || s.mode.aonLow || s.mgt.trip.isSome

/-- The data plane and the cores do not run: no clock, or RETAIN (21 R522). -/
def State.stopped (s : State) : Bool := s.clockless || s.mode.mode == 0

/-- A command of the always-on side: without a clock it does nothing. -/
def State.clocked (s : State) (r : Host.Outcome State Fault Refusal) : Host.Outcome State Fault Refusal :=
  if s.clockless then .next s else r

/-- A command of the data plane or the cores: without a clock, or in RETAIN, it does nothing. -/
def State.awake (s : State) (r : Host.Outcome State Fault Refusal) : Host.Outcome State Fault Refusal :=
  if s.stopped then .next s else r

/-- A free value (log entry 7): the opaque function applied to the counter, which the draw advances. -/
def State.free (s : State) : W32 × State := (Config.freeWord s.freeCtr, { s with freeCtr := s.freeCtr + 1 })

/-! ### Stored registers (00 R3, R9, R11, R12) -/

/-- The value of a stored register; registers of blocks absent on the SLW-9620 read 0 (R3). -/
def State.reg (s : State) (a : Nat) : W32 :=
  if s.is9620 && absent9620 a then 0 else Assoc.get (resetVal a) s.regs a

/-- The state with `v` in a stored register. -/
def State.setReg (s : State) (a : Nat) (v : W32) : State := { s with regs := Assoc.put (resetVal a) s.regs a v }

/-- A field of a stored register. -/
def State.rf (s : State) (a lo len : Nat) : Nat := fld (s.reg a) lo len

/-- The state with a field of a stored register changed. -/
def State.setRf (s : State) (a lo len v : Nat) : State := s.setReg a (setFld (s.reg a) lo len v)

/-- A 64-bit register, low word at the lower address (R7). -/
def State.reg64 (s : State) (a : Nat) : Nat := join (s.reg a) (s.reg (a + 4))

/-- The state with a 64-bit register set. -/
def State.setReg64 (s : State) (a v : Nat) : State := (s.setReg a (loW v)).setReg (a + 4) (hiW v)

/-- A counter rises by `n` and saturates (R9). -/
def State.bumpBy (s : State) (a n : Nat) : State := s.setReg a (satInc (s.reg a) n)

/-- A counter rises by 1 and saturates (R9). -/
def State.bump (s : State) (a : Nat) : State := s.bumpBy a 1

/-- A 16-bit field counter rises by 1 and saturates at 0xFFFF. -/
def State.bump16 (s : State) (a lo : Nat) : State := s.setRf a lo 16 (min (s.rf a lo 16 + 1) 0xFFFF)

/-- The state with every listed stored register back at its reset value. -/
def State.resetRegs (s : State) (p : Nat → Bool) : State := { s with regs := s.regs.filter (fun e => !p e.1) }

/-! ### Vectors by number -/

/-- Entry `i` of a vector, or `d` past its end. -/
def vget {α : Type} {n : Nat} (xs : Vector α n) (i : Nat) (d : α) : α := xs.toList.getD i d

/-- The vector with entry `i` changed, if it has one. -/
def vmod {α : Type} {n : Nat} (xs : Vector α n) (i : Nat) (f : α → α) : Vector α n :=
  if h : i < n then xs.set i (f xs[i]) h else xs

/-! ### Cores -/

/-- Core q. -/
def State.core (s : State) (q : Fin 16) : Core := s.cores[q.val]

/-- The state with core q replaced. -/
def State.setCore (s : State) (q : Fin 16) (c : Core) : State := { s with cores := s.cores.set q.val c }

/-- The state with core q changed. -/
def State.modCore (s : State) (q : Fin 16) (f : Core → Core) : State := s.setCore q (f (s.core q))

/-- A general register of a core; g0 reads 0 (02 R39). -/
def Core.rd (c : Core) (k : Nat) : W32 := if k = 0 then 0 else vget c.g k 0

/-- The core with a general register written; a write to g0 is discarded (02 R39). -/
def Core.wr (c : Core) (k : Nat) (v : W32) : Core := if k = 0 then c else { c with g := vmod c.g k (fun _ => v) }

/-- A register pair as a 64-bit value; g0:g1 reads 0 (12 R315). -/
def Core.pair (c : Core) (k : Nat) : Nat := if k = 0 then 0 else join (c.rd k) (c.rd (k + 1))

/-- The core with a register pair written; a write to g0:g1 is discarded (12 R315). -/
def Core.wrPair (c : Core) (k v : Nat) : Core := if k = 0 then c else (c.wr k (loW v)).wr (k + 1) (hiW v)

/-! ### Hierarchy paths (01 R33, R34) -/

/-- The 64-bit path code of R34 from its fields. -/
def pathCode (depth die k5 i5 k4 i4 k3 i3 k2 i2 i1 : Nat) : W64 :=
  BitVec.ofNat 64 (depth * 2 ^ 61 + die * 2 ^ 59 + k5 * 2 ^ 56 + i5 * 2 ^ 54 + k4 * 2 ^ 50 + i4 * 2 ^ 44 + k3 * 2 ^ 40 +
    i3 * 2 ^ 32 + k2 * 2 ^ 28 + i2 * 2 ^ 16 + i1)

/-- `pkg`: the whole package. -/
def pathPkg : W64 := pathCode 7 0 0 0 0 0 0 0 0 0 0

/-- `die1.sh.blk`b. -/
def pathBlk (b : Nat) : W64 := pathCode 4 1 3 0 5 b 0 0 0 0 0

/-- `die1.sh.blk`b`.unit`e. -/
def pathBlkUnit (b e : Nat) : W64 := pathCode 3 1 3 0 5 b 6 e 0 0 0

/-- `die1.sh.q`n. -/
def pathCore (n : Nat) : W64 := pathCode 4 1 3 0 2 n 0 0 0 0 0

/-- `die`d`.bay`b`.ch`n`.slice`k of a global slice. -/
def pathSlice (die sl : Nat) : W64 := pathCode 3 die 1 (sl / 12) 1 (sl / 3) 1 (sl % 3) 0 0 0

/-- `die0.bay`b`.ch`n`.slice`k`.lane`l of a global slice (04 R105). -/
def pathLane (sl lane : Nat) : W64 := pathCode 2 0 1 (sl / 12) 1 (sl / 3) 1 (sl % 3) 1 lane 0

/-- `die1.bay`b`.ch`n. -/
def pathCh (n : Nat) : W64 := pathCode 4 1 1 (n / 4) 1 n 0 0 0 0 0

/-- `die1.mem`s`.hc`c. -/
def pathHc (st c : Nat) : W64 := pathCode 4 1 2 st 4 c 0 0 0 0 0

/-- The bank of a pseudo-channel inside its stack, `die`(2 + s)`.hc`c`.pc`p`.bank`k. -/
def pathBank (st c p k : Nat) : W64 := pathCode 2 (2 + st) 0 0 4 c 4 p 4 k 0

/-- The path of a Cairn entry of an event source that does not raise one of its own (22 R549; log entry 12): its owning
shared block, or `pkg`. -/
def pathOfSource (src : Nat) : W64 :=
  if src < 4 ∨ src = 12 ∨ src = 13 ∨ src = 14 then pathBlk 0
  else if src = 4 ∨ src = 5 then pathBlk 9
  else if src < 11 then pathBlk 13
  else if 48 ≤ src ∧ src < 64 then pathBlk 1
  else if 80 ≤ src ∧ src < 96 then pathBlk 2
  else if 112 ≤ src ∧ src < 128 then pathBlk 3
  else if 160 ≤ src ∧ src < 176 then pathBlk 6
  else if 176 ≤ src ∧ src < 208 then pathBlk 7
  else if 208 ≤ src ∧ src < 224 then pathBlk 8
  else if 224 ≤ src ∧ src < 232 then pathBlk 10
  else if src = 240 ∨ src = 241 then pathBlk 5
  else if 232 ≤ src ∧ src < 248 then pathBlk 11
  else if 248 ≤ src then pathBlk 13
  else pathPkg

/-! ### Cairn queues (20 R498) -/

/-- An entry joins the always-on queue of 64; a full queue loses it. -/
def State.cairnHw (s : State) (r : CairnReq) : State :=
  if s.cairn.hw.length < 64 then { s with cairn := { s.cairn with hw := s.cairn.hw ++ [r] } }
  else { s with cairn := { s.cairn with lost := s.cairn.lost + 1, unreported := s.cairn.unreported + 1 } }

/-- A record of Aselm's joins its queue of 256; a full queue loses it. -/
def State.cairnFw (s : State) (r : CairnReq) : State :=
  if s.cairn.fw.length < 256 then { s with cairn := { s.cairn with fw := s.cairn.fw ++ [r] } }
  else { s with cairn := { s.cairn with lost := s.cairn.lost + 1, unreported := s.cairn.unreported + 1 } }

/-! ### Event fabric (22) -/

/-- Sources that never assert on the SLW-9620: those of absent inputs, rings and Churn blocks (00 R3). -/
def absentSource (src : Nat) : Bool :=
  (decide (32 ≤ src) && decide (src < 48)) || (decide (68 ≤ src) && decide (src < 72)) ||
  (decide (76 ≤ src) && decide (src < 80)) || (decide (100 ≤ src) && decide (src < 104)) ||
  (decide (108 ≤ src) && decide (src < 112)) || (decide (132 ≤ src) && decide (src < 136)) ||
  (decide (140 ≤ src) && decide (src < 144))

/-- Write-1-to-clear bits `m` of a register are set at elapsed boundary b, and a clear at that boundary leaves them set (R13). -/
def State.freshen (s : State) (b a : Nat) (m : W32) : State :=
  let f := Assoc.get (0, 0) s.evt.fresh a
  { s with evt := { s.evt with fresh := Assoc.put (0, 0) s.evt.fresh a (b + 1, if f.1 = b + 1 then f.2 ||| m else m) } }

/-- Bits of a register that an occurrence at elapsed boundary b has set (R13). -/
def State.freshBits (s : State) (b a : Nat) : W32 :=
  let f := Assoc.get (0, 0) s.evt.fresh a
  if f.1 = b + 1 then f.2 else 0

/-- The state with write-1-to-clear bits of a register set at elapsed boundary b. -/
def State.setBits (s : State) (b a : Nat) (m : W32) : State := (s.setReg a (s.reg a ||| m)).freshen b a m

/-- A request for PF vector `v` at elapsed boundary b enters the event queue, merges, or sets its overflow bit (R545). -/
def State.evtRequest (s : State) (v b : Nat) : State :=
  if s.evt.queue.contains v then s
  else if s.evt.queue.length < 256 then
    { s with evt := { s.evt with queue := s.evt.queue ++ [v], headAt := if s.evt.queue = [] then b else s.evt.headAt } }
  else
    let a := R.evtOvfVec (v / 32)
    (s.setReg a (s.reg a ||| BitVec.ofNat 32 (2 ^ (v % 32)))).setBits b R.evtQueueOvf 0x200

/-- Whether source `src` is masked or its MSI-X route disabled (R544). -/
def State.evtOff (s : State) (src : Nat) : Bool :=
  bit (s.reg (R.evtMask (src / 32))) (src % 32) || !bit (s.reg (R.evtMsixRoute src)) 11

/-- The MSI-X route acts on an occurrence at elapsed boundary `b` (R544). -/
def State.evtMsix (s : State) (src b : Nat) : State :=
  if s.evtOff src then { s with evt := { s.evt with coal := Assoc.put ⟨0, 0⟩ s.evt.coal src ⟨0, 0⟩ } }
  else
    let w := s.reg (R.evtMsixRoute src)
    let k := Assoc.get ⟨0, 0⟩ s.evt.coal src
    let k' : Coal := { c := k.c + 1, t1 := if k.c = 0 then b else k.t1 }
    let n := max 1 (fld w 12 8)
    let t := fld w 20 12
    if n ≤ k'.c ∨ (t ≠ 0 ∧ k'.t1 + t * 8192 ≤ b) then
      ({ s with evt := { s.evt with coal := Assoc.put ⟨0, 0⟩ s.evt.coal src ⟨0, 0⟩ } }).evtRequest (fld w 0 11) b
    else { s with evt := { s.evt with coal := Assoc.put ⟨0, 0⟩ s.evt.coal src k' } }

/-- The TRIGOUT route acts on an occurrence at `b` (R548): a pulse from b + 512 of `width` CK_DP. -/
def State.evtTrigout (s : State) (src b : Nat) : State :=
  let w := s.reg (R.evtRoute src)
  let m := fld w 16 2
  let c := s.reg (R.trigOutCtrl m)
  if bit w 18 && !bit c 0 then
    { s with trigout := vmod s.trigout m (fun l => l ++ [{ start := b + 512, stop := b + 512 + max 1 (fld c 7 8) * 128, on := false, src := src }]) }
  else s

/-- The Cairn route acts on an occurrence (R549). -/
def State.evtCairn (s : State) (src : Nat) (path : W64) : State :=
  let w := s.reg (R.evtRoute src)
  if bit w 19 then s.cairnHw { code := src, severity := fld w 20 2, detail := fld (s.reg (R.evtCount src)) 0 16, path := path } else s

/-- A WAIT of a core that names `src` sees an occurrence at `b`, where the count's low word is `low`, when its route is
enabled (R328, R547). -/
def Core.seeEvent (c : Core) (src b : Nat) (low : W32) (routed : Bool) : Core :=
  { c with
    waiting := match c.waiting with
      | some (.wait gd sr st tmo none) => if sr = src ∧ routed ∧ st ≤ b then some (.wait gd sr st tmo (some (b, low))) else c.waiting
      | w => w
    groups := c.groups.map (fun g => match g.cond, g.seen with
      | .event sr _, none => if sr = src ∧ g.bMin ≤ b ∧ g.late = false ∧ g.expire.all (fun x => decide (b < x)) then { g with seen := some b } else g
      | _, _ => g) }

/-- One occurrence of a source at elapsed boundary b (R537, R538): status, count, routes, WAITs and event groups. Further assertions at
the same boundary are part of it. -/
def State.raiseAt (s : State) (b src : Nat) (path : W64) : State :=
  if s.is9620 && absentSource src then s
  else if Assoc.get 0 s.evt.last src = b + 1 then s
  else
    let s := s.setBits b (R.evtStatus (src / 32)) (BitVec.ofNat 32 (2 ^ (src % 32)))
    let s := s.bump (R.evtCount src)
    let s := { s with evt := { s.evt with last := Assoc.put 0 s.evt.last src (b + 1) } }
    let s := s.evtMsix src b
    let s := s.evtTrigout src b
    let s := s.evtCairn src path
    let routes := s.reg (R.evtRoute src)
    { s with cores := s.cores.mapFinIdx (fun i c _ => c.seeEvent src b (loW (s.countAt b)) (bit routes i)) }

/-- An occurrence at the first boundary at or after now (R537). -/
def State.raiseP (s : State) (src : Nat) (path : W64) : State := s.raiseAt s.boundary src path

/-- An occurrence with the path of the source's owning block. -/
def State.raise (s : State) (src : Nat) : State := s.raiseP src (pathOfSource src)

/-! ### Settle windows (04 R118) -/

/-- A settle window from elapsed tick t to `e` opens, joined with one that is open (04 R118, R122). -/
def Input.openSettle (x : Input) (t e : Nat) : Input :=
  if x.settling ∧ t ≤ x.settleEnd then { x with settleEnd := max x.settleEnd e }
  else { x with settles := (x.settleFrom, x.settleEnd) :: x.settles, settleFrom := t, settleEnd := e, settling := true }

/-- Some vector of the elapsed ticks from t to u is a settle vector (04 R118). -/
def Input.settledIn (x : Input) (t u : Nat) : Bool :=
  ((x.settleFrom, x.settleEnd) :: x.settles).any (fun w => decide (w.1 ≤ u) && decide (t / 128 * 128 < w.2))

/-- The first CK_DP boundary at or after elapsed tick t, and not before now. -/
def State.boundaryFrom (s : State) (t : Nat) : Nat := alignUp (max s.now t) 128

/-- An occurrence at elapsed boundary b of a source shared by the cores, with its bit in the register of R541. -/
def State.raiseCoreAt (s : State) (b src a : Nat) (q : Nat) : State :=
  (s.setBits b a (BitVec.ofNat 32 (2 ^ q))).raiseAt b src (if src = 9 then pathCore q else pathOfSource src)

/-- Such an occurrence at the first boundary at or after now. -/
def State.raiseCore (s : State) (src a : Nat) (q : Nat) : State := s.raiseCoreAt s.boundary src a q

/-- A twin of the holder at `path` fails its check (00 R16, 22 R542): counted, the first path recorded (the lowest of one
boundary), and TWIN_MISMATCH raised at elapsed boundary b. -/
def State.twinMismatchAt (s : State) (b : Nat) (path : W64) : State :=
  let w := s.reg R.evtTwinInfo
  let same := Assoc.get 0 s.evt.last 11 = b + 1
  let here := bit (s.freshBits b R.evtTwinInfo) 31
  let keep := bit w 31 && !(here && decide (path.toNat < s.reg64 R.evtTwinPath))
  let s' := s.setReg R.evtTwinInfo (setFld w 0 16 (min (fld w 0 16 + 1) 0xFFFF))
  let s' := if keep then s' else (s'.setBits b R.evtTwinInfo 0x80000000).setReg64 R.evtTwinPath path.toNat
  if same then s'.evtCairn 11 path else s'.raiseAt b 11 path

/-- A twin fails its check now. -/
def State.twinMismatch (s : State) (path : W64) : State := s.twinMismatchAt s.boundary path

/-! ### Timestamps (03 R69, R70) -/

/-- `unlocked` of a KTS taken now (R70). -/
def State.unlocked (s : State) : Bool :=
  decide (s.ref.state ≠ .locked) ||
  (s.rf R.nodCtrl 0 2 == 2 && (s.nod.state != 4 || s.nod.upUnlocked))

/-- A Nodric follower in state ALIGNED (R69). -/
def State.aligned (s : State) : Bool := s.rf R.nodCtrl 0 2 == 2 && s.nod.state == 4

/-- What a KTS says of the time base has changed now, from `old` (R69, R70). -/
def State.relock (old s : State) : State :=
  if (s.unlocked == old.unlocked && s.aligned == old.aligned) || s.ref.lockTick == s.now then s
  else { s with ref := { s.ref with lockTick := s.now, lockWas := old.unlocked, alignWas := old.aligned } }

/-- `unlocked` of a KTS taken at an elapsed tick that has passed (R70). -/
def State.unlockedAt (s : State) (t : Nat) : Bool := if t < s.ref.lockTick then s.ref.lockWas else s.unlocked

/-- The elapsed boundary of the last Keystone action (R86). -/
def State.actionTick (s : State) : Nat := (s.reg64 R.ksLastNew + (2 ^ 64 - s.ks.base)) % 2 ^ 64

/-- The count at an elapsed tick that has passed: before the last action it is that of the scale before it (R86). -/
def State.stampAt (s : State) (t : Nat) : Nat :=
  if t < s.actionTick then (s.reg64 R.ksLastOld + 2 ^ 64 - (s.actionTick - t)) % 2 ^ 64 else s.countAt t

/-- Word 2 of a KTS taken now (R69). -/
def State.ktsWord2 (s : State) (frac : Nat) (interpolated : Bool) (source : Nat) : W32 :=
  pack [(0, frac % 65536), (16, b2n s.unlocked), (17, b2n interpolated), (18, source),
    (22, b2n s.aligned), (24, s.rf R.ksEpoch 0 4)]

/-- Word 2 of a KTS taken at an elapsed tick that has passed (R69, R70): one change of the marks and one action are looked back
past (log entry 39). -/
def State.ktsWord2At (s : State) (t frac : Nat) (interpolated : Bool) (source : Nat) : W32 :=
  pack [(0, frac % 65536), (16, b2n (s.unlockedAt t)), (17, b2n interpolated), (18, source),
    (22, b2n (if t < s.ref.lockTick then s.ref.alignWas else s.aligned)),
    (24, (s.rf R.ksEpoch 0 4 + (if t < s.actionTick then 15 else 0)) % 16)]

/-- The three words of a KTS taken now, of tick count `k`. -/
def State.kts (s : State) (k frac : Nat) (interpolated : Bool) (source : Nat) : List W32 :=
  [loW k, hiW k, s.ktsWord2 frac interpolated source]

/-- Words stored in consecutive registers. -/
def State.setRegs (s : State) (a : Nat) : List W32 → State
  | [] => s
  | w :: r => (s.setReg a w).setRegs (a + 4) r

/-! ### Memories -/

/-- The state with bytes posted to host memory. -/
def State.hostWrite (s : State) (a : Nat) (bs : List Byte) : State := { s with hostMem := Mem.write s.hostMem a bs }

/-- The mapped DPA range of the part (00 R2, 14 R344). -/
def State.dpaTop (s : State) : Nat := if s.is9620 then 0x600000000 else 0xC00000000

/-- The thermal throttle is on (20 R494). -/
def State.throttle (s : State) : Bool := s.mgt.throttle

/-- The number of inputs (R2). -/
def State.inputs (s : State) : Nat := if s.is9620 then 4 else 8

/-- Numbers drawn from a read latch of R22. -/
def State.latchGet (s : State) (rdr a : Nat) : Option W32 := (s.latches.find? (fun l => l.reader = rdr ∧ l.addr = a)).map (·.val)

/-- The state with a word latched for a reader (R22). -/
def State.latchSet (s : State) (rdr a : Nat) (v : W32) : State :=
  { s with latches := { reader := rdr, addr := a, val := v } :: s.latches.filter (fun l => ¬ (l.reader = rdr ∧ l.addr = a)) }

/-! ### The SMEM arbiter (R42) -/

/-- Words that the arbiter has still to serve. -/
def smemLeft (jobs : List SmemJob) : Nat := jobs.foldl (fun n j => n + j.left) 0

/-- The place of a requester in the order Q0 to Q15, host window, Q0 after the one served last: 0 is next. -/
def smemPlace (last req : Nat) : Nat := (req + 16 - last) % 17

/-- The access that the arbiter serves next: that of the first waiting requester after the one served last, the oldest of its own. -/
def smemPick (last : Nat) (jobs : List SmemJob) : Option Nat :=
  (jobs.zipIdx.foldl (fun m x =>
    if x.1.left = 0 then m
    else match m with
      | some y => if smemPlace last x.1.req < smemPlace last y.1.req then some x else m
      | none => some x) none).map (·.2)

/-- Byte x of SMEM lies in word k of an access. -/
def SmemJob.holds (j : SmemJob) (k x : Nat) : Bool := decide (j.lo + 4 * k ≤ x) && decide (x < min j.hi (j.lo + 4 * k + 4))

/-- Word k of store `j` is in SMEM: what the accesses keep of the bytes under it follows. -/
def SmemJob.over (j : SmemJob) (k : Nat) (y : SmemJob) : SmemJob :=
  { y with under := y.under.mapIdx (fun o b => if j.holds k (y.lo + o) then j.data.getD (y.lo + o - j.lo) 0 else b) }

/-- One word of access i is served. -/
def smemServe (i last : Nat) (jobs : List SmemJob) : Nat × List SmemJob :=
  match jobs[i]? with
  | none => (last, jobs)
  | some j =>
    let jobs := modAt jobs i (fun j => { j with left := j.left - 1 })
    (j.req, if j.store then jobs.map (j.over (j.words - j.left)) else jobs)

/-- Cycles of the arbiter, one word in each: the requester served last, and the accesses with what is left of them. -/
def smemRun : Nat → Nat → List SmemJob → Nat × List SmemJob
  | 0, last, jobs => (last, jobs)
  | n + 1, last, jobs => match smemPick last jobs with
    | none => (last, jobs)
    | some i => let r := smemServe i last jobs; smemRun n r.1 r.2

/-- The accesses, by number, that the next n cycles serve, one for each word. -/
def smemOrder : Nat → Nat → List SmemJob → List Nat
  | 0, _, _ => []
  | n + 1, last, jobs => match smemPick last jobs with
    | none => []
    | some i => let r := smemServe i last jobs; i :: smemOrder n r.1 r.2

/-- The cycle in which word k of those left of access i is served. -/
def smemSlot (order : List Nat) (i k : Nat) : Nat := ((order.zipIdx.filter (fun x => x.1 == i)).map (·.2)).getD k 0

/-- The cycles that an access waits for the arbiter, at most 16 for each of its words, seen from elapsed edge e. -/
def smemWait (order : List Nat) (e i : Nat) (j : SmemJob) : Nat :=
  min (16 * j.words) ((e - j.start) / 64 + smemSlot order i (j.left - 1) + 1 - j.words)

/-- The arbiter serves up to elapsed edge e; accesses that are served whole leave it. -/
def State.smemTo (s : State) (e : Nat) : State :=
  let r := smemRun (min ((e - s.smemNext) / 64) (smemLeft s.smemJobs)) s.smemLast s.smemJobs
  { s with smemLast := r.1, smemJobs := r.2.filter (fun j => j.left != 0), smemNext := max s.smemNext e }

/-- A requester begins an access of n words at elapsed edge e. -/
def State.smemJoin (s : State) (req e lo hi n : Nat) (store : Bool) : State :=
  let s := s.smemTo e
  { s with smemJobs := s.smemJobs ++ [{ req := req, lo := lo, hi := hi, store := store, start := e, words := n, left := n, waited := 0, data := [], under := [], gd := 0, regs := 0 }] }

/-- The order in which the arbiter serves what waits. -/
def State.smemOrder (s : State) : List Nat := Machine.smemOrder (smemLeft s.smemJobs) s.smemLast s.smemJobs

/-- The wait of an access changes with those that come to meet it, and its core's next instruction moves with it; `own` is the
requester whose instruction begins. -/
def State.smemCharge (s : State) (own e : Nat) : State :=
  let order := s.smemOrder
  let jobs := s.smemJobs.mapIdx (fun i j => { j with waited := smemWait order e i j })
  { s with
    smemJobs := jobs
    cores := s.cores.mapFinIdx (fun q c _ => if q = own then c else
      { c with edge := c.edge + (jobs.zip s.smemJobs).foldl (fun n x => if x.1.req = q then n + 64 * (x.1.waited - x.2.waited) else n) 0 }) }

/-- The cycles that an access of n words to the bytes of SMEM from `lo` to below `hi` waits for the arbiter (R40, R42), and the state
with it under way. -/
def State.smemTurn (s : State) (req e lo hi n : Nat) (store : Bool) : Nat × State :=
  let s := (s.smemJoin req e lo hi n store).smemCharge req e
  (((s.smemJobs.getLast?).elim 0 (·.waited)), s)

/-- Stores that wait and hold byte x in a word not yet served, each with the cycle in which that is. -/
def State.smemStores (s : State) (x : Nat) : List (SmemJob × Nat) :=
  (s.smemJobs.zipIdx.filter (fun y => y.1.store && decide (y.1.lo ≤ x) && decide (x < y.1.hi) && decide (y.1.words - y.1.left ≤ (x - y.1.lo) / 4))).map
    (fun y => (y.1, smemSlot s.smemOrder y.2 ((x - y.1.lo) / 4 - (y.1.words - y.1.left))))

/-- Byte x of SMEM as cycle m of the arbiter finds it (R42): the stores served before that cycle have taken effect. -/
def State.smemAt (s : State) (m x : Nat) : Byte :=
  let ys := s.smemStores x
  match (ys.filter (fun y => y.2 < m)).foldl (fun (a : Option (SmemJob × Nat)) y => match a with
      | some z => if z.2 < y.2 then some y else a
      | none => some y) none with
  | some y => y.1.data.getD (x - y.1.lo) 0
  | none => match ys with
    | [] => Mem.byte s.smem x
    | y :: _ => y.1.under.getD (x - y.1.lo) 0

/-- The bytes that access i reads, each in its word's cycle. -/
def State.smemSeen (s : State) (i : Nat) : List Byte :=
  match s.smemJobs[i]? with
  | none => []
  | some j => (List.range (j.hi - j.lo)).map (fun o => s.smemAt (smemSlot s.smemOrder i (o / 4 - (j.words - j.left))) (j.lo + o))

/-- The bytes that the last access reads. -/
def State.smemRead (s : State) : List Byte := s.smemSeen (s.smemJobs.length - 1)

/-- The words of a load not yet served are read again, since the stores before them have changed, while its core has not begun the
next instruction. -/
def State.smemAgain (s : State) (i : Nat) (j : SmemJob) : State :=
  if h : j.req < 16 then
    if j.store || (s.core ⟨j.req, h⟩).edge != j.start + 64 * (1 + j.words + j.waited) then s
    else
      let bs := s.smemSeen i
      s.modCore ⟨j.req, h⟩ (fun c => (List.range j.regs).foldl (fun c r =>
        if j.words - j.left ≤ r then c.wr (j.gd + r) (BitVec.ofNat 32 (ofBytes ((bs.drop (4 * r)).take 4))) else c) c)
  else s

/-- The last access keeps its operands: a store its bytes and those under them, a load its registers; loads that wait are read again. -/
def State.smemKeep (s : State) (data : List Byte) (gd regs : Nat) : State :=
  let n := s.smemJobs.length - 1
  let others := { s with smemJobs := s.smemJobs.take n }
  let s := { s with smemJobs := modAt s.smemJobs n (fun j => { j with
    data := data, under := (List.range data.length).map (fun o => others.smemAt 0 (j.lo + o)), gd := gd, regs := regs }) }
  s.smemJobs.zipIdx.foldl (fun s y => s.smemAgain y.2 y.1) s

/-- The host window's turn for `len` bytes of SMEM from offset `lo` on (R42), at now. -/
def State.smemHost (s : State) (lo len : Nat) (store : Bool) : State :=
  (s.smemTurn 16 (alignUp s.now 64) lo (lo + len) ((len + 3) / 4) store).2

/-- What the host window reads from SMEM, in its turn. -/
def State.smemFetch (s : State) (lo len : Nat) : List Byte × State :=
  let s := (s.smemHost lo len false).smemKeep [] 0 0
  (s.smemRead, s)

/-- A store that is served in a later cycle than word k of the last access holds byte x. -/
def State.smemLater (s : State) (x k : Nat) : Bool :=
  let order := s.smemOrder
  let me := s.smemJobs.length - 1
  (s.smemJobs.take me).zipIdx.any (fun y => y.1.store && decide (y.1.lo ≤ x) && decide (x < y.1.hi) &&
    decide (y.1.words - y.1.left ≤ (x - y.1.lo) / 4) &&
    decide (smemSlot order me k < smemSlot order y.2 ((x - y.1.lo) / 4 - (y.1.words - y.1.left))))

/-- The bytes that the last access leaves in SMEM from offset `a` on: where a store of the same byte is served in a later cycle, that
one wins (R42). -/
def State.smemBytes (s : State) (a : Nat) (bs : List Byte) : List Byte :=
  bs.zipIdx.map (fun x => if s.smemLater (a + x.2) (x.2 / 4) then Mem.byte s.smem (a + x.2) else x.1)

/-- The last access stores its bytes to SMEM from offset `a` on. -/
def State.smemPut (s : State) (a : Nat) (bs : List Byte) : State :=
  let s := s.smemKeep bs 0 0
  { s with smem := Mem.write s.smem a (s.smemBytes a bs) }

/-- The last value staged to a register. -/
def lastWrite (ws : List Staged) (a : Nat) : Option W32 :=
  ws.foldl (fun m w => match w with
    | .reg x v => if x = a then some v else m
    | _ => m) none

end Sys2Proof.Machine
end

