-- ==== Sys2Proof/Machine/Hbm.lean ====
section
/-! DEFINITION. HBM as the address map lays it out (14 R343 to R348): where a DPA is stored, what a line completes with, and
the bytes that requesters read and write. A requester's own commands write their lines as accepted at once (log
entry 15). -/

namespace Sys2Proof.Machine

/-- Parity of the bits of a number, over `n` bits. -/
def parity : Nat → Nat → Nat
  | 0, _ => 0
  | n + 1, x => (x % 2 + parity n (x / 2)) % 2

/-- Select bit k of a line's DPA under its mask (R346); bits above the SID field never take part. -/
def selBit (sidTop : Nat) (mask : W32) (dpa : Nat) : Nat := parity 28 (mask.toNat &&& (dpa % 2 ^ sidTop / 256))

/-- The number of select bits as one number: stack, channel, pseudo-channel, bank group, bank (R346). -/
def selBits (sidTop : Nat) : List W32 → Nat → Nat
  | [], _ => 0
  | m :: r, dpa => selBit sidTop m dpa + 2 * selBits sidTop r dpa

/-- The masks in force as words (R347): the last that passed their checks. -/
def State.mapMasks (s : State) : List W32 := s.mem.good

/-- Where a mapped DPA is stored (R345, R346): engine, bank (bank group x 4 + bank), SID, row, column. -/
structure Place where
  engine : Nat
  bank : Nat
  sid : Nat
  row : Nat
  col : Nat
  deriving DecidableEq, Repr

/-- The place of a DPA under masks (R345, R346). -/
def placeOf (is9620 : Bool) (masks : List W32) (dpa : Nat) : Place :=
  let top := if is9620 then 35 else 36
  let k := if is9620 then 1 else 0
  let sb := selBits top masks dpa
  let stack := if is9620 then 0 else sb % 2
  let ch := sb / 2 % 16
  let pc := sb / 32 % 2
  let bg := sb / 64 % 4
  let bank := sb / 256 % 4
  { engine := stack * 32 + ch * 2 + pc, bank := bg * 4 + bank, sid := dpa / 2 ^ (34 - k) % 4,
    row := dpa / 2 ^ (20 - k) % 2 ^ 14, col := dpa / 64 % 4 + dpa / 2 ^ (18 - k) % 4 * 4 }

/-- The place of a DPA under the mapping in force. -/
def State.place (s : State) (dpa : Nat) : Place := placeOf s.is9620 s.mapMasks dpa

/-- The storage location of the first byte of a place's line. -/
def Place.loc (p : Place) : Nat := p.engine * 2 ^ 30 + p.sid * 2 ^ 28 + p.bank * 2 ^ 24 + p.row * 2 ^ 10 + p.col * 64

/-- The channel of an engine. -/
def chanOfEngine (e : Nat) : Nat := e / 2

/-- An HBM channel by number, stack x 16 + c. -/
def State.hchan (s : State) (c : Nat) : HChan := vget s.mem.chans c HChan.reset

/-- An engine by number. -/
def State.engine (s : State) (e : Nat) : Engine := vget s.mem.engines e Engine.reset

/-- The path of a place's bank (R343). -/
def Place.path (p : Place) : W64 := pathBank (p.engine / 32) (p.engine / 2 % 16) (p.engine % 2) p.bank

/-- What a line of this DPA completes with (R344, R368, R389; 21 R529): 0 OK, 1 ADDR_ERR, 2 POISON. -/
def State.lineStatus (s : State) (dpa : Nat) : Nat :=
  if s.dpaTop ≤ dpa ∨ s.mode.memReady = false then 1
  else
    let e := (s.place dpa).engine
    if (s.hchan (chanOfEngine e)).fenced ∨ s.mem.testing.testBit e then 2 else 0

/-- The worst status of the lines of `n` bytes from `a`: POISON over ADDR_ERR over OK. -/
def State.memStatus (s : State) (a n : Nat) : Nat :=
  (List.range ((a % 64 + n + 63) / 64)).foldl (fun w i => max w (s.lineStatus ((a / 64 + i) * 64))) 0

/-- A line completes ADDR_ERR (R344). -/
def State.addrErr (s : State) (port dpa : Nat) (write : Bool) : State :=
  let s := if bit (s.reg R.memAddrErrHi) 31 then s
    else (s.setReg R.memAddrErrLo (loW dpa)).setReg R.memAddrErrHi (pack [(0, dpa / 2 ^ 32 % 256), (8, port), (13, b2n write), (31, 1)])
  (s.freshen s.boundary R.memAddrErrHi 0x80000000).raise 144

/-- A line completes POISON (R370): counted, the first recorded with its cause, and MEM_POISON. -/
def State.linePoison (s : State) (port dpa : Nat) (write : Bool) (cause : Nat) : State :=
  let s := s.bump R.memPoisonCount
  let s := if bit (s.reg R.memPoisonHi) 31 then s
    else ((s.setReg64 R.memPoisonPath (s.place dpa).path.toNat).setReg R.memPoisonLo (loW dpa)).setReg R.memPoisonHi
      (pack [(0, dpa / 2 ^ 32 % 256), (8, port), (13, b2n write), (14, cause), (31, 1)])
  (s.freshen s.boundary R.memPoisonHi 0x80000000).raise 147

/-- What the stored bytes of a location are kept relative to: 0, or a free value where the engine's contents are undefined
(log entry 7). -/
def State.lostBase (s : State) (loc : Nat) : Byte :=
  match Assoc.get 0 s.mem.lost (loc / 2 ^ 30) with
  | 0 => 0
  | k + 1 => Config.lostByte k loc

/-- The byte at a storage location. -/
def State.locByte (s : State) (loc : Nat) : Byte := Mem.byte s.hbm loc + s.lostBase loc

/-- The state with a byte stored at a location. -/
def State.setLoc (s : State) (loc : Nat) (b : Byte) : State := { s with hbm := Mem.setByte s.hbm loc (b - s.lostBase loc) }

/-- Bytes from a location, rising. -/
def State.locBytes (s : State) (loc : Nat) : Nat → List Byte
  | 0 => []
  | n + 1 => s.locByte loc :: s.locBytes (loc + 1) n

/-- The state with bytes stored from a location, rising. -/
def State.setLocs (s : State) (loc : Nat) : List Byte → State
  | [] => s
  | b :: r => (s.setLoc loc b).setLocs (loc + 1) r

/-- The contents of an engine become undefined (R368, R382, R389; log entry 7). -/
def State.loseEngine (s : State) (e : Nat) : State :=
  { s with
    hbm := s.hbm.filter (fun c => c.1 / 2 ^ 30 ≠ e)
    mem := { s.mem with lost := Assoc.put 0 s.mem.lost e (s.freeCtr + 1) }
    freeCtr := s.freeCtr + 1 }

/-- The state with an engine changed. -/
def State.modEngine (s : State) (e : Nat) (f : Engine → Engine) : State := { s with mem := { s.mem with engines := vmod s.mem.engines e f } }

/-- The state with a channel changed. -/
def State.modHchan (s : State) (c : Nat) (f : HChan → HChan) : State := { s with mem := { s.mem with chans := vmod s.mem.chans c f } }

/-- A channel accepts a line now: its idle timer restarts, and it leaves self-refresh (R381). -/
def State.wakeChan (s : State) (c : Nat) : State :=
  if (s.hchan c).sr = 1 then (s.bump R.memSrLate).modHchan c (fun h => { h with sr := 2, srWake := s.now, idleSince := s.now })
  else s.modHchan c (fun h => { h with idleSince := s.now })

/-- A port's line is accepted by the engine of its place (R352, R365, R381). -/
def State.lineTaken (s : State) (port a : Nat) : State := (s.bump (R.memPortLines port)).wakeChan (chanOfEngine (s.place a).engine)

/-- Bytes of `old` replaced by those of `new` where its mask chooses. -/
def overlay (old new : List Byte) (mask : Nat) : List Byte :=
  (List.range 64).map (fun i => if mask.testBit i then new.getD i 0 else old.getD i 0)

/-- A write merges into the queued entry of its line (R354). -/
def mergeWrite (l : MLine) : List MLine → List MLine
  | [] => []
  | w :: r => if w.dpa = l.dpa then { w with mask := w.mask ||| l.mask, data := overlay w.data l.data l.mask } :: r else w :: mergeWrite l r

/-- The write entry of a line that an engine's queue holds. -/
def State.queuedWrite (s : State) (a : Nat) : Option MLine := (s.engine (s.place a).engine).wq.find? (fun w => w.dpa == a)

/-- Bytes accepted into line a at offset `off`: merged into the entry of the line that its engine's queue holds (R354), else stored. -/
def State.lineBytes (s : State) (a off : Nat) (bs : List Byte) : State :=
  match s.queuedWrite a with
  | some w =>
    let l := { w with mask := (2 ^ bs.length - 1) * 2 ^ off, data := List.replicate off 0 ++ bs }
    s.modEngine (s.place a).engine (fun x => { x with wq := mergeWrite l x.wq })
  | none => s.setLocs ((s.place a).loc + off) bs

/-- One line, or a part of one, written by a port (R344, R352): outside the map it is discarded, on a fenced or tested
channel it completes POISON. -/
def State.putLine (s : State) (port a : Nat) (bs : List Byte) : State :=
  match s.lineStatus a with
  | 0 => (s.lineTaken port (a / 64 * 64)).lineBytes (a / 64 * 64) (a % 64) bs
  | 1 => s.addrErr port (a / 64 * 64) true
  | _ => (s.bump (R.memPortLines port)).linePoison port (a / 64 * 64) true 3

/-- Bytes written by a port from DPA `a`, line by line; `fuel` bounds the lines. -/
def State.memPutN (s : State) (port : Nat) : Nat → Nat → List Byte → State
  | 0, _, _ => s
  | _ + 1, _, [] => s
  | fuel + 1, a, b :: bs =>
    let n := 64 - a % 64
    (s.putLine port a ((b :: bs).take n)).memPutN port fuel (a + n) ((b :: bs).drop n)

/-- Bytes written by a port from DPA `a` (R349). -/
def State.memPut (s : State) (port a : Nat) (bs : List Byte) : State := s.memPutN port (bs.length / 64 + 2) a bs

/-- Words written by a port (R7). -/
def State.memWords (s : State) (port a : Nat) (ws : List W32) : State := s.memPut port a (ws.flatMap (fun w => leBytes 4 w.toNat))

/-- What a line that a port reads delivers (R344, R353, R370): its bytes with those of its queued write, 0xFF outside the map, undefined for
POISON (log entry 7). -/
def State.readLine (s : State) (a : Nat) : List Byte :=
  match s.lineStatus a with
  | 0 => match s.queuedWrite a with
    | some w => overlay (s.locBytes (s.place a).loc 64) w.data w.mask
    | none => s.locBytes (s.place a).loc 64
  | 1 => List.replicate 64 0xFF
  | _ => (List.range 64).map (Config.lostByte s.freeCtr)

/-- A line read by a port, with its status and its effects (R344, R370). -/
def State.getLine (s : State) (port a : Nat) : List Byte × Nat × State :=
  match s.lineStatus a with
  | 0 => (s.readLine a, 0, s.lineTaken port a)
  | 1 => (s.readLine a, 1, s.addrErr port a false)
  | _ => (s.readLine a, 2, { (s.bump (R.memPortLines port)).linePoison port a false 3 with freeCtr := s.freeCtr + 1 })

/-- Bytes that DPAs from `a` name, as a reader finds them. -/
def State.dpaBytes (s : State) (a n : Nat) : List Byte :=
  (((List.range ((a % 64 + n + 63) / 64)).flatMap (fun i => s.readLine ((a / 64 + i) * 64))).drop (a % 64)).take n

/-- Words of a byte list, least significant byte first (R7). -/
def wordsOf : List Byte → List W32
  | a :: b :: c :: d :: r => BitVec.ofNat 32 (ofBytes [a, b, c, d]) :: wordsOf r
  | _ => []

/-- Words that DPAs from `a` name. -/
def State.dpaWords (s : State) (a n : Nat) : List W32 := wordsOf (s.dpaBytes a (4 * n))

/-- A Cairn record of Aselm's (20 R497); the severity of these records is stated nowhere: a free value (log entry 7). -/
def State.cairnRecord (s : State) (code detail : Nat) (path : W64) : State :=
  let (f, s) := s.free
  s.cairnFw { code := code, severity := f.toNat % 4, detail := detail % 65536, path := path }

end Sys2Proof.Machine
end

