-- ==== Sys2Proof/Machine/CoreBase.lean ====
section
/-! DEFINITION. How an instruction of a core retires, waits and faults (02 R40, R61, R66; 12 R316). -/

namespace Sys2Proof.Machine

/-- The core's run state once nothing more executes: HALTING while DRDs are outstanding, else HALTED (R61). -/
def Core.toHalt (c : Core) : Core :=
  { c with run := if c.drds = [] then .halted else .halting, stepping := false, waiting := none, met := none }

/-- The core goes on at word address `pc` from elapsed edge `t`; a stepped core halts (R61, R316). -/
def Core.goOn (c : Core) (t : Nat) (pc : W32) : Core :=
  let c := { c with edge := t, pc := pc, waiting := none, met := none, run := .running }
  if c.stepping then c.toHalt else c

/-- A waiting instruction retires at elapsed edge `t` (R316). -/
def Core.retireAt (c : Core) (t : Nat) : Core := c.goOn t (c.pc + 1)

/-- The core stops as FAULTED with a cause, the faulting address and the detail (R66). -/
def Core.toFault (c : Core) (cause : Nat) (pc info : W32) : Core :=
  { c with run := .faulted, stepping := false, waiting := none, met := none, cause := pack [(0, cause), (8, pc.toNat % 4096)], info := info }

/-- The condition that a waiting core waits for is met at elapsed tick t, unless it was met before (R316). -/
def Core.meets (c : Core) (t : Nat) : Core := { c with met := if c.waiting.isSome && c.met.isNone then some t else c.met }

/-- A fault of core q (R66): state, cause, PC and detail, and SEQ_FAULT with the core's path at elapsed boundary b. -/
def State.coreFaultAt (s : State) (b : Nat) (q : Fin 16) (cause : Nat) (info : W32) : State :=
  (s.modCore q (fun c => c.toFault cause c.pc info)).raiseCoreAt b 9 R.evtCoresFault q

/-- A fault of core q now. -/
def State.coreFault (s : State) (q : Fin 16) (cause : Nat) (info : W32) : State := s.coreFaultAt s.boundary q cause info

/-- What executing an instruction comes to. -/
inductive InstrEnd where
  /-- It retires after so many CK_CTL cycles, and the next instruction is at `pc`. -/
  | ok (s : State) (cycles : Nat) (pc : W32)
  /-- It waits, BLOCKED (R40). -/
  | waits (s : State) (w : Waiting)
  /-- It faults with a cause and detail, and has no effect (R66). -/
  | fault (cause : Nat) (info : W32)
  /-- It faults so, found after so many CK_CTL cycles in which it has taken its turns in SMEM (R42). -/
  | fails (s : State) (cause : Nat) (info : W32) (cycles : Nat)

end Sys2Proof.Machine
end

