-- ==== Sys2Proof/Machine/Flags.lean ====
section
/-! DEFINITION. Results and flags of arithmetic, logic and shifts (12 R317, R319), and the conditions of branches (R318). -/

namespace Sys2Proof.Machine

/-- A result with its carry and its signed overflow. -/
structure AluOut where
  r : W32
  c : Bool
  v : Bool
  deriving DecidableEq, Repr

/-- `a + b + cin`: C is the carry out of bit 31, V tells that the signed result overflowed (R317). -/
def addOut (a b : W32) (cin : Bool) : AluOut :=
  let n := a.toNat + b.toNat + b2n cin
  let r : W32 := BitVec.ofNat 32 n
  { r := r, c := decide (2 ^ 32 ≤ n), v := decide (a.toInt + b.toInt + (b2n cin : Nat) ≠ r.toInt) }

/-- `a - b - (1 - cin)`: C is 1 when no borrow occurs, the borrow-in included, V tells that the signed result overflowed
(R317). -/
def subOut (a b : W32) (cin : Bool) : AluOut :=
  let br := 1 - b2n cin
  let r : W32 := BitVec.ofNat 32 (a.toNat + 2 ^ 32 - b.toNat - br)
  { r := r, c := decide (b.toNat + br ≤ a.toNat), v := decide (a.toInt - b.toInt - (br : Nat) ≠ r.toInt) }

/-- `a << k` for k below 32: C is the last bit shifted out, 0 for a shift of 0 (R317). -/
def shlOut (a : W32) (k : Nat) : AluOut := { r := a <<< k, c := decide (k ≠ 0) && a.getLsbD (32 - k), v := false }

/-- `a >> k` with zero fill. -/
def shrOut (a : W32) (k : Nat) : AluOut := { r := a >>> k, c := decide (k ≠ 0) && a.getLsbD (k - 1), v := false }

/-- `a >> k` with sign fill. -/
def sarOut (a : W32) (k : Nat) : AluOut := { r := a.sshiftRight k, c := decide (k ≠ 0) && a.getLsbD (k - 1), v := false }

/-- Bits [63:32] of the unsigned product. -/
def mulhuWord (a b : W32) : W32 := BitVec.ofNat 32 (a.toNat * b.toNat / 2 ^ 32)

/-- Flags Z and N from a result; the others are kept (R317). -/
def Core.setZN (c : Core) (r : W32) : Core := { c with fz := decide (r = 0), fn := r.msb }

/-- Flags Z, N and C. -/
def Core.setZNC (c : Core) (o : AluOut) : Core := { c.setZN o.r with fc := o.c }

/-- Flags Z, N, C and V. -/
def Core.setZNCV (c : Core) (o : AluOut) : Core := { c.setZNC o with fv := o.v }

/-- The condition of a branch; 15 is a reserved value (R318). -/
def Core.cond (c : Core) (k : BitVec 4) : Bool :=
  match k.toNat with
  | 0 => true
  | 1 => c.fz
  | 2 => !c.fz
  | 3 => c.fc
  | 4 => !c.fc
  | 5 => c.fn
  | 6 => !c.fn
  | 7 => c.fv
  | 8 => !c.fv
  | 9 => c.fc && !c.fz
  | 10 => !c.fc || c.fz
  | 11 => c.fn == c.fv
  | 12 => c.fn != c.fv
  | 13 => !c.fz && c.fn == c.fv
  | 14 => c.fz || c.fn != c.fv
  | _ => false

end Sys2Proof.Machine
end

