-- ==== Sys2Proof/Machine/Operands.lean ====
section
/-! DEFINITION. Operand forms of the core instructions: immediates, addresses, ranges of the data space, branch targets,
register ranges, permit units (02 R41, R45; 12 R313, R315, R320, R322, R324, R331). -/

namespace Sys2Proof.Machine

/-- sext(imm15). -/
def sext15 (i : BitVec 15) : W32 := i.signExtend 32

/-- zext(imm15). -/
def zext15 (i : BitVec 15) : W32 := i.setWidth 32

/-- `[ga + imm]`: ga + sext(imm15), modulo 2^32. -/
def Core.ea (c : Core) (ga : Fin 32) (i : BitVec 15) : W32 := c.rd ga + sext15 i

/-- A branch target: the address of the branch + sext(off13) (R322). -/
def target (pc : W32) (off : BitVec 13) : W32 := pc + off.signExtend 32

/-- The range of R41 that holds the n bytes from a: false DMEM, true SMEM. -/
def dataRange (a n : Nat) : Option Bool :=
  if a + n ≤ 0x2000 then some false else if 0x10000 ≤ a ∧ a + n ≤ 0x50000 then some true else none

/-- The DCS address of ga + sext(imm15): bits [23:0] (R324). -/
def Core.dcsAddr (c : Core) (ga : Fin 32) (i : BitVec 15) : W32 := c.ea ga i &&& 0xFFFFFF

/-- An address that halts with DCS_ADDR (R45). -/
def dcsBad (a : W32) : Bool := decide (a.toNat % 4 ≠ 0) || decide (0x800000 ≤ a.toNat)

/-- The values of n registers from k, rising. -/
def Core.rdN (c : Core) (k n : Nat) : List W32 := (List.range n).map (fun i => c.rd (k + i))

/-- The core with words written to the registers from k on. -/
def Core.wrN (c : Core) (k : Nat) : List W32 → Core
  | [] => c
  | w :: r => (c.wr k w).wrN (k + 1) r

/-- The units of a PERMIT, a 34-bit value (R331). -/
def permitUnits (v : Nat) : Units := { core := v % 1024, conv := v / 2 ^ 10 % 256, hbm0 := v / 2 ^ 18 % 256, hbm1 := v / 2 ^ 26 % 256 }

end Sys2Proof.Machine
end

