-- ==== Sys2Proof/Machine/Ashlar.lean ====
section
/-! DEFINITION. The instructions of Ashlar as the words of IMEM spell them (12 R312 to R314): encodings, decoding, reserved
encodings, and the registers that an instruction reads or writes (R337). -/

namespace Sys2Proof.Machine

/-- An instruction with its fields, as its row of 12 gives them. -/
inductive Op where
  | add (gd ga gb : Fin 32) | addc (gd ga gb : Fin 32) | sub (gd ga gb : Fin 32) | subc (gd ga gb : Fin 32)
  | and (gd ga gb : Fin 32) | or (gd ga gb : Fin 32) | xor (gd ga gb : Fin 32)
  | shl (gd ga gb : Fin 32) | shr (gd ga gb : Fin 32) | sar (gd ga gb : Fin 32)
  | mul (gd ga gb : Fin 32) | mulhu (gd ga gb : Fin 32) | cmp (ga gb : Fin 32) | tst (ga gb : Fin 32)
  | addi (gd ga : Fin 32) (imm : BitVec 15) | andi (gd ga : Fin 32) (imm : BitVec 15) | ori (gd ga : Fin 32) (imm : BitVec 15)
  | xori (gd ga : Fin 32) (imm : BitVec 15) | shli (gd ga : Fin 32) (imm : BitVec 15) | shri (gd ga : Fin 32) (imm : BitVec 15)
  | sari (gd ga : Fin 32) (imm : BitVec 15) | cmpi (ga : Fin 32) (imm : BitVec 15) | li (gd : Fin 32) (imm32 : W32)
  | ldw (gd ga : Fin 32) (imm : BitVec 15) | ldb (gd ga : Fin 32) (imm : BitVec 15)
  | stw (gd ga : Fin 32) (imm : BitVec 15) | stb (gd ga : Fin 32) (imm : BitVec 15)
  | ldtw (gd ga : Fin 32) (n : BitVec 4) | sttw (gd ga : Fin 32) (n : BitVec 4)
  | branch (cond : BitVec 4) (off : BitVec 13) | call (off : BitVec 13) | ret | loop (ga : Fin 32) (off : BitVec 13) | jr (ga : Fin 32)
  | halt | nop
  | dwr (gd ga : Fin 32) (imm : BitVec 15) | dwri (ga : Fin 32) (imm : BitVec 15) (imm32 : W32) | drd (gd ga : Fin 32) (imm : BitVec 15)
  | commit (gd ga : Fin 32) (discard : Bool) | commitev (gd ga : Fin 32) (src : BitVec 8) | cwait (gd ga : Fin 32)
  | syncz (ga : Fin 32) (m : BitVec 4)
  | tick (gd : Fin 32) | wait (gd : Fin 32) (src : BitVec 8) (gb : Fin 32) | waitt (ga : Fin 32) | sig (n : BitVec 4)
  | permit (gd ga gb : Fin 32) (kind : BitVec 4) | release (n : BitVec 4) | dstart (gd ga : Fin 32) (n m : BitVec 4)
  | mbx (gd ga : Fin 32) (n m : BitVec 4) | semtake (n : BitVec 4) | semtry (n : BitVec 4) | semgive (n : BitVec 4)
  deriving DecidableEq, Repr

/-- A word from its opcode and its fields d, a and the bits from 17 up. -/
def wordOf (op d a hi : Nat) : W32 := BitVec.ofNat 32 (op + d * 2 ^ 7 + a * 2 ^ 12 + hi * 2 ^ 17)

/-- A word of format F3. -/
def wordF3 (op a cond off : Nat) : W32 := BitVec.ofNat 32 (op + a * 2 ^ 7 + cond * 2 ^ 12 + off * 2 ^ 16)

/-- The IMEM words of an instruction (R312, R313). -/
def Op.words : Op → List W32
  | .add d a b => [wordOf 0x01 d a b]
  | .addc d a b => [wordOf 0x02 d a b]
  | .sub d a b => [wordOf 0x03 d a b]
  | .subc d a b => [wordOf 0x04 d a b]
  | .and d a b => [wordOf 0x05 d a b]
  | .or d a b => [wordOf 0x06 d a b]
  | .xor d a b => [wordOf 0x07 d a b]
  | .shl d a b => [wordOf 0x08 d a b]
  | .shr d a b => [wordOf 0x09 d a b]
  | .sar d a b => [wordOf 0x0A d a b]
  | .mul d a b => [wordOf 0x0B d a b]
  | .mulhu d a b => [wordOf 0x0C d a b]
  | .cmp a b => [wordOf 0x0D 0 a b]
  | .tst a b => [wordOf 0x0E 0 a b]
  | .addi d a i => [wordOf 0x10 d a i.toNat]
  | .andi d a i => [wordOf 0x11 d a i.toNat]
  | .ori d a i => [wordOf 0x12 d a i.toNat]
  | .xori d a i => [wordOf 0x13 d a i.toNat]
  | .shli d a i => [wordOf 0x14 d a i.toNat]
  | .shri d a i => [wordOf 0x15 d a i.toNat]
  | .sari d a i => [wordOf 0x16 d a i.toNat]
  | .cmpi a i => [wordOf 0x17 0 a i.toNat]
  | .li d w => [wordOf 0x18 d 0 0, w]
  | .ldw d a i => [wordOf 0x20 d a i.toNat]
  | .ldb d a i => [wordOf 0x21 d a i.toNat]
  | .stw d a i => [wordOf 0x24 d a i.toNat]
  | .stb d a i => [wordOf 0x25 d a i.toNat]
  | .ldtw d a n => [wordOf 0x28 d a n.toNat]
  | .sttw d a n => [wordOf 0x29 d a n.toNat]
  | .branch c o => [wordF3 0x30 0 c.toNat o.toNat]
  | .call o => [wordF3 0x31 0 0 o.toNat]
  | .ret => [wordF3 0x32 0 0 0]
  | .loop a o => [wordF3 0x33 a 0 o.toNat]
  | .jr a => [wordF3 0x34 a 0 0]
  | .halt => [wordOf 0x35 0 0 0]
  | .nop => [wordOf 0x36 0 0 0]
  | .dwr d a i => [wordOf 0x40 d a i.toNat]
  | .dwri a i w => [wordOf 0x41 0 a i.toNat, w]
  | .drd d a i => [wordOf 0x42 d a i.toNat]
  | .commit d a p => [wordOf 0x43 d a (b2n p * 2 ^ 13)]
  | .commitev d a src => [wordOf 0x44 d a (src.toNat * 2 ^ 5)]
  | .cwait d a => [wordOf 0x45 d a 0]
  | .syncz a m => [wordOf 0x46 0 a (m.toNat * 2 ^ 4)]
  | .wait d src b => [wordOf 0x48 d 0 (b + src.toNat * 2 ^ 5)]
  | .waitt a => [wordOf 0x49 0 a 0]
  | .sig n => [wordOf 0x4A 0 0 n.toNat]
  | .tick d => [wordOf 0x4B d 0 0]
  | .permit d a b k => [wordOf 0x50 d a (b + k.toNat * 2 ^ 5)]
  | .release n => [wordOf 0x51 0 0 n.toNat]
  | .dstart d a n m => [wordOf 0x52 d a (n.toNat + m.toNat * 2 ^ 4)]
  | .mbx d a n m => [wordOf 0x53 d a (n.toNat + m.toNat * 2 ^ 4)]
  | .semtake n => [wordOf 0x54 0 0 n.toNat]
  | .semtry n => [wordOf 0x55 0 0 n.toNat]
  | .semgive n => [wordOf 0x56 0 0 n.toNat]

/-- Words of an instruction: 2 for F4. -/
def Op.size : Op → Nat
  | .li _ _ => 2
  | .dwri _ _ _ => 2
  | _ => 1

/-- Reserved values and register pairs that name an odd register (R314), as far as the fields of `Op` can hold them. -/
def Op.ok : Op → Bool
  | .shli _ _ i => decide (i.toNat < 32)
  | .shri _ _ i => decide (i.toNat < 32)
  | .sari _ _ i => decide (i.toNat < 32)
  | .ldtw d _ n => decide (1 ≤ n.toNat) && decide (n.toNat ≤ 3) && decide (d.val + n.toNat ≤ 32)
  | .sttw d _ n => decide (1 ≤ n.toNat) && decide (n.toNat ≤ 3) && decide (d.val + n.toNat ≤ 32)
  | .branch c _ => decide (c.toNat ≠ 15)
  | .commit _ a _ => decide (a.val % 2 = 0)
  | .commitev _ a _ => decide (a.val % 2 = 0)
  | .syncz a m => decide (m.toNat = 0 ∧ a.val = 0) || decide (m.toNat = 1)
  | .tick d => decide (d.val % 2 = 0)
  | .waitt a => decide (a.val % 2 = 0)
  | .sig n => decide (n.toNat < 8)
  | .permit _ a _ _ => decide (a.val % 2 = 0)
  | .dstart d a n m => decide (n.toNat < 4) && (decide (m.toNat = 0 ∧ a.val = 0) || decide (m.toNat = 1 ∧ d.val = 0))
  | .mbx d a n m => decide (m.toNat < 8) &&
      (if m.toNat % 2 = 0 then decide (a.val = 0) && decide (1 ≤ n.toNat) && decide (n.toNat ≤ 8) && decide (d.val + n.toNat ≤ 32)
       else decide (n.toNat = 0) && decide (d.val ≤ 24))
  | _ => true

/-- The registers that an instruction reads or writes (R337). -/
def Op.uses : Op → List Nat
  | .add d a b => [d, a, b]
  | .addc d a b => [d, a, b]
  | .sub d a b => [d, a, b]
  | .subc d a b => [d, a, b]
  | .and d a b => [d, a, b]
  | .or d a b => [d, a, b]
  | .xor d a b => [d, a, b]
  | .shl d a b => [d, a, b]
  | .shr d a b => [d, a, b]
  | .sar d a b => [d, a, b]
  | .mul d a b => [d, a, b]
  | .mulhu d a b => [d, a, b]
  | .cmp a b => [a, b]
  | .tst a b => [a, b]
  | .addi d a _ => [d, a]
  | .andi d a _ => [d, a]
  | .ori d a _ => [d, a]
  | .xori d a _ => [d, a]
  | .shli d a _ => [d, a]
  | .shri d a _ => [d, a]
  | .sari d a _ => [d, a]
  | .cmpi a _ => [a]
  | .li d _ => [d]
  | .ldw d a _ => [d, a]
  | .ldb d a _ => [d, a]
  | .stw d a _ => [d, a]
  | .stb d a _ => [d, a]
  | .ldtw d a n => a.val :: (List.range n.toNat).map (d.val + ·)
  | .sttw d a n => a.val :: (List.range n.toNat).map (d.val + ·)
  | .branch _ _ => []
  | .call _ => []
  | .ret => []
  | .loop a _ => [a]
  | .jr a => [a]
  | .halt => []
  | .nop => []
  | .dwr d a _ => [d, a]
  | .dwri a _ _ => [a]
  | .drd d a _ => [d, a]
  | .commit d a _ => [d, a, a.val + 1]
  | .commitev d a _ => [d, a, a.val + 1]
  | .cwait d a => [d, a]
  | .syncz a m => if m = 0 then [] else [a]
  | .tick d => [d, d.val + 1]
  | .wait d _ b => [d, b]
  | .waitt a => [a, a.val + 1]
  | .sig _ => []
  | .permit d a b _ => [d, a, a.val + 1, b]
  | .release _ => []
  | .dstart _ a _ m => if m = 0 then [] else [a]
  | .mbx d a n m => if m.toNat % 2 = 0 then (List.range n.toNat).map (d.val + ·) else a.val :: (List.range 8).map (d.val + ·)
  | .semtake _ => []
  | .semtry _ => []
  | .semgive _ => []

/-- Field d of a word. -/
def fd (n : Nat) : Fin 32 := Fin.ofNat 32 (n / 2 ^ 7 % 32)
/-- Field a. -/
def fa (n : Nat) : Fin 32 := Fin.ofNat 32 (n / 2 ^ 12 % 32)
/-- Field b. -/
def fb (n : Nat) : Fin 32 := Fin.ofNat 32 (n / 2 ^ 17 % 32)
/-- Field imm15. -/
def fi (n : Nat) : BitVec 15 := BitVec.ofNat 15 (n / 2 ^ 17)
/-- Field n of F6. -/
def fn6 (n : Nat) : BitVec 4 := BitVec.ofNat 4 (n / 2 ^ 17)
/-- Field m of F6. -/
def fm6 (n : Nat) : BitVec 4 := BitVec.ofNat 4 (n / 2 ^ 21)
/-- Field off13 of F3. -/
def foff (n : Nat) : BitVec 13 := BitVec.ofNat 13 (n / 2 ^ 16)

/-- The instruction that a word spells by its opcode and its fields, `w1` the word after it; what its row marks 0 is judged by
`decodeOp`. -/
def readOp (w w1 : W32) : Option Op :=
  let n := w.toNat
  match n % 128 with
  | 0x01 => some (.add (fd n) (fa n) (fb n))
  | 0x02 => some (.addc (fd n) (fa n) (fb n))
  | 0x03 => some (.sub (fd n) (fa n) (fb n))
  | 0x04 => some (.subc (fd n) (fa n) (fb n))
  | 0x05 => some (.and (fd n) (fa n) (fb n))
  | 0x06 => some (.or (fd n) (fa n) (fb n))
  | 0x07 => some (.xor (fd n) (fa n) (fb n))
  | 0x08 => some (.shl (fd n) (fa n) (fb n))
  | 0x09 => some (.shr (fd n) (fa n) (fb n))
  | 0x0A => some (.sar (fd n) (fa n) (fb n))
  | 0x0B => some (.mul (fd n) (fa n) (fb n))
  | 0x0C => some (.mulhu (fd n) (fa n) (fb n))
  | 0x0D => some (.cmp (fa n) (fb n))
  | 0x0E => some (.tst (fa n) (fb n))
  | 0x10 => some (.addi (fd n) (fa n) (fi n))
  | 0x11 => some (.andi (fd n) (fa n) (fi n))
  | 0x12 => some (.ori (fd n) (fa n) (fi n))
  | 0x13 => some (.xori (fd n) (fa n) (fi n))
  | 0x14 => some (.shli (fd n) (fa n) (fi n))
  | 0x15 => some (.shri (fd n) (fa n) (fi n))
  | 0x16 => some (.sari (fd n) (fa n) (fi n))
  | 0x17 => some (.cmpi (fa n) (fi n))
  | 0x18 => some (.li (fd n) w1)
  | 0x20 => some (.ldw (fd n) (fa n) (fi n))
  | 0x21 => some (.ldb (fd n) (fa n) (fi n))
  | 0x24 => some (.stw (fd n) (fa n) (fi n))
  | 0x25 => some (.stb (fd n) (fa n) (fi n))
  | 0x28 => some (.ldtw (fd n) (fa n) (fn6 n))
  | 0x29 => some (.sttw (fd n) (fa n) (fn6 n))
  | 0x30 => some (.branch (BitVec.ofNat 4 (n / 2 ^ 12)) (foff n))
  | 0x31 => some (.call (foff n))
  | 0x32 => some .ret
  | 0x33 => some (.loop (fd n) (foff n))
  | 0x34 => some (.jr (fd n))
  | 0x35 => some .halt
  | 0x36 => some .nop
  | 0x40 => some (.dwr (fd n) (fa n) (fi n))
  | 0x41 => some (.dwri (fa n) (fi n) w1)
  | 0x42 => some (.drd (fd n) (fa n) (fi n))
  | 0x43 => some (.commit (fd n) (fa n) (decide (n / 2 ^ 30 % 2 = 1)))
  | 0x44 => some (.commitev (fd n) (fa n) (BitVec.ofNat 8 (n / 2 ^ 22)))
  | 0x45 => some (.cwait (fd n) (fa n))
  | 0x46 => some (.syncz (fa n) (fm6 n))
  | 0x48 => some (.wait (fd n) (BitVec.ofNat 8 (n / 2 ^ 22)) (fb n))
  | 0x49 => some (.waitt (fa n))
  | 0x4A => some (.sig (fn6 n))
  | 0x4B => some (.tick (fd n))
  | 0x50 => some (.permit (fd n) (fa n) (fb n) (BitVec.ofNat 4 (n / 2 ^ 22)))
  | 0x51 => some (.release (fn6 n))
  | 0x52 => some (.dstart (fd n) (fa n) (fn6 n) (fm6 n))
  | 0x53 => some (.mbx (fd n) (fa n) (fn6 n) (fm6 n))
  | 0x54 => some (.semtake (fn6 n))
  | 0x55 => some (.semtry (fn6 n))
  | 0x56 => some (.semgive (fn6 n))
  | _ => none

/-- The instruction of an IMEM word, `w1` the word after it; none for a reserved encoding (R314): an opcode without a row, a
field that the row marks 0 and that is not, a reserved value, an odd register pair. -/
def decodeOp (w w1 : W32) : Option Op :=
  match readOp w w1 with
  | some op => if op.words.head? = some w && op.ok then some op else none
  | none => none

end Sys2Proof.Machine
end

