-- ==== Sys2Proof/WellFormed.lean ====
section
/-! DEFINITION. Which commands are well formed: an Ashlar instruction that no reserved encoding spells (12 R314), and operands of the
sizes and ranges that their commands have. -/

namespace Sys2Proof

open Machine (Op)

/-- The core and the instruction of a command that executes one. -/
def Instr.op : Instr → Option (Fin 16 × Op)
  | .add q d a b => some (q, .add d a b)
  | .addc q d a b => some (q, .addc d a b)
  | .sub q d a b => some (q, .sub d a b)
  | .subc q d a b => some (q, .subc d a b)
  | .and q d a b => some (q, .and d a b)
  | .or q d a b => some (q, .or d a b)
  | .xor q d a b => some (q, .xor d a b)
  | .shl q d a b => some (q, .shl d a b)
  | .shr q d a b => some (q, .shr d a b)
  | .sar q d a b => some (q, .sar d a b)
  | .mul q d a b => some (q, .mul d a b)
  | .mulhu q d a b => some (q, .mulhu d a b)
  | .cmp q a b => some (q, .cmp a b)
  | .tst q a b => some (q, .tst a b)
  | .addi q d a i => some (q, .addi d a i)
  | .andi q d a i => some (q, .andi d a i)
  | .ori q d a i => some (q, .ori d a i)
  | .xori q d a i => some (q, .xori d a i)
  | .shli q d a i => some (q, .shli d a i)
  | .shri q d a i => some (q, .shri d a i)
  | .sari q d a i => some (q, .sari d a i)
  | .cmpi q a i => some (q, .cmpi a i)
  | .li q d w => some (q, .li d w)
  | .ldw q d a i => some (q, .ldw d a i)
  | .ldb q d a i => some (q, .ldb d a i)
  | .stw q d a i => some (q, .stw d a i)
  | .stb q d a i => some (q, .stb d a i)
  | .ldtw q d a n => some (q, .ldtw d a n)
  | .sttw q d a n => some (q, .sttw d a n)
  | .bCond q c o => some (q, .branch c o)
  | .call q o => some (q, .call o)
  | .ret q => some (q, .ret)
  | .loop q a o => some (q, .loop a o)
  | .jr q a => some (q, .jr a)
  | .halt q => some (q, .halt)
  | .nop q => some (q, .nop)
  | .dwr q d a i => some (q, .dwr d a i)
  | .dwri q a i w => some (q, .dwri a i w)
  | .drd q d a i => some (q, .drd d a i)
  | .commit q d a p => some (q, .commit d a p)
  | .commitev q d a src => some (q, .commitev d a src)
  | .cwait q d a => some (q, .cwait d a)
  | .synczZero q => some (q, .syncz 0 0)
  | .synczOffset q a => some (q, .syncz a 1)
  | .tick q d => some (q, .tick d)
  | .wait q d src b => some (q, .wait d src b)
  | .waitt q a => some (q, .waitt a)
  | .sig q n => some (q, .sig n)
  | .permit q d a b k => some (q, .permit d a b k)
  | .release q k => some (q, .release k)
  | .mbxSend q d n t => some (q, .mbx d 0 n (if t then 2 else 0))
  | .mbxReceive q d a t => some (q, .mbx d a 0 (if t then 3 else 1))
  | .mbxMgtSend q d n t => some (q, .mbx d 0 n (if t then 6 else 4))
  | .mbxMgtReceive q d a t => some (q, .mbx d a 0 (if t then 7 else 5))
  | .semtake q n => some (q, .semtake n)
  | .semtry q n => some (q, .semtry n)
  | .semgive q n => some (q, .semgive n)
  | _ => none

/-- A command is well formed. -/
def Instr.wf (i : Instr) : Bool :=
  match i.op with
  | some o => o.2.ok
  | none => match i with
    | .seqStart _ w => w.getLsbD 0
    | .seqResume _ w => w.getLsbD 1
    | .seqHaltReq _ w => w.getLsbD 2
    | .seqStep _ w => w.getLsbD 3
    | .coreReset _ w => w.getLsbD 4
    | .seqH2cPost _ w => w.getLsbD 8
    | .hostImemWrite _ off _ => decide (off.toNat % 4 = 0)
    | .registerWrite a _ => decide (a.toNat % 4 = 0)
    | .tmrCalCountDone _ hits => decide (hits.length = 512)
    | .vfFlr v => decide (v.val ≠ 0)
    | .bar2Access _ wr n _ => match wr with
      | some bs => decide (1 ≤ bs.length)
      | none => decide (1 ≤ n.toNat)
    | .dmaSetLoadDone _ _ ws => decide (ws.length = 16)
    | .thermSample ts => decide (ts.length = 32)
    | _ => true

end Sys2Proof
end

