-- ==== Sys2Proof/Decode.lean ====
section
/-! DEFINITION. Decoding of a command from a table word. The rows of the opcode table give no bits: commands reach the block by name
(Ashlar's own encodings, which IMEM holds, are in Machine/Ashlar.lean). -/

namespace Sys2Proof

/-- No row of the table gives bits, so no word spells a command. -/
def decodeTableWord (_nbits _w : Nat) : Option Instr := none

end Sys2Proof
end

