-- ==== Sys2Proof/Machine/MgtBase.lean ====
section
/-! DEFINITION. What the blocks share with the management plane (20_management.md): settings in force, the mailbox's answers,
held events, alert causes. -/

namespace Sys2Proof.Machine

/-- The state with the management plane changed. -/
def State.modMgt (s : State) (f : Mgt → Mgt) : State := { s with mgt := f s.mgt }

/-- The newer copy of the settings store (R499). -/
def Mgt.newest (m : Mgt) : SetCopy :=
  m.sets.foldl (fun a b => if a.seq < b.seq then b else a) { seq := 0, schema := 0, items := setDefaults }

/-- The value of a settings item in force (R499, R511): reset values while the store cannot be read, and *cold* items as they
were at the last cold reset. -/
def State.setting (s : State) (i : Nat) : Nat :=
  if s.mgt.incompatible then ((setDefaults).getD i 0).toNat
  else if i < 2 then (s.mgt.cold.getD i 0).toNat
  else (s.mgt.newest.items.getD i 0).toNat

/-- A source that Aselm raises (R487): held while a management restart runs, at most 64. -/
def State.raiseMgt (s : State) (src : Nat) : State :=
  if s.mgt.state = 2 then (if s.mgt.held.length < 64 then s.modMgt (fun m => { m with held := m.held ++ [src] }) else s)
  else s.raise src

/-- An SMBus alert cause is set (R500). -/
def State.smbAlert (s : State) (bit_ : Nat) : State := s.modMgt (fun m => { m with alerts := m.alerts ||| 2 ^ bit_ })

/-! ### Mailbox slots (R26, R490) -/

/-- A mailbox slot. -/
def State.mslot (s : State) (k : Nat) : MSlot := vget s.mgt.slots k MSlot.reset

/-- The state with a slot changed. -/
def State.modSlot (s : State) (k : Nat) (f : MSlot → MSlot) : State := s.modMgt (fun m => { m with slots := vmod m.slots k f })

/-- The command of a slot's request. -/
def MSlot.cmd (x : MSlot) : Nat := fld (x.req.getD 0 0) 0 8

/-- Argument word i of a slot's request. -/
def MSlot.arg (x : MSlot) (i : Nat) : W32 := x.req.getD i 0

/-- Slot k is answered with a status and result words (R490): unused words are 0. An answer that a host reset discards is
not written (21 R531). -/
def State.mgtAnswer (s : State) (k st : Nat) (ws : List W32) : State :=
  let x := s.mslot k
  let w0 := pack [(0, x.cmd), (8, st), (16, fld (x.arg 0) 16 16)]
  let ans := (w0 :: ws ++ List.replicate 8 0).take 8
  let s := s.modSlot k (fun x =>
    if x.drop then { x with full := false, running := false, drop := false }
    else { x with full := false, running := false, ans := ans, valid := true })
  let s := if h : k < 17 ∧ 0 < k then s.modCore ⟨k - 1, by omega⟩ (fun c => match c.waiting with
      | some (.mgtRecv _ _) => c.meets s.now
      | _ => c) else s
  let s := if k = 0 ∧ ¬ x.drop then s.raiseMgt 233 else s
  if st = 17 then s.raiseMgt 244 else s

/-- The slot whose running request has a command. -/
def State.slotOf (s : State) (cmd : Nat) : Option Nat :=
  (List.range 17).find? (fun k => let x := s.mslot k; x.full && x.running && x.cmd == cmd)

/-- A running request is answered when its work ends, unless a restart has overtaken it (R490). -/
def State.mgtAnswerCmd (s : State) (cmd st : Nat) (ws : List W32) : State :=
  if s.mgt.state = 2 then s
  else match s.slotOf cmd with
    | some k => s.mgtAnswer k st ws
    | none => s

/-- Nominal voltage in mV of the rails of codes 32 to 39 (19 R468, 23 R564). -/
def railNominal (i : Nat) : Nat := [750, 850, 900, 900, 1800, 1100, 1800, 800].getD i 0

/-- Aselm receives a supply conversion of code 32 + i (R493): a rail outside ±supply_tol of nominal is reported. -/
def State.railReading (s : State) (i : Nat) (code : Int) : State :=
  let uv := (max 0 code).toNat * 125 / 2
  let s := s.modMgt (fun m => { m with rails := modAt m.rails i (fun _ => uv / 1000) })
  let nom := railNominal i * 1000
  let tol := nom * s.setting 6 / 1000
  if uv < nom - tol ∨ nom + tol < uv then ((s.cairnRecord 0x109 (32 + i) pathPkg).smbAlert 2).raiseMgt 239 else s

end Sys2Proof.Machine
end

