-- ==== Sys2Proof/Machine/Permits.lean ====
section
/-! DEFINITION. The Power Permit Arbiter (11_power_permits.md): the grant table, the queue, the paced ballast, hand-over
and load fall, and the commands that move them. -/

namespace Sys2Proof.Machine

/-! ### Units and entries -/

/-- Sum of units, rail by rail. -/
def Units.add (a b : Units) : Units :=
  { core := a.core + b.core, conv := a.conv + b.conv, hbm0 := a.hbm0 + b.hbm0, hbm1 := a.hbm1 + b.hbm1 }

/-- Difference of units, rail by rail, at least 0. -/
def Units.sub (a b : Units) : Units :=
  { core := a.core - b.core, conv := a.conv - b.conv, hbm0 := a.hbm0 - b.hbm0, hbm1 := a.hbm1 - b.hbm1 }

/-- Units at most those of `b` on every rail. -/
def Units.le (a b : Units) : Bool :=
  decide (a.core ≤ b.core) && decide (a.conv ≤ b.conv) && decide (a.hbm0 ≤ b.hbm0) && decide (a.hbm1 ≤ b.hbm1)

/-- The rails' limits (R295); no stack 1 on the SLW-9620. -/
def State.limits (s : State) : Units := { core := 600, conv := 160, hbm0 := 200, hbm1 := if s.is9620 then 0 else 200 }

/-- The value of a grant entry (PERMIT_ENTRYe). -/
def entryVal (kind req st : Nat) (u : Units) : W64 :=
  BitVec.ofNat 64 (kind + req * 2 ^ 4 + st * 2 ^ 10 + u.core * 2 ^ 13 + u.conv * 2 ^ 23 + u.hbm0 * 2 ^ 31 + u.hbm1 * 2 ^ 39)

/-- A field of an entry's value. -/
def entryFld (v : W64) (lo len : Nat) : Nat := v.toNat / 2 ^ lo % 2 ^ len

/-- An entry's kind, 0 when free. -/
def Twin64.kind (t : Twin64) : Nat := entryFld t.v 0 4
/-- An entry's requester. -/
def Twin64.req (t : Twin64) : Nat := entryFld t.v 4 6
/-- An entry's state: 0 free, 1 WAITING, 2 RAMPING, 3 GRANTED, 4 SPENT, 5 FROZEN. -/
def Twin64.st (t : Twin64) : Nat := entryFld t.v 10 3
/-- An entry's units. -/
def Twin64.units (t : Twin64) : Units :=
  { core := entryFld t.v 13 10, conv := entryFld t.v 23 8, hbm0 := entryFld t.v 31 8, hbm1 := entryFld t.v 39 8 }
/-- The check of R15. -/
def Twin64.ok (t : Twin64) : Bool := t.n == ~~~ t.v

/-- The twin of a value. -/
def Twin64.mk' (v : W64) : Twin64 := { v := v, n := ~~~ v }

/-- Entry e of the grant table. -/
def State.entry (s : State) (e : Nat) : Twin64 := vget s.permits.entries e (Twin64.mk' 0)

/-- The state with entry e rewritten as a whole twin. -/
def State.setEntry (s : State) (e : Nat) (v : W64) : State :=
  { s with permits := { s.permits with entries := vmod s.permits.entries e (fun _ => Twin64.mk' v) } }

/-- The entry that a requester holds of a kind, in any state (R298). -/
def State.findEntry (s : State) (req kind : Nat) : Option Nat :=
  (List.range 64).find? (fun e => let t := s.entry e; t.st ≠ 0 && t.req == req && t.kind == kind)

/-- The entry that a requester holds GRANTED of a kind. -/
def State.granted (s : State) (req kind : Nat) : Option Nat :=
  (s.findEntry req kind).filter (fun e => (s.entry e).st == 3)

/-- The lowest-numbered free entry (R298; log entry 13). -/
def State.freeEntry (s : State) : Option Nat := (List.range 64).find? (fun e => (s.entry e).st == 0)

/-- Units that an entry's state holds (R295): RAMPING, GRANTED and FROZEN hold theirs. -/
def Twin64.heldUnits (t : Twin64) : Units := if t.st = 2 ∨ t.st = 3 ∨ t.st = 5 then t.units else Units.zero

/-- Units held by every entry but e. -/
def State.otherUnits (s : State) (e : Nat) : Units :=
  ((List.range 64).filter (· ≠ e)).foldl (fun u i => u.add (s.entry i).heldUnits) Units.zero

/-- PERMIT_ALERT with its cause (R299, R307). -/
def State.permitAlert (s : State) (cause what : Nat) : State :=
  (s.setReg R.permitAlertInfo (pack [(0, cause), (2, what), (8, 1)])).raise 241

/-- A use of entry e (R307): an entry that fails its twin check is reported, rebuilt from the rail totals, and marked
FROZEN. -/
def State.useEntry (s : State) (e : Nat) : State :=
  let t := s.entry e
  if t.ok then s
  else
    let s := (s.twinMismatch (pathBlkUnit 5 e)).permitAlert 1 e
    let low : Units := { core := s.permits.lowering + s.permits.rotUnits, conv := 0, hbm0 := 0, hbm1 := 0 }
    let u := (s.permits.held.sub (s.otherUnits e)).sub low
    s.setEntry e (entryVal t.kind t.req 5 u)

/-! ### Returning units, hand-over, fall -/

/-- Units leave an entry whose ballast stands at their level (R304): VDD_CORE units wait for the ballast to step down,
the other rails return at once. -/
def State.returnUnits (s : State) (u : Units) : State :=
  { s with permits := { s.permits with
      lowering := s.permits.lowering + u.core
      held := s.permits.held.sub { u with core := 0 } } }

/-- Entry e is released, in any state (R299, R304): a waiting request leaves the queue; of a ramping one only the ballast
already raised is lowered. -/
def State.releaseEntry (s : State) (e : Nat) : State :=
  let s := s.useEntry e
  let t := s.entry e
  let s := { s with permits := { s.permits with queue := s.permits.queue.filter (fun r => ¬ (r.req = t.req ∧ r.kind = t.kind)) } }
  let s :=
    if t.st = 2 then
      let raised := t.units.core - s.permits.rampUp
      { s with permits := { s.permits with
          rampUp := 0
          held := s.permits.held.sub { t.units with core := t.units.core - raised }
          lowering := s.permits.lowering + raised } }
    else if t.st = 3 ∨ t.st = 5 then s.returnUnits t.units
    else if t.st = 4 ∧ t.kind = 11 then
      let s := s.returnUnits { Units.zero with core := s.permits.rotUnits }
      { s with permits := { s.permits with rotUnits := 0 } }
    else s
  s.setEntry e 0

/-- Everything a requester holds or waits for of a kind is removed. -/
def State.dropPermit (s : State) (req kind : Nat) : State :=
  match s.findEntry req kind with
  | some e => s.releaseEntry e
  | none => { s with permits := { s.permits with queue := s.permits.queue.filter (fun r => ¬ (r.req = req ∧ r.kind = kind)) } }

/-- Every entry of a requester is released. -/
def State.dropAllPermits (s : State) (req : Nat) : State :=
  (List.range 16).foldl (fun s k => s.dropPermit req k) s

/-- The hand-over of `cost` from entry e (R302): the cost moves into the load accounts, the ballast falls by its VDD_CORE
units, the entry becomes SPENT, and its remainder returns; a STANDING entry keeps `rot` rotation units (R305). -/
def State.handOver (s : State) (e : Nat) (cost : Units) (rot : Nat) : State :=
  let s := s.useEntry e
  let t := s.entry e
  if t.st ≠ 3 then s
  else
    let rem := t.units.sub (cost.add { Units.zero with core := rot })
    let s := { s with permits := { s.permits with
      load := s.permits.load.add cost
      held := s.permits.held.sub cost
      ballast := s.permits.ballast - cost.core
      rotUnits := s.permits.rotUnits + rot } }
    (s.returnUnits rem).setEntry e (entryVal t.kind t.req 4 { Units.zero with core := rot })

/-- A counted load falls (R304): the ballast rises by its VDD_CORE units and is lowered step by step; the other rails'
units return at once. -/
def State.loadFall (s : State) (u : Units) : State :=
  { s with permits := { s.permits with
      load := s.permits.load.sub u
      ballast := s.permits.ballast + u.core
      lowering := s.permits.lowering + u.core
      held := { s.permits.held with core := s.permits.held.core + u.core } } }

/-! ### Requests -/

/-- Whether a request of these units is refused at once (R297): more than a limit, or a unit of an absent rail. -/
def State.refuses (s : State) (u : Units) : Bool := !(u.le s.limits)

/-- A request enters the queue (R298, R300), by the CK_CTL cycle of its arrival and its requester's number, with a WAITING entry when one is free. A SPENT or FROZEN entry of the kind
is released first (R299). -/
def State.enqueue (s : State) (req kind : Nat) (u : Units) (arrival : Nat) (deadline : Option Nat) : State :=
  let s := match s.findEntry req kind with
    | some e => s.releaseEntry e
    | none => s
  let e := s.freeEntry
  let s := match e with
    | some e => s.setEntry e (entryVal kind req 1 u)
    | none => s
  let r : PReq := { req := req, kind := kind, units := u, arrival := arrival, deadline := deadline, entry := e }
  let first := fun (x : PReq) => x.arrival / 64 < arrival / 64 ∨ (x.arrival / 64 = arrival / 64 ∧ x.req ≤ req)
  { s with permits := { s.permits with queue := s.permits.queue.filter (fun x => first x) ++ r :: s.permits.queue.filter (fun x => ¬ first x) } }

/-- A device requester asks (R297, R299): refused with PERMIT_ALERT, or queued. -/
def State.askPermit (s : State) (req kind : Nat) (u : Units) (timeout : Option Nat) : State :=
  if s.refuses u then s.permitAlert 2 req
  else s.enqueue req kind u s.now (timeout.map (fun t => alignUp s.now 128 + t))

/-- Units held and loaded leave room for `u` on every rail (R295). -/
def State.fits (s : State) (u : Units) : Bool := ((s.permits.load.add s.permits.held).add u).le s.limits

/-- The head of the queue, with an entry given to it if one has become free (R298). -/
def State.queueHead (s : State) : Option PReq :=
  match s.permits.queue with
  | [] => none
  | r :: _ => match r.entry with
    | some _ => some r
    | none => (s.freeEntry).map (fun e => { r with entry := some e })

/-- A core's PERMIT for this entry ends with status `st`, in the cycle after the one that holds boundary `b` (R331). -/
def Core.permitDone (c : Core) (kind b : Nat) (st : Nat) : Core :=
  match c.waiting with
  | some (.permit gd k _) => if k = kind then ((c.wr gd (BitVec.ofNat 32 st)).retireAt (b / 64 * 64 + 128)) else c
  | _ => c

/-- A PERMIT of core `req` (0 to 15) of a kind ends. -/
def State.permitDone (s : State) (req kind b st : Nat) : State :=
  if h : req < 16 then s.modCore ⟨req, h⟩ (fun c => c.permitDone kind b st) else s

/-- A BANDWIDTH entry is granted: the rate is in force at once (16 R414, 17 R429), so the cost beyond what the requester
already draws is handed over (R302). -/
def State.bandwidthGrant (s : State) (e : Nat) : State :=
  let t := s.entry e
  let old := Assoc.get Units.zero s.permits.bw t.req
  let s := s.handOver e (t.units.sub old) 0
  let s := { s with permits := { s.permits with bw := Assoc.put Units.zero s.permits.bw t.req t.units } }
  if t.req = 19 then { s with tap := { s.tap with covered := s.tap.asked, wait := false } }
  else { s with dma := { s.dma with chans := vmod s.dma.chans (t.req - 32) (fun c => { c with permitWait := false }) } }

/-- The load that a requester draws under BANDWIDTH falls to `u` (R304). -/
def State.bandwidthFall (s : State) (req : Nat) (u : Units) : State :=
  let old := Assoc.get Units.zero s.permits.bw req
  if old = u then s
  else
    let s := { s with permits := { s.permits with bw := Assoc.put Units.zero s.permits.bw req u } }
    s.loadFall (old.sub u)

/-- The cost of a BANDWIDTH entry for a rate in 1/64 GB/s (R297). -/
def State.bandwidthUnits (s : State) (r : Nat) : Units :=
  let n := ceilDiv (r - 2048) 512
  let k := if s.is9620 then 1 else 2
  { core := 3 * n * k, conv := 0, hbm0 := 2 * n, hbm1 := if s.is9620 then 0 else 2 * n }

/-- A foreground calibration with its permit granted at boundary b runs (05 R146): its start record is written, and the covered
signals deliver settle vectors up to the install boundary + 256. Their windows close, a forced one with its permit, and a rotate-now
request on them ends NO_SIGNAL (05 R149). -/
def State.fgBegin (s : State) (b : Nat) : State :=
  let n := (bitsOf 8 s.fg.mask).length
  let stop := b + 24000000000 + n * 62000000000 + 256
  let s := { s with fg := { s.fg with phase := 2, step := 0, due := b + 16000000000 } }
  let s := (s.cairnRecord 0x102 s.fg.mask pathPkg).modMgt (fun m => { m with fgOpen := some (s.fg.mask, 0) })
  s.fg.heads.foldl (fun s h =>
    let x := vget s.conv.inputs h Input.reset
    let s := if x.window.any (·.forced) then s.loadFall { Units.zero with core := 2 } else s
    let s := if x.rn = 1 ∨ x.rn = 3 then s.dropPermit (20 + h) 10 else s
    { s with conv := { s.conv with inputs := vmod s.conv.inputs h (fun x =>
      { (x.openSettle b stop) with window := none, rn := if x.rn = 1 ∨ x.rn = 3 then 6 else x.rn }) } }) s

/-- The request of entry e, which has failed its check and is FROZEN, is answered at boundary `b` (R299, R307): a core's PERMIT ends with
status FROZEN; a device requester releases the entry and requests again. -/
def State.frozenAnswer (s : State) (e b : Nat) : State :=
  let t := s.entry e
  if t.req < 16 then s.permitDone t.req t.kind b 4 else (s.releaseEntry e).enqueue t.req t.kind t.units b none

/-- Entry e would become GRANTED at boundary `b` (R301, R307), unless it fails its check; a core's PERMIT ends with 0 GRANTED. The mode
controller's E follows its grant by 1,024 ticks (21 R519). -/
def State.grantEntry (s : State) (e b : Nat) : State :=
  let s := s.useEntry e
  let t := s.entry e
  if t.st = 5 then s.frozenAnswer e b
  else
    let s := s.setEntry e (entryVal t.kind t.req 3 t.units)
    if t.kind = 9 then s.bandwidthGrant e
    else if t.kind = 6 then (s.handOver e t.units 0).fgBegin b
    else if t.kind = 11 then { s with mode := { s.mode with due := some (b + 1024) } }
    else s.permitDone t.req t.kind b 0

/-- The earliest boundary at or after now at which the ballast may step (R301): 80 CK_DP after the last step, and at most
68 steps in any 6,250 CK_DP. -/
def State.nextStep (s : State) : Nat :=
  let a := match s.permits.steps with
    | [] => 0
    | t :: _ => t + 10240
  let w := if 68 ≤ s.permits.steps.length then s.permits.steps.getD 67 0 + 800000 else 0
  max s.boundary (max a w)

/-- The step at boundary `b` is recorded. -/
def State.noteStep (s : State) (b : Nat) : State :=
  { s with permits := { s.permits with steps := (b :: s.permits.steps).take 68 } }

/-- The entry that is ramping, if one is. -/
def State.rampingEntry (s : State) : Option Nat := (List.range 64).find? (fun e => (s.entry e).st == 2)

/-- One step up for the ramping entry at boundary `b`; the last one grants it (R301). -/
def State.stepUp (s : State) (e b : Nat) : State :=
  let s := (s.advance b).noteStep b
  let s := { s with permits := { s.permits with ballast := s.permits.ballast + 1, rampUp := s.permits.rampUp - 1 } }
  if s.permits.rampUp = 0 then s.grantEntry e b else s

/-- The head of the queue leaves it at boundary `b` as an entry in state `st`, holding its units (R295, R300), or FROZEN where its WAITING
entry fails its check (R307). Answers whether it goes on. -/
def State.admitHead (s : State) (r : PReq) (e st b : Nat) : Bool × State :=
  let s := s.useEntry e
  let s := { s with permits := { s.permits with queue := s.permits.queue.drop 1 } }
  if (s.entry e).st = 5 then (false, s.frozenAnswer e b)
  else (true, ({ s with permits := { s.permits with held := s.permits.held.add r.units } }).setEntry e (entryVal r.kind r.req st r.units))

/-- The boundary at which the head may start: strictly after its arrival, and not before now (R300). -/
def State.headBoundary (s : State) (r : PReq) : Nat := max s.boundary (boundaryAfter r.arrival)

/-! ### Commands -/

/-- BALLAST_STEP_UP (R300, R301): a step of the ramping entry, or the first step of the head, if it fits and no grants are
held back (R306). -/
def execBallastStepUp (s : State) : Host.Outcome State Fault Refusal := s.awake <|
  match s.rampingEntry with
  | some e => .next (s.stepUp e s.nextStep)
  | none =>
    match s.queueHead with
    | some r => match r.entry with
      | some e =>
        if r.units.core ≠ 0 ∧ s.fits r.units ∧ ¬ s.permits.hold then
          let b := max s.nextStep (s.headBoundary r)
          let w := s.admitHead r e 2 b
          .next (if w.1 then ({ w.2 with permits := { w.2.permits with rampUp := r.units.core } }).stepUp e b else w.2)
        else .next s
      | none => .next s
    | none => .next s

/-- PERMIT_GRANT_DIRECT (R300): a head without VDD_CORE units that fits is GRANTED with no ramp. -/
def execPermitGrantDirect (s : State) : Host.Outcome State Fault Refusal := s.awake <|
  match s.queueHead with
  | some r => match r.entry with
    | some e =>
      if r.units.core = 0 ∧ s.fits r.units ∧ ¬ s.permits.hold then
        let b := s.headBoundary r
        let w := (s.advance b).admitHead r e 1 b
        .next (if w.1 then w.2.grantEntry e b else w.2)
      else .next s
    | none => .next s
  | none => .next s

/-- BALLAST_STEP_DOWN (R301, R304): while nothing ramps up, the ballast falls by one unit, which returns to the budget. -/
def execBallastStepDown (s : State) : Host.Outcome State Fault Refusal := s.awake <|
  if s.permits.rampUp = 0 ∧ s.permits.lowering ≠ 0 then
    let b := s.nextStep
    let s := (s.advance b).noteStep b
    .next { s with permits := { s.permits with
      ballast := s.permits.ballast - 1
      lowering := s.permits.lowering - 1
      held := { s.permits.held with core := s.permits.held.core - 1 } } }
  else .next s

/-- The deadline of a request that is still waiting or ramping (R299). -/
def State.permitDeadline (s : State) (req kind : Nat) : Option Nat :=
  match s.permits.queue.find? (fun r => r.req = req ∧ r.kind = kind) with
  | some r => r.deadline
  | none => if h : req < 16 then
      match (s.core ⟨req, h⟩).waiting with
      | some (.permit _ k d) => if k = kind then d else none
      | _ => none
    else none

/-- The request reaches GRANTED by boundary d (R299, R300): its last ballast step falls by then, or it is the head, fits and needs no ramp. -/
def State.grantsBy (s : State) (req kind d : Nat) : Bool :=
  match s.rampingEntry with
  | some e => (s.entry e).req == req && (s.entry e).kind == kind && s.permits.rampUp == 1 && decide (s.nextStep ≤ d)
  | none => match s.queueHead with
    | some r => r.req == req && r.kind == kind && r.entry.isSome && s.fits r.units && !s.permits.hold &&
        (if r.units.core = 0 then decide (s.headBoundary r ≤ d) else r.units.core == 1 && decide (max s.nextStep (s.headBoundary r) ≤ d))
    | none => false

/-- PERMIT_DENIED (R299): at its deadline a request that is not granted is removed, with any ballast raised for it
lowered; the denial is counted and raised, and a core's PERMIT ends DENIED. One that reaches GRANTED at the same boundary is not denied. -/
def execPermitDenied (req : Fin 64) (kind : BitVec 4) (s : State) : Host.Outcome State Fault Refusal := s.awake <|
  match s.permitDeadline req kind.toNat with
  | none => .next s
  | some d =>
    if s.grantsBy req kind.toNat d then .next s
    else
      let s := s.advance d
      let s := s.dropPermit req kind.toNat
      let s := (s.bump R.permitDeniedCount).raise 240
      .next (s.permitDone req kind.toNat (max d s.now) 1)

/-- LOAD_FALL (R304): the first load that is due to fall at a known boundary, such as the SPAN load at B + 256, falls. -/
def execLoadFall (s : State) : Host.Outcome State Fault Refusal := s.awake <|
  match s.permits.falls with
  | [] => .next s
  | f :: r =>
    let s := s.advance f.due
    .next (({ s with permits := { s.permits with falls := r } }).loadFall f.units)

/-- PERMIT_FORCE (R306): every entry of a named core that is HALTED or FAULTED is released. -/
def execPermitForce (cores : BitVec 16) (s : State) : Host.Outcome State Fault Refusal := s.awake <|
  .next ((List.finRange 16).foldl (fun s q =>
    if cores.getLsbD q.val ∧ ((s.core q).run = .halted ∨ (s.core q).run = .faulted) then s.dropAllPermits q.val else s) s)

end Sys2Proof.Machine
end

