-- ==== Sys2Proof/Machine/Keystone.lean ====
section
/-! DEFINITION. Keystone actions, the reference path, PTM and Nodric (03_time_base.md). -/

namespace Sys2Proof.Machine

/-! ### Commit timing and Keystone actions (02 R51 to R57, 03 R85 to R88) -/

/-- The boundary at which a group falls due, whether it is late, and when it expires, judged from its earliest boundary
in the present count (R52, R53, R54). -/
def State.judge (s : State) (g : Group) : Group :=
  let c := s.countAt g.bMin
  match g.cond with
  | .tick k _ =>
    let bk := alignUp k 128
    { g with due := some (if c ≤ bk then g.bMin + (bk - c) else g.bMin), late := decide (bk < c) }
  | .event _ d =>
    let bd := alignUp d 128
    let x := if c ≤ bd then g.bMin + (bd - c) else g.bMin
    { g with expire := if d = 0 then none else some x }

/-- A held group is compared with the new count after a Keystone action at elapsed boundary `b` (R57): a group due at `b`
stays due there; a named tick that the new count has reached or passed is late at b + 128; a deadline it has reached or
passed expires at b + 128, and no later occurrence counts. -/
def State.rejudge (s : State) (b : Nat) (g : Group) : Group :=
  let c := s.countAt b
  match g.cond with
  | .tick k _ =>
    let bk := alignUp k 128
    if g.due = some b then g
    else if bk ≤ c then { g with due := some (max g.bMin (b + 128)), late := true }
    else { g with due := some (max g.bMin (b + (bk - c))), late := decide (b + (bk - c) < g.bMin) }
  | .event _ d =>
    if d = 0 ∨ g.due.isSome ∨ (g.seen.any (fun x => decide (x < b))) then g
    else if d ≤ c then { g with expire := some (max g.bMin (b + 128)), late := true, seen := none }
    else { g with expire := some (max g.bMin (b + (alignUp d 128 - c))) }

/-- A WAITT compares its target with the count after an action at elapsed boundary `b` (R329). -/
def State.rejudgeWaitt (s : State) (b : Nat) (w : Waiting) : Waiting :=
  match w with
  | .waitt k _ _ =>
    let e1 := s.countAt b
    if e1 < k then .waitt k (alignUp (b + (k - e1)) 64) false
    else if e1 < k + 64 then .waitt k b false
    else .waitt k b true
  | w => w

/-- What a core holds, compared with the new count (R57, R329). -/
def State.rejudgeCore (s : State) (b : Nat) (c : Core) : Core :=
  { c with groups := c.groups.map (s.rejudge b), waiting := c.waiting.map (s.rejudgeWaitt b) }

/-- The Keystone count takes the value `k` at elapsed boundary `b` as one change (R86): epoch, last old and new count, one
occurrence of event `src`, and every held group and WAITT compared with the new count. -/
def State.changeCount (s : State) (b k src : Nat) : State :=
  let old := s.countAt b
  let s := s.advance b
  let s := { s with ks := { s.ks with base := (k % 2 ^ 64 + (2 ^ 64 - b % 2 ^ 64)) % 2 ^ 64 } }
  let s := (s.setReg64 R.ksLastOld old).setReg64 R.ksLastNew (k % 2 ^ 64)
  let s := s.setRf R.ksEpoch 0 4 ((s.rf R.ksEpoch 0 4 + 1) % 16)
  let s := { s with cores := s.cores.map (s.rejudgeCore b) }
  s.raise src

/-- The count `k` is loaded at elapsed boundary `b` (R92, R99, R100): one change of the count, where it is one. -/
def State.loadCount (s : State) (b k : Nat) : State :=
  if s.countAt b = k % 2 ^ 64 then s.advance b else s.changeCount b k 2

/-- The count after one action at a boundary (R85): zero gives 0, an offset adds O CK_DP periods. -/
def actCount (c : Nat) : Staged → Nat
  | .zero => 0
  | .offset o => ((c : Int) + o.toInt * 128).toNat % 2 ^ 64 + (if (c : Int) + o.toInt * 128 < 0 then 2 ^ 64 - (-((c : Int) + o.toInt * 128)).toNat % 2 ^ 64 else 0)
  | .reg _ _ => c

/-- KS_WRAP (R87): at the boundary at which the count wraps to 0, the wrap counts as a SYNC_ZERO, with KS_WRAP in place of
KS_ACTION. -/
def execKsWrap (s : State) : Host.Outcome State Fault Refusal := s.awake <|
  if s.ks.held then .next s
  else .next (s.changeCount (s.now + (2 ^ 64 - s.count)) 0 3)

/-! ### Reference path (R72 to R78) -/

/-- The selected reference: 0 and 1 balls at 10 and 100 MHz, 2 NODRIC, 3 INTERNAL. -/
def State.refSel (s : State) : Nat := s.rf R.refCtrl 0 2

/-- Entry to HOLDOVER (R73, R77): counted, and the slip flag ends. -/
def State.enterHoldover (s : State) : State :=
  s.relock { s with ref := { s.ref with state := .holdover, slip := false, losses := min (s.ref.losses + 1) 0xFFFF, holdStart := s.now } }

/-- What REF_HOLDOVER reads: the present holdover's duration, or the last one's. -/
def State.heldTicks (s : State) : Nat := if s.ref.state = .holdover then s.now - s.ref.holdStart else s.ref.holdTicks

/-- Entry to ACQUIRING (R76, R77): slip_possible is set when the holdover was too long for the reference, or the source has
changed since the last LOCKED state. -/
def State.enterAcquiring (s : State) : State :=
  let held := s.heldTicks
  let long := s.ref.state = .holdover ∧ ((s.refSel = 0 ∧ 16000000000 < held) ∨ (s.refSel = 1 ∧ 4800000000 < held))
  s.relock { s with ref := { s.ref with state := .acquiring, present := true, holdTicks := held, slip := s.ref.slip || decide long || s.ref.changed } }

/-- The path goes OFF, or FREE (R72, R73). -/
def State.refLeave (s : State) (st : RefState) : State :=
  s.relock { s with ref := { s.ref with state := st, present := false, holdTicks := s.heldTicks } }

/-- REF_LOST (R74): four missing periods of a reference that was being followed. -/
def execRefLost (s : State) : Host.Outcome State Fault Refusal := s.awake <|
  if s.ref.state = .locked ∨ s.ref.state = .acquiring then
    let s := s.enterHoldover
    .next (({ s with ref := { s.ref with present := false } }).raise 0)
  else .next s

/-- REF_ACQUIRE (R73): sixteen good periods of a selected reference, from FREE or HOLDOVER. -/
def execRefAcquire (s : State) : Host.Outcome State Fault Refusal := s.awake <|
  if (s.ref.state = .free ∨ s.ref.state = .holdover) ∧ s.refSel ≠ 3 then .next s.enterAcquiring else .next s

/-- REF_LOCKED (R76); a Nodric follower that awaited its reference goes on to MEASURING (R92). -/
def execRefLocked (s : State) : Host.Outcome State Fault Refusal := s.awake <|
  if s.ref.state = .acquiring then
    let s := s.relock { s with ref := { s.ref with state := .locked, present := true, lockedSel := some s.refSel, changed := false } }
    let s := if s.nod.waitRef then { s with nod := { s.nod with waitRef := false, state := 2, link0 := 2 } } else s
    .next (s.raise 1)
  else .next s

/-- A change of ref_sel at its group's boundary (R78): HOLDOVER without REF_LOST, then ACQUIRING on the new source; INTERNAL
gives FREE (R72, R73). The source has changed since the last LOCKED state, if there was one (R77; log entry 29). -/
def State.refSourceChange (s : State) (old : Nat) : State :=
  if s.refSel = old then s
  else
    let s := s.enterHoldover
    let s := { s with ref := { s.ref with changed := s.ref.changed || s.ref.lockedSel.isSome } }
    if s.refSel = 3 then s.refLeave .free else s.enterAcquiring

/-- RETAIN exit (R73, R88): ACQUIRING, or FREE with INTERNAL. -/
def State.refWake (s : State) : State := if s.refSel = 3 then s.refLeave .free else s.enterAcquiring

/-! ### PTM (R89, R90) -/

/-- A dialog starts if dialogs are allowed; without PTM Enable in configuration space it fails at once. -/
def State.ptmStart (s : State) : State :=
  if bit (s.reg R.ptmCtrl) 0 then
    if s.ptm.cfgEnable then { s with ptm := { s.ptm with dialog := true } }
    else s.setBits s.boundary R.ptmStatus 0x20000
  else s

/-- PTM_NOW: PTM_CTRL.now starts one dialog. -/
def execPtmNow (s : State) : Host.Outcome State Fault Refusal := s.clocked <| .next s.ptmStart

/-- PTM_AUTO_DIALOG: 2^period_exp ms after the last automatic start, another dialog starts. -/
def execPtmAutoDialog (s : State) : Host.Outcome State Fault Refusal := s.awake <|
  if bit (s.reg R.ptmCtrl) 2 && bit (s.reg R.ptmCtrl) 0 then
    let s := s.advance (s.ptm.lastAuto + 2 ^ min (s.rf R.ptmCtrl 4 4) 10 * 80000000)
    .next ({ s with ptm := { s.ptm with lastAuto := s.now } }).ptmStart
  else .next s

/-- PTM_DIALOG_DONE (R90): the results are written, then seq increments; a failed dialog sets err. -/
def execPtmDialogDone (ok : Bool) (master ticks : W64) (s : State) : Host.Outcome State Fault Refusal := s.awake <|
  if s.ptm.dialog then
    let s := { s with ptm := { s.ptm with dialog := false } }
    if ok then
      let s := s.setReg64 R.ptmMaster master.toNat
      let s := s.setRegs (R.ptmKts 0) (s.kts ticks.toNat 0 false 7)
      .next ((s.setRf R.ptmStatus 0 16 (s.rf R.ptmStatus 0 16 + 1)).setRf R.ptmStatus 16 1 1)
    else .next (s.setBits s.boundary R.ptmStatus 0x20000)
  else .next s

/-! ### Nodric (R91 to R100) -/

/-- The role in force: 0 OFF, 1 ROOT, 2 FOLLOWER. -/
def State.nodRole (s : State) : Nat := s.rf R.nodCtrl 0 2

/-- Downstream lanes of the role (R91). -/
def State.nodArms (s : State) : List Nat :=
  if s.nodRole = 1 then (if bit (s.reg R.nodCtrl) 2 then [0, 1] else [1]) else if s.nodRole = 2 then [1] else []

/-- The link of a lane. -/
def State.nodLink (s : State) (lane : Nat) : Nat := if lane = 0 then s.nod.link0 else s.nod.link1

/-- Downstream lanes whose link is up. -/
def State.nodDown (s : State) : List Nat := s.nodArms.filter (fun l => s.nodLink l == 3)

/-- Active lanes (R96): those of the role whose link is up. -/
def State.nodLanes (s : State) : List Nat := (if s.nodRole = 2 then [0, 1] else s.nodArms).filter (fun l => s.nodLink l == 3)

/-- The state of a root's links that NOD_STATUS shows, while no follower is ALIGNED. -/
def Nodric.rootState (n : Nodric) : Nat := max n.link0 n.link1

/-- The state with a lane's link changed; a link that goes down loses its queue, and a root with it the followers of that arm. -/
def State.nodLinkTo (s : State) (lane : Bool) (st : Nat) : State :=
  let s := if lane then { s with nod := { s.nod with link1 := st, lane1 := if st = 0 then [] else s.nod.lane1 } }
    else { s with nod := { s.nod with link0 := st, lane0 := if st = 0 then [] else s.nod.lane0 } }
  if s.nodRole = 1 then { s with nod := { s.nod with state := s.nod.rootState } } else s

/-- NOD_LEAD (R92, field card): the largest follower latency + 1,024 ticks, rounded up to 128, or 0. -/
def State.nodUpdateLead (s : State) : State :=
  let top := s.nod.followers.foldl (fun m f => max m f.2) 0
  s.setReg R.nodLead (if s.nod.followers = [] then 0 else BitVec.ofNat 32 (alignUp (ceilDiv top 16 + 1024) 128))

/-- A message handed to each downstream lane. -/
def State.nodSend (s : State) (lanes : List Nat) (m : NodMsg) : State :=
  { s with nod := { s.nod with sent := lanes.map (fun l => (l, m)) ++ s.nod.sent } }

/-- A TRIG message joins a lane's queue of 64, which a lane empties at 50 M messages per second; on a full queue it is
dropped and counted (R95). -/
def State.nodQueueTrig (s : State) (lane : Nat) (m : TrigMsg) : State :=
  let q := (if lane = 0 then s.nod.lane0 else s.nod.lane1).filter (fun e => s.now < e.1)
  if q.length < 64 then
    let last := (q.getLast?.map (·.1)).getD s.now
    let q := q ++ [(last + 1600, m)]
    let s := if lane = 0 then { s with nod := { s.nod with lane0 := q } } else { s with nod := { s.nod with lane1 := q } }
    s.nodSend [lane] (.trig m)
  else s.bump R.nodTrigDrop

/-- Raises NOD_ALERT with its cause bit (22 R541). -/
def State.nodAlert (s : State) (cause : Nat) : State := (s.setBits s.boundary R.evtNodCause (BitVec.ofNat 32 (2 ^ cause))).raise 5

/-- The copies of a mark that fail their CRC are counted; if all three fail the mark is lost (R94). Answers whether a copy
passed. -/
def State.nodMark (s : State) (crc : BitVec 3) : Bool × State :=
  let bad := (if crc.getLsbD 0 then 0 else 1) + (if crc.getLsbD 1 then 0 else 1) + (if crc.getLsbD 2 then 0 else 1)
  let s := s.bumpBy R.nodMsgErr bad
  if crc = 0 then
    let s := s.nodAlert 0
    (false, if s.nod.state = 4 then s.relock { s with nod := { s.nod with state := 3 } } else s)
  else (true, s)

/-- Role and, on a root, topology as `NOD_CTRL` gives them (R91); the reserved role is OFF. -/
def nodSetting (w : W32) : Nat := if fld w 0 2 = 1 then 1 + 4 * fld w 2 1 else if fld w 0 2 = 2 then 2 else 0

/-- No link is up: what the links had brought about ends. -/
def Nodric.unlinked (n : Nodric) : Nodric :=
  { n with state := 0, link0 := 0, link1 := 0, ids := [], followers := [], pendingLoad := none, pendingZero := [], waitRef := false, lane0 := [], lane1 := [] }

/-- A change of the role or topology at its group's boundary: links of a role other than OFF start TRAINING anew (R92; log
entry 29). -/
def State.nodRoleChange (s : State) (old : W32) : State :=
  if nodSetting (s.reg R.nodCtrl) = nodSetting old then s
  else
    let up (l : Nat) : Nat := if s.nodRole = 2 ∨ s.nodArms.contains l then 1 else 0
    (s.relock { s with nod := { s.nod.unlinked with
        state := if s.nodRole = 1 ∨ s.nodRole = 2 then 1 else 0
        link0 := up 0, link1 := up 1, hops := 0, id := 0, upUnlocked := false } }).nodUpdateLead

/-- A follower hands a mark on to its downstream lane (R92, R94). -/
def State.nodRelay (s : State) (m : NodMsg) : State := s.nodSend s.nodDown m

/-- NOD_TRAINING_DONE (R92 steps 1 and 2): a downstream lane goes on to MEASURING; upstream, a follower's reference path enters
ACQUIRING on NODRIC and is awaited. -/
def execNodTrainingDone (lane : Bool) (s : State) : Host.Outcome State Fault Refusal := s.awake <|
  if s.nodLink (b2n lane) ≠ 1 then .next s
  else if s.nodRole = 2 ∧ lane = false then
    let s := if s.refSel = 2 ∧ s.ref.state ≠ .locked then s.enterAcquiring else s
    .next (if s.ref.state = .locked then { s with nod := { s.nod with state := 2, link0 := 2 } } else { s with nod := { s.nod with waitRef := true } })
  else .next (s.nodLinkTo lane 2)

/-- NOD_MEASURE_DONE (R91, R92 step 4): upstream, latency to root, in 1/16 tick, from the upstream's latency, its relay latency and
half the averaged round trip, plus half NOD_ASYM_ADJ, each half rounded down (log entry 29); an eighth follower is REFUSED. -/
def execNodMeasureDone (lane : Bool) (roundTrip upLat : W32) (upFollower : Bool) (id hops : BitVec 3) (eighth : Bool) (s : State) :
    Host.Outcome State Fault Refusal := s.awake <|
  if s.nodLink (b2n lane) ≠ 2 then .next s
  else if s.nodRole = 2 ∧ lane = false then
    if eighth then .next { s with nod := { s.nod with state := 5 } }
    else
      let lat : Int := (upLat.toNat + (if upFollower then 2048 * 16 else 0) + roundTrip.toNat / 2 : Nat) + sextInt 16 (s.rf R.nodAsymAdj 0 16) / 2
      let s := s.setReg R.nodLat (BitVec.ofInt 32 lat)
      .next { s with nod := { s.nod with state := 3, link0 := 3, id := id.toNat, hops := hops.toNat } }
  else .next (s.nodLinkTo lane 3)

/-- Whether any core holds a group with a Keystone action (R92 step 5). -/
def State.actionHeld (s : State) : Bool :=
  s.cores.toList.any (fun c => c.groups.any (fun g => g.writes.any (fun w => match w with
    | .reg _ _ => false
    | _ => true)))

/-- NOD_LOAD_SEND (R91, R92 step 5): the root sends LOAD naming boundary `b` and its count there on a follower's arm, unless a
Keystone action is pending; the follower counts as ALIGNED from then on (log entry 14). `known`: its ID, 0 for one that has
none yet and takes the next; an eighth is refused. -/
def execNodLoadSend (lane : Bool) (known : BitVec 3) (lat : W32) (b : W64) (s : State) : Host.Outcome State Fault Refusal := s.awake <|
  if s.nodRole = 1 ∧ s.nodDown.contains (b2n lane) ∧ ¬ s.actionHeld ∧ known.toNat ≤ s.nod.ids.length ∧ (known ≠ 0 ∨ s.nod.ids.length < 7) then
    let bb := alignUp b.toNat 128
    let s := s.nodSend [b2n lane] (.load bb bb)
    let n := if known = 0 then s.nod.ids.length + 1 else known.toNat
    let fs := (n, lat.toNat) :: s.nod.followers.filter (fun f => f.1 ≠ n)
    .next ({ s with nod := { s.nod with ids := if known = 0 then s.nod.ids ++ [lane] else s.nod.ids, followers := fs } }).nodUpdateLead
  else .next s

/-- NOD_LOAD (R92 step 5): a LINKED follower takes the root's count at a boundary that lies `ahead` ticks after the mark's arrival
(log entry 29); the mark is handed on. -/
def execNodLoad (ahead : W32) (count : W64) (crc : BitVec 3) (s : State) : Host.Outcome State Fault Refusal := s.awake <|
  if s.nodRole = 2 ∧ s.nod.state ≠ 0 then
    let r := s.nodMark crc
    if r.1 then
      let s := r.2.nodRelay (.load count.toNat count.toNat)
      .next (if s.nod.state = 3 then { s with nod := { s.nod with pendingLoad := some (alignUp (s.now + ahead.toNat) 128, count.toNat) } } else s)
    else .next r.2
  else .next s

/-- NOD_ALIGN (R92 step 6): at the named boundary the follower loads the count and becomes ALIGNED. -/
def execNodAlign (s : State) : Host.Outcome State Fault Refusal := s.awake <|
  match s.nod.pendingLoad with
  | none => .next s
  | some (b, k) =>
    let s := s.loadCount (max b s.boundary) (k + (max b s.boundary - b))
    .next (s.relock { s with nod := { s.nod with state := 4, pendingLoad := none } })

/-- NOD_ZERO (R98): a follower takes a ZERO mark and hands it on; one that arrives after B - 256 acts at the first boundary at or
after arrival + 256. -/
def execNodZero (isZero : Bool) (o : W32) (b : W64) (crc : BitVec 3) (s : State) : Host.Outcome State Fault Refusal := s.awake <|
  if s.nodRole = 2 ∧ s.nod.state ≠ 0 then
    let r := s.nodMark crc
    if r.1 then
      let s := r.2.nodRelay (.zero isZero o b.toNat)
      if s.nod.state = 4 then
        let late := decide (b.toNat < s.count + 256)
        let at_ := s.elapsedOf b.toNat
        .next { s with nod := { s.nod with pendingZero := s.nod.pendingZero ++
          [{ isZero := isZero, o := o, b := b.toNat, at_ := at_, due := if late then alignUp (s.now + 256) 128 else at_, late := late }] } }
      else .next s
    else .next r.2
  else .next s

/-- The elapsed boundary at which the next action of a mark falls. -/
def State.zeroDue (s : State) : Option Nat :=
  s.nod.pendingZero.foldl (fun m a => some ((m.getD a.due).min a.due)) none

/-- The count after a mark's action at elapsed tick t, from the count c before it (R98). -/
def NodAction.count (a : NodAction) (t c : Nat) : Nat :=
  if a.isZero then (if a.late then t - a.at_ else 0) else actCount c (.offset a.o)

/-- NOD_ZERO_BOUNDARY (R97, R98): the follower applies the actions of every mark that falls at the next boundary, as one change
(R85, R86); where one is late it takes the count that the root holds there, and NOD_ZERO_LATE is raised. -/
def execNodZeroBoundary (s : State) : Host.Outcome State Fault Refusal := s.awake <|
  match s.zeroDue with
  | none => .next s
  | some d =>
    let acts := s.nod.pendingZero.filter (fun a => a.due == d)
    let due := max d s.boundary
    let s := { s with nod := { s.nod with pendingZero := s.nod.pendingZero.filter (fun a => a.due != d) } }
    let s := s.changeCount due (acts.foldl (fun c a => a.count due c) (s.countAt due)) 2
    .next (if acts.any (·.late) then s.nodAlert 1 else s)

/-- NOD_RATE (R99): the mark is handed on and compared with the follower's count at arrival less NOD_LAT; a difference above 1 tick
leaves ALIGNED, and with auto_realign the extrapolated count is loaded at the first boundary at or after arrival + 256. -/
def execNodRate (count : W64) (upUnlocked : Bool) (crc : BitVec 3) (s : State) : Host.Outcome State Fault Refusal := s.awake <|
  if s.nodRole = 2 ∧ s.nod.state ≠ 0 then
    let r := s.nodMark crc
    if r.1 then
      let s := r.2.nodRelay (.rate count.toNat upUnlocked)
      let s := s.relock { s with nod := { s.nod with upUnlocked := upUnlocked } }
      let lat := (s.reg R.nodLat).toNat
      let diff : Int := (16 * count.toNat : Nat) - ((16 * s.count : Nat) - (lat : Nat) : Int)
      if s.nod.state = 4 ∧ 16 < diff.natAbs then
        let s := (s.relock { s with nod := { s.nod with state := 3 } }).nodAlert 2
        if bit (s.reg R.nodCtrl) 3 then
          let b := alignUp (s.now + 256) 128
          let k := (count.toNat + lat / 16 + (b - s.now) + 64) / 128 * 128
          let s := s.loadCount b k
          .next (s.relock { s with nod := { s.nod with state := 4 } })
        else .next s
      else .next s
    else .next r.2
  else .next s

/-- NOD_RATE_SEND (R94, R100): at the next count that is a multiple of 2^16 CK_DP, the root, or a follower in holdover,
sends RATE downstream. -/
def execNodRateSend (s : State) : Host.Outcome State Fault Refusal := s.awake <|
  if s.nodRole = 1 ∨ (s.nodRole = 2 ∧ s.ref.state = .holdover) then
    let k := alignUp (s.count + 1) 0x800000
    let s := s.advance (s.now + (k - s.count))
    .next (s.nodSend s.nodDown (.rate s.count (s.nodRole == 2 || decide (s.ref.state ≠ .locked))))
  else .next s

/-- NOD_LINK_DOWN (R100): a follower that loses lane 0 enters HOLDOVER under R74, and marks that it has received and not yet applied
are dropped; a lost downstream lane takes a root's followers of that arm with it (log entry 29). -/
def execNodLinkDown (lane : Bool) (s : State) : Host.Outcome State Fault Refusal := s.awake <|
  if s.nodRole = 2 ∧ lane = false then
    if s.nod.state = 0 then .next s
    else
      let s := if s.ref.state = .locked ∨ s.ref.state = .acquiring then (s.enterHoldover).raise 0 else s
      let s := s.nodLinkTo false 0
      .next ((s.relock { s with ref := { s.ref with present := false }, nod := { s.nod with state := 0, waitRef := false, pendingLoad := none, pendingZero := [] } }).raise 4)
  else if s.nodArms.contains (b2n lane) then
    let s := s.nodLinkTo lane 0
    .next ({ s with nod := { s.nod with followers := s.nod.followers.filter (fun f => s.nod.ids.getD (f.1 - 1) (!lane) != lane) } }).nodUpdateLead
  else .next s

/-- NOD_LINK_RETURN (R100): R92 runs again from TRAINING. -/
def execNodLinkReturn (lane : Bool) (s : State) : Host.Outcome State Fault Refusal := s.awake <|
  if s.nodLink (b2n lane) ≠ 0 then .next s
  else if s.nodRole = 2 ∧ lane = false then .next { s with nod := { s.nod with state := 1, link0 := 1 } }
  else if s.nodArms.contains (b2n lane) then .next (s.nodLinkTo lane 1)
  else .next s

end Sys2Proof.Machine
end

