-- ==== Sys2Proof/Machine/Converters.lean ====
section
/-! DEFINITION. Analog inputs, slices and spans (04_converters.md): slot maps, settle windows, flags, and the tables of 05 R126. -/

namespace Sys2Proof.Machine

/-! ### Sample arithmetic -/

/-- A value brought to a range; answers whether it lay outside. -/
def clampI (lo hi x : Int) : Int × Bool := if hi < x then (hi, true) else if x < lo then (lo, true) else (x, false)

/-- The ideal slice code of a differential voltage in nV at full scale `fs`, 0 1.0 Vppd or 1 0.5 Vppd: mid-tread in LSB = FS / 4,096,
and limited (R106). -/
def idealCode (fs : Nat) (nv : Int) : Int := (clampI (-2048) 2047 ((2 * nv * 4096 * 2 ^ fs + 1000000000) / 2000000000)).1

/-- Per-slice correction of a raw code (05 R124). -/
def sliceWord (c off gain : Int) : Int :=
  if c = 2047 then 32752
  else if c = -2048 then -32768
  else (clampI (-32768) 32752 (((c * 256 - off) * gain + 2 ^ 21) / 2 ^ 22)).1

/-! ### Signals and slot maps (R108 to R113) -/

/-- The state with input n changed. -/
def State.modInput (s : State) (n : Nat) (f : Input → Input) : State :=
  { s with conv := { s.conv with inputs := vmod s.conv.inputs n f } }

/-- The state with a slice changed. -/
def State.modSlice (s : State) (sl : Nat) (f : Slice → Slice) : State :=
  { s with conv := { s.conv with slices := vmod s.conv.slices sl f } }

/-- Input n. -/
def State.inp (s : State) (n : Nat) : Input := vget s.conv.inputs n Input.reset

/-- A global slice. -/
def State.slice (s : State) (sl : Nat) : Slice := vget s.conv.slices sl Slice.reset

/-- The span of a bay: 0 SPAN1, 1 SPAN2, 2 SPAN4. -/
def State.span (s : State) (bay : Nat) : Nat := s.rf R.spanCtrl (2 * bay) 2

/-- Inputs per signal in a span. -/
def spanWidth (span : Nat) : Nat := if span = 0 then 1 else if span = 1 then 2 else 4

/-- The head of the signal that an input's slices serve (R108). -/
def State.headOf (s : State) (n : Nat) : Nat := n / spanWidth (s.span (n / 4)) * spanWidth (s.span (n / 4))

/-- Ticks between samples of the signal headed by input n (R109). -/
def State.period (s : State) (n : Nat) : Nat := 4 / spanWidth (s.span (n / 4))

/-- The slot into which the sample taken at elapsed tick t falls, of k slots (R109). -/
def slotOf (period k t : Nat) : Nat := t / period % k

/-- The slices of the signal headed by input n, ascending (R108). -/
def State.signalSlices (s : State) (n : Nat) : List Nat := (upTo (3 * spanWidth (s.span (n / 4)))).map (3 * n + ·)

/-- The slots' slices in the initial map of a span for head n (R110). -/
def initialMap (span n : Nat) : List Nat :=
  (if span = 0 then [0, 1] else if span = 1 then [0, 3, 1, 4] else [0, 6, 3, 9, 1, 7, 4, 10]).map (3 * n + ·)

/-- A mode that runs converters (R113). -/
def State.converterMode (s : State) : Bool := decide (2 ≤ s.mode.mode) && decide (s.mode.mode ≤ 5)

/-- Input n is the head of an enabled signal (R108, R113). -/
def State.enabledHead (s : State) (n : Nat) : Bool :=
  decide (n < s.inputs) && s.headOf n == n && bit (s.reg (R.convCtrl n)) 0

/-- The signal headed by input n is powered (R113). -/
def State.signalOn (s : State) (n : Nat) : Bool := s.converterMode && s.enabledHead n

/-- Resting slices of the signal headed by n: powered, not faulted, not waiting to rejoin, in no slot (R110, R120). -/
def State.resting (s : State) (n : Nat) : List Nat :=
  (s.signalSlices n).filter (fun sl =>
    !(s.inp n).slots.contains (some sl) && !(s.slice sl).faulted && (s.slice sl).joinAt.isNone)

/-- The slice that R131 brings in: resting longest, the lowest number among equals. -/
def State.incoming (s : State) (n : Nat) : Option Nat :=
  (s.resting n).foldl (fun best sl => match best with
    | none => some sl
    | some b => if (s.slice sl).since < (s.slice b).since then some sl else some b) none

/-- The slice that R131 sends out: in its slot longest, in the lowest slot among equals. -/
def State.outgoing (s : State) (n : Nat) : Option Nat :=
  (s.inp n).slots.foldl (fun best x => match best, x with
    | none, x => x
    | some b, some sl => if (s.slice sl).since < (s.slice b).since then some sl else some b
    | some b, none => some b) none

/-- A slice leaves service: its tone measurement then is the base of its drift (05 R138). -/
def State.leave (s : State) (sl : Nat) : State := s.modSlice sl (fun x => { x with baseTone := x.meas.map (·.2.2) })

/-- The state with a slice in slot i of head n from elapsed tick t. -/
def State.fillSlot (s : State) (n i sl t : Nat) : State :=
  (s.modInput n (fun x => { x with slots := modAt x.slots i (fun _ => some sl) })).modSlice sl (fun x => { x with since := t, skewEst := none, refPhase := 0 })

/-- Rotation interval in ticks (R129; CAL_CTRL.rot_exp: below 10 acts as 10, above 24 as 24). -/
def State.rotInterval (s : State) (n : Nat) : Nat := 2 ^ max 10 (min 24 (s.rf (R.calCtrl n) 0 5)) * 128

/-- The schedule origin of a signal is elapsed tick t (R129): its slices count as entering or beginning to rest at t (R131). -/
def State.setOrigin (s : State) (n t : Nat) : State :=
  ((s.signalSlices n).foldl (fun s sl => s.modSlice sl (fun x => { x with since := t })) s).modInput n (fun x => { x with next := t + s.rotInterval n })

/-- The initial slot map of head n at elapsed boundary t (R110): faulted slices give their slots, in ascending order, to
resting slices of the signal, lowest number first. -/
def State.setMap (s : State) (n t : Nat) : State :=
  let all := s.signalSlices n
  let s := all.foldl (fun s sl => s.modSlice sl (fun x => { x with since := t, joinAt := none, skewEst := none, refPhase := 0 })) s
  let want := initialMap (s.span (n / 4)) n
  let spare := all.filter (fun sl => !want.contains sl && !(s.slice sl).faulted)
  let put := want.foldl (fun (acc : List (Option Nat) × List Nat) sl =>
    if (s.slice sl).faulted then match acc.2 with
      | [] => (acc.1 ++ [none], [])
      | r :: rs => (acc.1 ++ [some r], rs)
    else (acc.1 ++ [some sl], acc.2)) ([], spare)
  (s.modInput n (fun x => { x with slots := put.1, window := none })).setOrigin n t

/-- A settle window of head n from elapsed tick t to `e` (R118, R122). -/
def State.settle (s : State) (n t e : Nat) : State := s.modInput n (fun x => x.openSettle t e)

/-- Units of a powered slice and of a running head (R297, SLICE_UP). -/
def sliceUnits : Units := { core := 3, conv := 4, hbm0 := 0, hbm1 := 0 }
/-- Units of a running head (R297, SLICE_UP). -/
def headUnits : Units := { core := 8, conv := 0, hbm0 := 0, hbm1 := 0 }

/-- A forced window's permit ends with its rotation: the load falls and the entry is released (R142, R304). -/
def State.endForced (s : State) (n : Nat) : State :=
  (s.loadFall { Units.zero with core := 2 }).dropPermit (20 + n) 10

/-- The signal's rotations are suspended by a foreground calibration that covers it (05 R146). -/
def State.underFg (s : State) (n : Nat) : Bool := s.fg.phase == 2 && s.fg.mask.testBit n

/-- A rotate-now request of head n that has lost its window or its signal at elapsed boundary b (05 R141, R142): while the signal runs
it asks for its permit again (log entry 21); else it completes as NO_SIGNAL. -/
def State.requeue (s : State) (n b : Nat) : State :=
  let x := s.inp n
  if x.rn ≠ 1 ∧ x.rn ≠ 3 then s
  else if !x.running || s.underFg n then (s.dropPermit (20 + n) 10).modInput n (fun x => { x with rn := 6 })
  else if x.rn = 1 then s
  else (s.modInput n (fun x => { x with rn := 1, rnEnd := b + 2 ^ 27 })).askPermit (20 + n) 10 { Units.zero with core := 2 } none

/-- An open window of head n is abandoned at elapsed boundary b (05 R141, R143); with `forcedToo`, a forced one as well. -/
def State.abandonWindow (s : State) (n b : Nat) (forcedToo : Bool) : State :=
  match (s.inp n).window with
  | some w =>
    if w.forced && !forcedToo then s
    else
      let s := if w.forced then s.endForced n else s
      (s.modInput n (fun x => { x with window := none })).requeue n b
  | none => s

/-- Slices and signals are brought to what enable, span and mode now ask, at elapsed boundary t (R113, R119, R121): slices
that must be on power up, ready 2,097,152 ticks later, others power off and their load falls (R304); signals that start,
or whose span changed, take the initial map and settle. Slices in a slot before leave service. -/
def State.convSync (s : State) (t : Nat) (remap : Nat → Bool) : State :=
  let heads := (upTo 8).filter s.signalOn
  let s := (upTo 24).foldl (fun s sl =>
    let x := s.slice sl
    let want := heads.contains (s.headOf (sl / 3)) && !x.faulted
    if want && !x.powered then s.modSlice sl (fun x => { x with powered := true, readyAt := t + 2097152 })
    else if !want && x.powered then (s.modSlice sl (fun x => { x with powered := false, joinAt := none })).loadFall sliceUnits
    else s) s
  let s := (upTo 8).foldl (fun s n =>
    let stops := (s.inp n).running && !heads.contains n
    let s := if stops || remap (n / 4) then ((s.inp n).slots.filterMap id).foldl State.leave s else s
    if stops then
      (((s.abandonWindow n t true).modInput n (fun x =>
        { x with running := false, settling := false, settleEnd := min x.settleEnd t, slots := [], window := none })).requeue n t).loadFall headUnits
    else s) s
  heads.foldl (fun s n =>
    if !(s.inp n).running || remap (n / 4) then
      let ready := (s.signalSlices n).foldl (fun m sl => if (s.slice sl).faulted then m else max m (s.slice sl).readyAt) 0
      let e := max (if remap (n / 4) then t + 256 else t) ready
      ((s.modInput n (fun x => { x with running := true })).setMap n t).settle n t e
    else s) s

/-- The vector of elapsed tick t is a settle vector of the signal headed by n (R118). -/
def State.inSettle (s : State) (n t : Nat) : Bool := (s.inp n).settledIn t (t / 128 * 128)

/-! ### Flags (R114 to R119) -/

/-- Eras with the elapsed tick at which the next one begins. -/
def spansOf : Option Nat → List Era → List (Era × Option Nat)
  | _, [] => []
  | e, x :: r => (x, e) :: spansOf (some x.since) r

/-- A sample of the elapsed ticks from t to u falls in an empty slot (R119). -/
def Input.emptyIn (x : Input) (t u : Nat) : Bool :=
  (spansOf none x.eras).any (fun p => p.1.slots.contains none && decide (p.1.since ≤ u) &&
    (match p.2 with | some z => decide (t < z) | none => true))

/-- Flags of a vector of head n: bit 0 ovr_hi, bit 1 ovr_lo, bit 2 NBR (R114, R116, R118). -/
def State.flagsOf (s : State) (n v : Nat) : Nat :=
  let f := Assoc.get 0 s.conv.flags (n + 8 * v)
  if s.inSettle n (v * 128) || (s.inp n).emptyIn (v * 128) (v * 128 + 127) then f ||| 3 else f

/-- OR of the OVR flags over the vectors v to w of head n (R114, 06 R170). -/
def State.flagsRange (s : State) (n v w : Nat) : Nat :=
  let x := s.inp n
  let f := s.conv.flags.foldl (fun f e => if e.1 % 8 = n ∧ v ≤ e.1 / 8 ∧ e.1 / 8 ≤ w then f ||| e.2 % 4 else f) 0
  if x.settledIn (v * 128) (w * 128) || x.emptyIn (v * 128) (w * 128 + 127) then 3 else f

/-- The vector v of head n takes flag bits; a vector that becomes an OVR vector is counted and raised (R114, R117) at the
first boundary at which its last word has reached the logic die (R105, R537; DEDUCED, log entry 19), but for a settle vector (R118). -/
def State.flagVector (s : State) (n v bits : Nat) : State :=
  let f := Assoc.get 0 s.conv.flags (n + 8 * v)
  let s := { s with conv := { s.conv with flags := Assoc.put 0 s.conv.flags (n + 8 * v) (f ||| bits) } }
  if f % 4 = 0 ∧ bits % 4 ≠ 0 ∧ ¬ s.inSettle n (v * 128) then
    (s.bump (R.convOvrCount n)).raiseAt (s.boundaryFrom (v * 128 + 479)) (16 + 4 * n) (pathOfSource (16 + 4 * n))
  else s

/-- The vectors from v to w take flag bits. -/
def State.flagVectors (s : State) (n v w bits : Nat) : State :=
  (upTo (w + 1 - v)).foldl (fun s i => s.flagVector n (v + i) bits) s

/-- CONV_OVR (R114, R116, R117, R119): a sample of the signal headed by input n, taken at count t, is a limit code of the polarity
given, or falls in an empty slot. A limit code's flag covers the samples within 12 ticks after it, and every other signal of the bay is
marked NBR through tick t + 160; an empty slot sets both flags. -/
def execConvOvr (n : Fin 8) (hi : Bool) (t : W64) (s : State) : Host.Outcome State Fault Refusal := s.awake <|
  let x := s.inp n
  let e := s.elapsedOf t.toNat
  if x.running ∧ e % s.period n = 0 then
    let s := s.advance e
    if x.slots.getD (slotOf (s.period n) x.slots.length e) none = none then .next (s.flagVector n (e / 128) 3)
    else if s.inSettle n e then .next s
    else
      let s := s.flagVectors n (e / 128) ((e + 12) / 128) (if hi then 1 else 2)
      let others := (upTo 8).filter (fun m => m ≠ n.val && m / 4 == n.val / 4 && (s.inp m).running)
      .next (others.foldl (fun s m => s.flagVectors m (e / 128) ((e + 160) / 128) 4) s)
  else .next s

/-- LANE_ERROR (R105, R119): a conversion of a powered slice, by the lane of its tick, fails its check at count t, outside a settle
vector: its vector gets both flags if the slice is active, and the owning input counts it. -/
def execLaneError (slice : Fin 24) (t : W64) (s : State) : Host.Outcome State Fault Refusal := s.awake <|
  let h := s.headOf (slice.val / 3)
  let e := s.elapsedOf t.toNat
  if (s.slice slice).powered ∧ (s.inp h).running ∧ ¬ s.inSettle h e then
    let s := s.advance e
    let s := if (s.inp h).slots.contains (some slice.val) then s.flagVector h (e / 128) 3 else s
    let s := s.bump (R.convLaneErr (slice.val / 3))
    .next (s.modSlice slice (fun x => { x with
      errs := (e :: x.errs.filter (fun u => e < u + 8388608)).take 16, lane := t.toNat / 8 % 32 }))
  else .next s

/-- A slice of a signal stops serving at elapsed boundary b (R119 steps 2 to 4): an open window is abandoned, a resting
slice takes its slot (R131, R143), and it powers down as faulted. -/
def State.retireSlice (s : State) (sl b : Nat) : State :=
  let h := s.headOf (sl / 3)
  let w := (s.inp h).window
  let pick := match w with
    | some x => if x.out = sl then some x.inc else s.incoming h
    | none => s.incoming h
  let pick := pick.filter (· ≠ sl)
  let s := s.abandonWindow h b true
  let s := match (s.inp h).slots.findIdx? (· == some sl) with
    | some i => let s := s.leave sl; match pick with
      | some p => s.fillSlot h i p b
      | none => s.modInput h (fun x => { x with slots := modAt x.slots i (fun _ => none) })
    | none => s
  let s := if (s.slice sl).powered then s.loadFall sliceUnits else s
  s.modSlice sl (fun x => { x with faulted := true, powered := false, errs := [], joinAt := none })

/-- SETTLE_END (R118): the settle window of the signal headed by input n ends. -/
def execSettleEnd (n : Fin 8) (s : State) : Host.Outcome State Fault Refusal := s.awake <|
  if (s.inp n).settling then
    let s := s.advance (s.inp n).settleEnd
    .next (s.modInput n (fun x => { x with settling := false }))
  else .next s

/-! ### Live calibration: alerts and tables (R126 to R128) -/

/-- CAL_ALERT of head n (R150). -/
def State.calAlert (s : State) (n cause sl : Nat) : State :=
  (s.setReg (R.calAlertInfo n) (pack [(0, cause), (3, sl), (8, 1)])).raise (19 + 4 * n)

/-- The full scale in force for head n. -/
def State.fs (s : State) (n : Nat) : Nat := s.rf (R.convCtrl n) 1 1

/-- A table of a slice: full scale f, 0 current or 1 previous. -/
def Slice.table (x : Slice) (f prev : Nat) : List W32 := x.tables.getD (2 * f + prev) []

/-- A value word of a table. -/
def tableVal (t : List W32) (i : Nat) : W32 := t.getD (2 * i) 0

/-- The check of R15 on a table of six one-word twins. -/
def tableOk (t : List W32) : Bool :=
  (upTo 6).all (fun i => t.getD (2 * i + 1) 0 == ~~~ (t.getD (2 * i) 0))

/-- A word of a signed field brought to a range and sign-extended (R126, R127). -/
def boundWord (lo hi : Int) (w : W32) : W32 := BitVec.ofInt 32 (clampI lo hi w.toInt).1

/-- A new table of full scale f becomes current at count k, and the old one previous (R127). Its values are clamped to the valid ranges
before it is formed (R126). -/
def Slice.install (x : Slice) (f : Nat) (off gain skew : W32) (origin k : Nat) : Slice :=
  let old := x.table f 0
  let info := pack [(0, (fld (tableVal old 3) 0 16 + 1) % 65536), (16, origin), (18, f)]
  let new := tableWords (boundWord (-32768) 32767 off) (boundWord 0x30000 0x50000 gain) (boundWord (-1250) 1250 skew) info (loW k) (hiW k)
  { x with tables := modAt (modAt x.tables (2 * f + 1) (fun _ => old)) (2 * f) (fun _ => new) }

/-- A newly formed table of a slice becomes current, or, where its check fails, is dropped with cause TWIN (R127). -/
def State.newTable (s : State) (sl : Nat) (bad : Bool) (f : Nat) (off gain skew : W32) (origin k : Nat) : State :=
  if bad then s.calAlert (s.headOf (sl / 3)) 5 sl else s.modSlice sl (fun x => x.install f off gain skew origin k)

/-- A slice's current table of the full scale in force fails its check (R128). -/
def State.tableFails (s : State) (sl : Nat) : Bool := !tableOk ((s.slice sl).table (s.fs (s.headOf (sl / 3))) 0)

/-- The alarm of a current table that fails (R128 step 1). -/
def State.tableAlarm (s : State) (sl : Nat) : State := (s.twinMismatch (pathSlice 1 sl)).calAlert (s.headOf (sl / 3)) 3 sl

/-- From elapsed boundary b the previous table serves for a current one that has failed, and if that fails too the slice is retired
(R128 steps 2 and 3). -/
def State.fallBack (s : State) (sl b : Nat) : State :=
  let h := s.headOf (sl / 3)
  let f := s.fs h
  if tableOk ((s.slice sl).table f 1) then
    (s.modSlice sl (fun x => { x with tables := modAt x.tables (2 * f) (fun _ => x.table f 1) })).bump (R.calFallbackCount h)
  else ((s.retireSlice sl b).calAlert h 4 sl).modSlice sl (fun x => { x with tablesLost := true })

/-- The check of a table as it is loaded at elapsed boundary b (R128): answers whether it passed. What replaces it serves from b
(R143; DEDUCED, log entry 21). -/
def State.checkTable (s : State) (sl b : Nat) : Bool × State :=
  if s.tableFails sl then (false, (s.tableAlarm sl).fallBack sl b) else (true, s)

/-- A slice serves in a slot of a running signal: its table is in force (R126). -/
def State.serving (s : State) (sl : Nat) : Bool :=
  let x := s.inp (s.headOf (sl / 3))
  x.running && x.slots.contains (some sl)

/-- The tables that serve from elapsed boundary b are checked as they are loaded (R128); a slice that takes the slot of one that is
retired is checked in its turn. -/
def State.loadTables (b : Nat) : Nat → State → State
  | 0, s => s
  | k + 1, s => match (upTo 24).find? (fun sl => s.serving sl && s.tableFails sl) with
    | none => s
    | some sl => State.loadTables b k (s.checkTable sl b).2

end Sys2Proof.Machine
end

