-- ==== Sys2Proof/Machine/Channel.lean ====
section
/-! DEFINITION. Channel processing (06_channel_processing.md): the sample path from the raw code (05 R123) to the decimator's output
(R169), under the settings that govern each sample (02 R46). -/

namespace Sys2Proof.Machine

/-! ### Sample arithmetic -/

/-- Per-input correction (R155, R156): the word and whether it saturated. -/
def inputWord (w off gain : Int) (invert : Bool) : Int × Bool :=
  if w = 32752 ∨ w = -32768 then (if invert then (if w = 32752 then -32768 else 32752) else w, false)
  else
    let v := w * 16 - off
    let v := if invert then -v else v
    clampI (-32768) 32752 ((v * gain + 2 ^ 19) / 2 ^ 20)

/-- One FIR output (R157): coefficients from c[0], and the inputs x[i + d], x[i + d - 1], … in the same order. -/
def firWord (cs xs : List Int) (shift : Nat) : Int × Bool :=
  let acc := (List.zipWith (· * ·) cs xs).foldl (· + ·) 0
  clampI (-32768) 32767 ((acc + (if shift = 0 then 0 else 2 ^ (shift - 1))) / 2 ^ shift)

/-- The output words of one decimator block of n samples (R169, R171): modes SAMPLE, PEAK, HIRES, FIRDEC. -/
def decBlock (mode : Nat) (xs : List Int) : List Int :=
  match xs with
  | [] => []
  | x :: r =>
    if mode = 1 then [r.foldl min x, r.foldl max x]
    else if mode = 2 then
      let n : Int := xs.length
      [(2 * xs.foldl (· + ·) 0 + n) / (2 * n)]
    else [x]

/-- A P12 code of a word (R172). -/
def p12Code (w : Int) : Int := (clampI (-2048) 2047 ((w + 8) / 16)).1

/-- The tone state after a block (R177). -/
def toneAbove (was : Bool) (mag hi lo : Nat) : Bool := if hi ≤ mag then true else if mag < min lo hi then false else was

/-! ### Settings in force (R157 to R169) -/

/-- The bank in force of input n: 0 A, 1 B. -/
def State.firBank (s : State) (n : Nat) : Nat := s.rf (R.chFirCtrl n) 0 1

/-- Tap count of a header word (CH_FIR_HDR: 0 acts as 1, above 384 as 384). -/
def hdrTaps (w : W32) : Nat := max 1 (min 384 (fld w 0 9))

/-- Centre of a header word (at or above N acts as N - 1). -/
def hdrCentre (w : W32) : Nat := min (fld w 9 9) (hdrTaps w - 1)

/-- Coefficient k of a bank, signed. -/
def State.coef (s : State) (n bank k : Nat) : Int :=
  sextInt 18 (s.reg (if bank = 0 then R.chFirA n k else R.chFirB n k)).toNat

/-- The decimation ratio in use (R169; CH_DEC_CTRL: 0 acts as 1, above 2^20 as 2^20; in PEAK 1 acts as 2). -/
def State.decRatio (s : State) (n : Nat) : Nat :=
  let w := s.reg (R.chDecCtrl n)
  max (if fld w 24 2 = 1 then 2 else 1) (min (2 ^ 20) (fld w 0 21))

/-- The decimation mode. -/
def State.decMode (s : State) (n : Nat) : Nat := s.rf (R.chDecCtrl n) 24 2

/-- Span factor b of the bay of input n (R158). -/
def State.spanB (s : State) (n : Nat) : Nat := spanWidth (s.span (n / 4))

/-- The tap budget (R158). -/
def State.firBudget (s : State) (n : Nat) : Nat :=
  if s.decMode n = 3 then min 384 (48 * s.decRatio n / s.spanB n) else 48 / s.spanB n

/-- Taps of the bank in force. -/
def State.firTaps (s : State) (n : Nat) : Nat := hdrTaps (s.reg (R.chFirHdr n (s.firBank n)))

/-- The tap count exceeds the budget (R160). -/
def State.firOver (s : State) (n : Nat) : Bool := decide (s.firBudget n < s.firTaps n)

/-- The effective tap count (R160). -/
def State.firEff (s : State) (n : Nat) : Nat := if s.firOver n then 1 else s.firTaps n

/-- The centre in force. -/
def State.firCentre (s : State) (n : Nat) : Nat := if s.firOver n then 0 else hdrCentre (s.reg (R.chFirHdr n (s.firBank n)))

/-- Decimating form (R158). -/
def State.firDecimating (s : State) (n : Nat) : Bool := decide (48 / s.spanB n < s.firEff n)

/-- The trigger cells and the detector take the FIR input (R159). -/
def State.tapEff (s : State) (n : Nat) : Bool := bit (s.reg (R.chFirCtrl n)) 1 || s.firDecimating n

/-- Units that the FIR of input n asks of the load account, ceil(F / 8) (R297). -/
def State.firUnits (s : State) (n : Nat) : Nat :=
  ceilDiv (min 48 (ceilDiv (s.firEff n * s.spanB n) (if s.firDecimating n then s.decRatio n else 1))) 8

/-- The taps of the bank in force; one unity tap over budget (R160). -/
def State.firCoefs (s : State) (n : Nat) : List Int :=
  if s.firOver n then [1] else (upTo (s.firTaps n)).map (s.coef n (s.firBank n))

/-- The shift in force. -/
def State.firShift (s : State) (n : Nat) : Nat := if s.firOver n then 0 else s.rf (R.chFirHdr n (s.firBank n)) 18 5

/-- The state with a channel changed. -/
def State.modChan (s : State) (n : Nat) (f : Chan → Chan) : State := { s with chans := vmod s.chans n f }

/-- The channel of input n. -/
def State.chan (s : State) (n : Nat) : Chan := vget s.chans n Chan.reset

/-- A cause of CH_ALERT_n (R180): recorded, and raised on a head only. -/
def State.chAlert (s : State) (n cause : Nat) : State :=
  let s := s.setReg (R.chAlertInfo n) (pack [(0, cause), (3, 1)])
  if s.headOf n = n then s.raise (64 + n) else s

/-- A cause of CH_ALERT_n that falls at elapsed boundary b (R180). -/
def State.chAlertAt (s : State) (n cause b : Nat) : State :=
  let s := s.setReg (R.chAlertInfo n) (pack [(0, cause), (3, 1)])
  if s.headOf n = n then s.raiseAt b (64 + n) (pathOfSource (64 + n)) else s

/-! ### What governs a sample (02 R46, R154) -/

/-- What governs the samples of input n from elapsed boundary b on, as the state stands. -/
def State.eraNow (s : State) (n b : Nat) : Era :=
  if (s.inp n).running then
    { since := b, brk := false, period := s.period n
      slots := (s.inp n).slots.map (fun x => x.map (fun sl =>
        let t := (s.slice sl).table (s.fs n) 0
        (tableVal t 0, tableVal t 1, tableVal t 2)))
      corr := s.reg (R.chCorr n), gain := s.reg (R.chGain n), coefs := s.firCoefs n, centre := s.firCentre n, shift := s.firShift n
      decim := s.firDecimating n, tap := s.tapEff n, mode := s.decMode n, ratio := s.decRatio n
      anchor := ceilDiv (s.chan n).decAnchor (s.period n), thrHi := s.reg64 (R.toneThrHi n), thrLo := s.reg64 (R.toneThrLo n) }
  else
    { since := b, brk := false, period := 0, slots := [], corr := 0, gain := 0, coefs := [], centre := 0, shift := 0, decim := false
      tap := false, mode := 0, ratio := 1, anchor := 0, thrHi := 0, thrLo := 0 }

/-- What governs input n's samples is noted at elapsed boundary b where it has changed. Its stream breaks where its sample period does, as
it starts or stops, and at a datapath soft reset, `reset` (R165). -/
def Input.note (x : Input) (e : Era) (reset : Bool) : Input :=
  match x.eras with
  | [] => if e.period = 0 then x else { x with eras := [{ e with brk := true }] }
  | o :: _ =>
    let brk := decide (o.period ≠ e.period) || (reset && decide (e.period ≠ 0))
    if ¬ brk ∧ { o with since := e.since, brk := false } = e then x else { x with eras := { e with brk := brk } :: x.eras }

/-- What governs every input's samples is noted at elapsed boundary b. -/
def State.noteEras (s : State) (b : Nat) (reset : Bool) : State :=
  (upTo 8).foldl (fun s n => s.modInput n (fun x => x.note (s.eraNow n b) reset)) s

/-- Tables and slot maps that serve from elapsed boundary b on are checked (05 R128) and noted. -/
def State.reload (s : State) (b : Nat) : State := (State.loadTables b 48 s).noteEras b false

/-- What governs the sample taken at elapsed tick t. -/
def Input.eraAt (x : Input) (t : Nat) : Option Era := x.eras.find? (fun e => decide (e.since ≤ t))

/-- The stream that holds elapsed tick t (R165): the boundary at which it begins, and the break at which it ends. -/
def Input.stream (x : Input) (t : Nat) : Nat × Option Nat :=
  let b := x.eras.filter (·.brk)
  (((b.find? (fun e => decide (e.since ≤ t))).map (·.since)).getD 0, ((b.filter (fun e => decide (t < e.since))).getLast?).map (·.since))

/-- An elapsed tick lies in a stream. -/
def inStream (w : Nat × Option Nat) (t : Nat) : Bool :=
  decide (w.1 ≤ t) && (match w.2 with | some e => decide (t < e) | none => true)

/-! ### The sample path (05 R123 to R125; R155 to R157, R169) -/

/-- A signal's samples as a command brings them: its input, the stream they belong to, the sample period, and the raw code of an index. -/
structure Path where
  x : Input
  w : Nat × Option Nat
  p : Nat
  first : Nat
  codes : List (BitVec 12)

/-- The raw code of the sample of index i (04 R106). -/
def Path.raw (q : Path) (i : Nat) : Int := if i < q.first then 0 else (q.codes.getD (i - q.first) 0).toInt

/-- The table of the slice that takes sample i (04 R109). -/
def Path.slot (q : Path) (i : Nat) : Option (W32 × W32 × W32) :=
  match q.x.eraAt (i * q.p) with
  | some e => e.slots.getD (slotOf q.p e.slots.length (i * q.p)) none
  | none => none

/-- The sample of index i is delivered as 0: in a settle vector (04 R118), or outside the stream. -/
def Path.mute (q : Path) (i : Nat) : Bool := !inStream q.w (i * q.p) || q.x.settledIn (i * q.p) (i * q.p / 128 * 128)

/-- The merged word of index i (05 R123, R124); an empty slot delivers 0 (04 R119). -/
def Path.merged (q : Path) (i : Nat) : Int :=
  if q.mute i then 0
  else match q.slot i with
    | some t => sliceWord (q.raw i) t.1.toInt t.2.1.toNat
    | none => 0

/-- The eight fractional-delay coefficients of a SKEW and a period, in 1/2^17; their sum is 1 (05 R125). No delay is a single unity
coefficient. -/
def delayCoef (skew : Int) (p j : Nat) : Int :=
  if skew = 0 then (if j = 3 then 2 ^ 17 else 0)
  else if j = 3 then 2 ^ 17 - (((upTo 8).filter (· ≠ 3)).map (Config.fracCoef skew p)).foldl (· + ·) 0
  else Config.fracCoef skew p j

/-- The word of index i after the fractional delay of its slot (05 R125). Neighbours outside the stream are 0 (log entry 21). -/
def Path.delayed (q : Path) (i : Nat) : Int :=
  let w := q.merged i
  if q.mute i ∨ w = 32752 ∨ w = -32768 then w
  else match q.slot i with
    | some t =>
      let sum := (upTo 8).foldl (fun a j => a + delayCoef t.2.2.toInt q.p j * (if i + j < 3 then 0 else q.merged (i + j - 3))) 0
      (clampI (-32768) 32752 ((sum + 2 ^ 16) / 2 ^ 17)).1
    | none => w

/-- The word of index i after per-input correction, and whether it saturated (R155); settle samples are 0 in every stage (04 R118), and
so is what lies outside the stream (R165). -/
def Path.corrected (q : Path) (i : Nat) : Int × Bool :=
  if q.mute i then (0, false)
  else match q.x.eraAt (i * q.p) with
    | some e => inputWord (q.delayed i) (sextInt 20 (fld e.corr 0 20)) (fld e.gain 0 18) (bit e.corr 20)
    | none => (0, false)

/-- The FIR output labelled i, and whether it saturated (R157). -/
def Path.fir (q : Path) (i : Nat) : Int × Bool :=
  match q.x.eraAt (i * q.p) with
  | some e =>
    firWord e.coefs ((upTo e.coefs.length).map (fun k => if i + e.centre < k then 0 else (q.corrected (i + e.centre - k)).1)) e.shift
  | none => (0, false)

/-- The word of index i in the stream that the trigger cells and the tone detector take (R159). -/
def Path.tapped (q : Path) (i : Nat) : Int :=
  if (q.x.eraAt (i * q.p)).any (·.tap) then (q.corrected i).1 else (q.fir i).1

/-- The output words of a decimator block of labels lo to hi - 1 (R169, R171). -/
def Path.block (q : Path) (mode lo hi : Nat) : List Int :=
  if mode = 1 ∨ mode = 2 then decBlock mode ((upTo (hi - lo)).map (fun j => (q.fir (lo + j)).1)) else [(q.fir lo).1]

/-- The path of the samples of input n's stream at elapsed tick t, of period p. -/
def State.path (s : State) (n t p : Nat) (x : Samples) : Path :=
  { x := s.inp n, w := (s.inp n).stream t, p := p, first := s.elapsedOf x.first.toNat / max 1 p, codes := x.codes }

/-! ### Flags through the stages (R159, R165, R170) -/

/-- OVR flags of the vectors that hold the elapsed ticks from t to u of head n's stream: of the FIR's output where `fir` says so of what
governs them, else of its input. A vector of the FIR's output takes those of every input vector that it uses; inputs at or after a break
carry both (R165). -/
def State.pathFlags (s : State) (n t u : Nat) (fir : Era → Bool) : Nat :=
  let w := (s.inp n).stream t
  (spansOf none (s.inp n).eras).foldl (fun f e =>
    let a := max t e.1.since
    let b := match e.2 with
      | some z => min u (z - 1)
      | none => u
    if e.1.period = 0 ∨ b < a ∨ e.2.any (· ≤ e.1.since) then f
    else if fir e.1 then
      let q := 128 / e.1.period
      let lo := (a / 128 * q + e.1.centre + 1 - e.1.coefs.length) / q
      let hi := (b / 128 * q + q - 1 + e.1.centre) / q
      f ||| s.flagsRange n (max (w.1 / 128) lo) hi ||| (if w.2.any (· ≤ hi * 128) then 3 else 0)
    else f ||| s.flagsRange n (a / 128) (b / 128)) 0

/-- OVR flags of the decimator outputs whose blocks hold the labels lo to hi, of sample period p (R170). -/
def State.outputFlags (s : State) (n p lo hi : Nat) : Nat := s.pathFlags n (lo * p) (hi * p) (fun _ => true)

/-- OVR flags of the elapsed ticks from t to u in the stream that cells and detector take (R159). -/
def State.tapFlags (s : State) (n t u : Nat) : Nat := s.pathFlags n t u (fun e => !e.tap)

/-- CH_SAT (R155, R157, R180): the vector at count t of the running signal headed by n passes both stages. Saturated outputs are counted,
in decimating form those that the decimator keeps; a stage that saturated any of them is reported once, when the vector has left it (R153). -/
def execChSat (n : Fin 8) (t : W64) (x : Samples) (s : State) : Host.Outcome State Fault Refusal := s.awake <|
  let v := s.elapsedOf t.toNat / 128
  match (s.inp n).eraAt (v * 128) with
  | none => .next s
  | some e =>
    if e.period = 0 then .next s
    else
      let s := s.advance (v * 128)
      let q := s.path n (v * 128) e.period x
      let own := (upTo (128 / e.period)).map (v * (128 / e.period) + ·)
      let kept := if e.decim then own.filter (fun i => decide (e.anchor ≤ i) && (i - e.anchor) % e.ratio == 0) else own
      let a := own.countP (fun i => (q.corrected i).2)
      let b := kept.countP (fun i => (q.fir i).2)
      let s := if a = 0 then s else (s.bumpBy (R.chSatCorr n) a).chAlertAt n 2 (s.boundaryFrom (v * 128 + 1119))
      .next (if b = 0 then s else (s.bumpBy (R.chSatFir n) b).chAlertAt n 3 (s.boundaryFrom (v * 128 + 3167)))

/-! ### Tone detector (R173 to R177) -/

/-- Prefilter length P (R173). -/
def State.tonePre (s : State) (n : Nat) : Nat := 2 ^ min 16 (s.rf (R.toneCtrl n) 1 5)

/-- Block length L (TONE_LEN: below 64 acts as 64, above 2^20 as 2^20). -/
def State.toneLen (s : State) (n : Nat) : Nat := max 64 (min (2 ^ 20) (s.rf (R.toneLen n) 0 21))

/-- cos and sin of 2 pi a / 2^32 in 1/2^64, from the series of the angle within its quadrant. -/
def cosSin (a : Nat) : Int × Int :=
  let th : Int := (a % 2 ^ 30 * 57952155664616982739 / 2 ^ 31 : Nat)
  let r := (upTo 24).foldl (fun (z : Int × Int × Int) (k : Nat) =>
    let sg : Int := if k / 2 % 2 = 0 then 1 else -1
    let z := if k % 2 = 0 then (z.1 + sg * z.2.2, z.2.1, z.2.2) else (z.1, z.2.1 + sg * z.2.2, z.2.2)
    (z.1, z.2.1, z.2.2 * th / 2 ^ 64 / ((k : Int) + 1))) (0, 0, 2 ^ 64)
  match a / 2 ^ 30 % 4 with
  | 0 => (r.1, r.2.1)
  | 1 => (-r.2.1, r.1)
  | 2 => (-r.1, -r.2.1)
  | _ => (r.2.1, -r.1)

/-- X of R174 in 1/2^64: the block's prefiltered samples against the detector's frequency. -/
def toneX (us : List Int) (freq : Nat) : Int × Int :=
  (us.zipIdx).foldl (fun x u => let c := cosSin (freq * u.2 % 2 ^ 32); (x.1 + u.1 * c.1, x.2 - u.1 * c.2)) (0, 0)

/-- M of R174 before it saturates, rounded. -/
def toneMag (us : List Int) (freq : Nat) : Nat :=
  let x := toneX us freq
  let den : Int := us.length ^ 2 * 2 ^ 128
  ((2 * (x.1 * x.1 + x.2 * x.2) * 2 ^ 18 + den) / (2 * den)).toNat

/-- P of R174: the angle of X in 1/2^16 turn, found a bit of its quadrant at a time and rounded. -/
def tonePhase (us : List Int) (freq : Nat) : Nat :=
  let x := toneX us freq
  if x = (0, 0) then 0
  else
    let quad := if 0 < x.1 ∧ 0 ≤ x.2 then 0 else if x.1 ≤ 0 ∧ 0 < x.2 then 1 else if x.1 < 0 ∧ x.2 ≤ 0 then 2 else 3
    let a := (upTo 30).foldl (fun a i =>
      let c := cosSin (a + 2 ^ (29 - i))
      if 0 ≤ c.1 * x.2 - c.2 * x.1 then a + 2 ^ (29 - i) else a) (quad * 2 ^ 30)
    (a + 2 ^ 15) / 2 ^ 16 % 2 ^ 16

/-- The detector's M: within 0.1 % of the defined value where that is at least 2^24 (R174); below that the spec gives no accuracy, and the
value is free (log entry 7). -/
def toneMagOf (m dev : Nat) : Nat := if m < 2 ^ 24 then dev else max (m - m / 1000) (min (m + m / 1000) dev)

/-- The detector's P: within 4 units of the defined value where M is at least 2^30, and 0 where X is 0 (R174); else free (log entry 7). -/
def tonePhaseOf (us : List Int) (freq m dev : Nat) : Nat :=
  let p := tonePhase us freq
  if m = 0 ∧ toneX us freq = (0, 0) then 0
  else if m < 2 ^ 30 ∨ (dev + 2 ^ 16 - p + 4) % 2 ^ 16 ≤ 8 then dev
  else p

/-! ### What a boundary does (R160, R168, R171, R173, R176) -/

/-- Ticks of a block of the detector. -/
def ToneRun.ticks (r : ToneRun) : Nat := r.len * r.pre * r.period

/-- The detector's run ends at elapsed boundary b: its complete blocks are still delivered (R175), and the block open there is discarded. -/
def Chan.toneEnd (c : Chan) (b : Nat) : Chan :=
  match c.tone with
  | none => c
  | some r =>
    let k := (b - r.anchor) / r.ticks
    { c with
      tone := none
      toneDue := if r.block < k then c.toneDue ++ [{ r with stop := some k }] else c.toneDue
      toneOpen := decide ((b - r.anchor) % r.ticks ≠ 0) }

/-- After a change at elapsed boundary b from `old` (a commit, a mode entry or exit), the decimators and detectors take
their anchors; a block of the detector that a new anchor finds open is counted (R176). What governs the samples is noted. -/
def State.chanAnchors (old s : State) (b : Nat) : State :=
  let s := (upTo 8).foldl (fun s n =>
    let run := (s.inp n).running
    let started := run && (!(old.inp n).running || decide (old.span (n / 4) ≠ s.span (n / 4)))
    let s := if started || decide (old.reg (R.chDecCtrl n) ≠ s.reg (R.chDecCtrl n)) then s.modChan n (fun c => { c with decAnchor := b }) else s
    let moved := started || decide (old.reg (R.toneCtrl n) ≠ s.reg (R.toneCtrl n)) ||
      decide (old.reg (R.toneLen n) ≠ s.reg (R.toneLen n)) || decide (old.reg (R.toneFreq n) ≠ s.reg (R.toneFreq n))
    if !run then s.modChan n (fun c => c.toneEnd b)
    else if moved then
      let s := s.modChan n (fun c => c.toneEnd b)
      let s := if (s.chan n).toneOpen then s.bump (R.toneDiscard n) else s
      let w := s.reg (R.toneCtrl n)
      let r : ToneRun := { anchor := b, block := 0, stop := none, len := s.toneLen n, pre := s.tonePre n, period := s.period n,
                           freq := s.reg (R.toneFreq n), ctrl := w, above := false }
      s.modChan n (fun c => { c with tone := if bit w 0 then some r else none, toneOpen := false, info := setFld c.info 19 1 0 })
    else s) s
  s.noteEras b false

/-- The budgets are judged after a commit (R160), and FIR units that fall leave the account (R297). -/
def State.chanBudgets (old s : State) : State :=
  (upTo 8).foldl (fun s n =>
    if s.headOf n = n ∧ n < s.inputs then
      let s := if s.firOver n && !(old.firOver n && old.headOf n == n) then s.chAlert n 1 else s
      let fall := min (s.chan n).firHeld (old.firUnits n - s.firUnits n)
      if fall = 0 then s
      else (s.modChan n (fun c => { c with firHeld := c.firHeld - fall })).loadFall { Units.zero with core := fall }
    else s) s

/-- A staged write to a bank (R162): the bank in force at its point in the order discards it. -/
def State.firWrite (s : State) (n bank a : Nat) (v : W32) : State :=
  if s.firBank n = bank then (s.modChan n (fun c => { c with activeWr := true })).chAlert n 4
  else s.setReg a v

/-- Address of word k of a default equaliser set (R181). -/
def eqAddr (n span fs k : Nat) : Nat := 0x203000 + n * 0x10000 + span * 0x200 + fs * 0x100 + 4 * k

/-- Taps of the default set of a span (R166). -/
def eqTaps (span : Nat) : Nat := if span = 0 then 47 else if span = 1 then 23 else 11

/-- load_default (R167): the default set of the span and full scale that govern from the boundary, `final`, goes to the
bank that is not in force. -/
def State.loadDefault (final s : State) (n : Nat) : State :=
  let span := final.span (n / 4)
  let fs := final.fs n
  let bank := 1 - s.firBank n
  let t := eqTaps span
  let s := s.setReg (R.chFirHdr n bank) (pack [(0, t), (9, (t - 1) / 2), (18, 16)])
  (upTo 384).foldl (fun s k =>
    s.setReg (if bank = 0 then R.chFirA n k else R.chFirB n k) (if k < t then s.reg (eqAddr n span fs k) &&& 0x3FFFF else 0)) s

end Sys2Proof.Machine
end

