-- ==== Sys2Proof/Machine/Calibration.lean ====
section
/-! DEFINITION. Slice faults and rejoins (04 R119, R120), live calibration and rotations (05_live_calibration.md), and what a commit does
to the converters. -/

namespace Sys2Proof.Machine

/-! ### Slice faults (04 R119, R120, R122) -/

/-- SLICE_FAULT (04 R119): 16 lane errors within 65,536 CK_DP. The fault is reported at once; the slice stops serving at the first vector
boundary after. -/
def execSliceFault (slice : Fin 24) (s : State) : Host.Outcome State Fault Refusal := s.awake <|
  let x := s.slice slice
  if x.powered ∧ x.errs.length = 16 then
    let own := slice.val / 3
    let s := s.setReg (R.convFaultInfo own) (pack [(0, slice.val % 3), (2, x.lane), (7, 1)])
    let s := s.raiseP (17 + 4 * own) (pathLane slice x.lane)
    let b := boundaryAfter s.now
    .next (((s.advance b).retireSlice slice b).reload b)
  else .next s

/-- SLICE_REJOIN (04 R120): a readmitted slice fills the lowest empty slot of its signal, or rests. -/
def execSliceRejoin (slice : Fin 24) (s : State) : Host.Outcome State Fault Refusal := s.awake <|
  match (s.slice slice).joinAt with
  | none => .next s
  | some t =>
    let s := s.advance t
    let h := s.headOf (slice.val / 3)
    let s := s.modSlice slice (fun x => { x with joinAt := none, since := t, refPhase := 0 })
    .next (match (s.inp h).slots.findIdx? (· == none) with
      | some i => (s.fillSlot h i slice t).reload t
      | none => s)

/-! ### Tables (R127, R128) -/

/-- TABLE_TWIN_CHECK (R128): once every 2^10 CK_DP the tables in force of every running signal are checked; where one fails, the previous
one serves from the next vector boundary. An upset of a stored twin comes as the flipped bits of OFFSET in the slice's current and previous
table (log entry 7). -/
def execTableTwinCheck (slice : Fin 24) (flip prevFlip : W32) (s : State) : Host.Outcome State Fault Refusal := s.awake <|
  let f := s.fs (s.headOf (slice.val / 3))
  let upset := fun (w : W32) (t : List W32) => modAt t 0 (· ^^^ w)
  let s := s.modSlice slice (fun x => { x with tables := modAt (modAt x.tables (2 * f) (upset flip)) (2 * f + 1) (upset prevFlip) })
  let s := s.advance (alignUp s.now 131072)
  match (upTo 24).filter (fun sl => s.serving sl && s.tableFails sl) with
  | [] => .next s
  | bad =>
    let s := bad.foldl State.tableAlarm s
    let b := boundaryAfter s.now
    .next ((bad.foldl (fun s sl => s.fallBack sl b) (s.advance b)).reload b)

/-! ### Rotation (R129 to R143) -/

/-- A shadow window opens on head n for a rotation at elapsed boundary `rot`; a resting slice's reference sequence that
runs ends (R132, R137). -/
def State.openWindow (s : State) (n inc out rot : Nat) (forced : Bool) : State :=
  let s := (s.resting n).foldl (fun s sl => s.modSlice sl (fun x => if x.refPhase = 1 then { x with refPhase := 2 } else x)) s
  s.modInput n (fun x => { x with window := some { inc := inc, out := out, rot := rot, forced := forced } })

/-- SHADOW_WINDOW_OPEN (R130, R132): 32,768 ticks before the next scheduled rotation the window opens, or the rotation is
skipped; a skip is counted unless rot_en is 0. -/
def execShadowWindowOpen (n : Fin 8) (s : State) : Host.Outcome State Fault Refusal := s.awake <|
  let x := s.inp n
  if !x.running || s.underFg n then .next s
  else
    let s := s.advance (x.next - 32768)
    let s := s.modInput n (fun x => { x with next := x.next + s.rotInterval n })
    if ¬ bit (s.reg (R.calCtrl n)) 5 then .next s
    else
      match s.incoming n, s.outgoing n with
      | some i, some o =>
        if x.slots.contains none || decide (x.next - 32768 < x.settleEnd) || x.window.isSome then .next (s.bump (R.calSkipCount n))
        else .next (s.openWindow n i o x.next false)
      | _, _ => .next (s.bump (R.calSkipCount n))

/-- `v + (e - v) / 2^alpha` in table units, the estimate e a fraction, the step rounded with ties away from v, then clamped (R139).
Answers the value and whether a clamp acted. -/
def calMove (v : Int) (e : Int × Int) (alpha : Nat) (lim lo hi : Int) : Int × Bool :=
  let d := e.1 - v * e.2
  let den : Int := 2 * e.2 * 2 ^ alpha
  let m := (2 * d.natAbs + e.2 * 2 ^ alpha : Int) / den
  let st := if d < 0 then -m else m
  let st' := max (-lim) (min lim st)
  let r := max lo (min hi (v + st'))
  (r, decide (r ≠ v + st))

/-- A value's drift applied whole, then clamped (R138, R139). -/
def calDrift (v d lim lo hi : Int) : Int × Bool :=
  let r := max lo (min hi (v + max (-lim) (min lim d)))
  (r, decide (r ≠ v + d))

/-- Step limits of CAL_LIMITS in table units: OFFSET, GAIN, SKEW (R139). -/
def State.calLims (s : State) (n : Nat) : Int × Int × Int :=
  let w := s.reg (R.calLimits n)
  ((fld w 0 8 * 16 : Nat), (fld w 8 8 * 0x40000 / 10000 : Nat), (fld w 16 8 : Nat))

/-- A CLAMP is counted and raised (R139). -/
def State.calClamp (s : State) (n sl : Nat) (c : Bool) : State := if c then (s.bump (R.calClampCount n)).calAlert n 1 sl else s

/-- The incoming slice's new table at a rotation (R138): from the shadow estimates of OFFSET and GAIN, where the window qualified for
them, or from its reference drift. A table that fails its check is dropped (R127). -/
def State.updateIncoming (s : State) (n sl k : Nat) (off gain : Option (Int × Int)) (bad : Bool) : State :=
  let x := s.slice sl
  let f := s.fs n
  let t := x.table f 0
  let (lo, lg, ls) := s.calLims n
  let alpha := s.rf (R.calCtrl n) 8 2
  let o := (tableVal t 0).toInt
  let g : Int := fld (tableVal t 1) 0 20
  let sk := (tableVal t 2).toInt
  let drift : Int × Int := match x.meas, x.baseLadder with
    | some (a, b, _), some (a', b') => (a - a', b - b')
    | _, _ => (0, 0)
  let tone : Int := match x.meas, x.baseTone with
    | some (_, _, c), some c' => c - c'
    | _, _ => 0
  let no := match off with
    | some e => calMove o e alpha lo (-32768) 32767
    | none => calDrift o drift.1 lo (-32768) 32767
  let ng := match gain, off with
    | some e, _ => calMove g e alpha lg 0x30000 0x50000
    | none, some _ => (g, false)
    | none, none => calDrift g drift.2 lg 0x30000 0x50000
  let ns := calDrift sk tone ls (-1250) 1250
  let s := s.newTable sl bad f (BitVec.ofInt 32 no.1) (BitVec.ofInt 32 ng.1) (BitVec.ofInt 32 ns.1) (if off.isSome then 2 else 3) k
  if bad then s
  else
    let s := s.modSlice sl (fun x => { x with baseLadder := if off.isSome then x.meas.map (fun m => (m.1, m.2.1)) else x.baseLadder })
    ((s.calClamp n sl no.2).calClamp n sl ng.2).calClamp n sl ns.2

/-- The skew estimate of an active slice as it acts: moved, with those of every active slice of its signal, so that their mean is the mean
of the slices' tone measurements (R136; DEDUCED, log entry 21). A slice with no estimate counts with its SKEW. -/
def State.skewOf (s : State) (n : Nat) (e : Int × Int) : Int × Int :=
  let act := (s.inp n).slots.filterMap id
  let tones := act.filterMap (fun sl => (s.slice sl).meas.map (·.2.2))
  if tones = [] ∨ act = [] then e
  else
    let k : Int := act.length
    let c : Int := tones.length
    let sum := act.foldl (fun (a : Int × Int) sl =>
      let x := s.slice sl
      let r := x.skewEst.getD ((tableVal (x.table (s.fs n) 0) 2).toInt, 1)
      (a.1 * r.2 + r.1 * a.2, a.2 * r.2)) (0, 1)
    let t : Int := tones.foldl (· + ·) 0
    -- e - sum / k + t / c
    (e.1 * sum.2 * k * c - sum.1 * e.2 * c + t * e.2 * sum.2 * k, e.2 * sum.2 * k * c)

/-- An active slice with a complete skew estimate takes a new table at a rotation (R138). -/
def State.updateActive (s : State) (n sl k : Nat) (est : Int × Int) (bad : Bool) : State :=
  let f := s.fs n
  let t := (s.slice sl).table f 0
  let ns := calMove (tableVal t 2).toInt est (s.rf (R.calCtrl n) 8 2) (s.calLims n).2.2 (-1250) 1250
  let s := (s.newTable sl bad f (tableVal t 0) (tableVal t 1) (BitVec.ofInt 32 ns.1) 3 k).modSlice sl (fun x => { x with skewEst := none })
  if bad then s else s.calClamp n sl ns.2

/-! ### The shadow estimate (R134, R135) -/

/-- What a window's admitted pairs of words, incoming then outgoing, sum to. -/
structure Sums where
  n : Int
  x : Int
  y : Int
  xx : Int
  xy : Int
  yy : Int
  deriving DecidableEq, Repr

/-- The sums over pairs. -/
def Sums.of (ps : List (Int × Int)) : Sums :=
  ps.foldl (fun a p => { n := a.n + 1, x := a.x + p.1, y := a.y + p.2, xx := a.xx + p.1 * p.1, xy := a.xy + p.1 * p.2, yy := a.yy + p.2 * p.2 })
    { n := 0, x := 0, y := 0, xx := 0, xy := 0, yy := 0 }

/-- n² times the variance of the outgoing words, of the incoming words, and their covariance. -/
def Sums.vy (a : Sums) : Int := a.n * a.yy - a.y * a.y
/-- n² times the variance of the incoming words. -/
def Sums.vx (a : Sums) : Int := a.n * a.xx - a.x * a.x
/-- n² times the covariance. -/
def Sums.vxy (a : Sums) : Int := a.n * a.xy - a.x * a.y

/-- The window qualifies for offset: at least 1,024 pairs (R135). -/
def Sums.offQ (a : Sums) : Bool := decide (1024 ≤ a.n)

/-- It qualifies for gain as well: the outgoing words' rms about their mean is at least 64 LSB (R135). -/
def Sums.gainQ (a : Sums) : Bool := a.offQ && decide (1024 ^ 2 * a.n ^ 2 ≤ a.vy)

/-- The OFFSET estimate from OFFSET o (R135): by the mean difference, or by the intercept of the least-squares line of the outgoing words
on the incoming ones. -/
def Sums.off (a : Sums) (o : Int) : Int × Int :=
  if a.gainQ ∧ 0 < a.vx then (o * (a.n * a.vx) - 16 * (a.y * a.vx - a.vxy * a.x), a.n * a.vx) else (o * a.n + 16 * (a.x - a.y), a.n)

/-- The GAIN estimate from GAIN g: by the slope of the line. -/
def Sums.gain (a : Sums) (g : Int) : Int × Int := if 0 < a.vx then (g * a.vxy, a.vx) else (g, 1)

/-- The rms difference after the fit exceeds `lim` words (R135). -/
def Sums.over (a : Sums) (lim : Int) : Bool :=
  if a.gainQ then
    if 0 < a.vx then decide (lim ^ 2 * a.n ^ 2 * a.vx < a.vy * a.vx - a.vxy * a.vxy) else decide (lim ^ 2 * a.n ^ 2 < a.vy)
  else decide (lim ^ 2 * a.n ^ 2 < a.vx + a.vy - 2 * a.vxy)

/-- The words of the pairs of head n's window that R134 admits: of its 4,096 instants, those in vectors that carry no OVR, NBR or settle
flag. -/
def State.admitted (s : State) (n : Nat) (w : Shadow) (pairs : List (BitVec 12 × BitVec 12)) : List (Int × Int) :=
  let f := s.fs n
  let word := fun (sl : Nat) (c : BitVec 12) =>
    let t := (s.slice sl).table f 0
    sliceWord c.toInt (tableVal t 0).toInt (tableVal t 1).toNat
  ((pairs.take 4096).zipIdx.filter (fun p => s.flagsOf n (w.rot / 128 - 256 + p.2 / 16) == 0)).map (fun p => (word w.inc p.1.1, word w.out p.1.2))

/-- A request that an ending window serves completes (R142). -/
def State.rotateServed (s : State) (n : Nat) (w : Shadow) : State :=
  let s := if w.forced then s.endForced n else s
  s.modInput n (fun x => { x with window := none, rn := if x.rn = 3 then 4 else x.rn })

/-- A fraction rounded to the nearest unit. -/
def nearest (e : Int × Int) : W32 := BitVec.ofInt 32 ((2 * e.1 + e.2) / (2 * e.2))

/-- CAL_ROTATION (R133 to R138): the window of head n ends; `pairs` are the raw codes that the incoming and the outgoing slice took in it,
and `bad` the slices whose new table fails its check (R127; log entry 7). A residual above the limit cancels the rotation; an incoming slice
whose tables are lost ends the window without one (R128, R143). -/
def execCalRotation (n : Fin 8) (pairs : List (BitVec 12 × BitVec 12)) (bad : BitVec 24) (s : State) : Host.Outcome State Fault Refusal := s.awake <|
  match (s.inp n).window with
  | none => .next s
  | some w =>
    let s := s.advance w.rot
    let k := s.countAt w.rot
    let a := Sums.of (s.admitted n w pairs)
    let t := (s.slice w.inc).table (s.fs n) 0
    let off := if a.offQ then some (a.off (tableVal t 0).toInt) else none
    let gain := if a.gainQ then some (a.gain (fld (tableVal t 1) 0 20 : Nat)) else none
    let s := match off with
      | some e => s.setReg (R.calLastEst n 0) (nearest e)
      | none => s
    let s := match gain with
      | some e => s.setReg (R.calLastEst n 1) (nearest e)
      | none => s
    if a.offQ && a.over (4 * s.rf (R.calLimits n) 24 8 : Nat) then
      .next (((s.calAlert n 2 w.inc).bump (R.calSkipCount n)).rotateServed n w)
    else
      let (ok, s) := s.checkTable w.inc w.rot
      if (s.slice w.inc).faulted then .next (s.reload w.rot)
      else
      let upd := bit (s.reg (R.calCtrl n)) 6
      let s := if upd && ok then s.updateIncoming n w.inc k off gain (bad.getLsbD w.inc) else s
      let act := ((s.inp n).slots.filterMap id).filter (· ≠ w.out)
      let ests := act.filterMap (fun sl => (s.slice sl).skewEst.map (fun e => (sl, s.skewOf n e)))
      let s := if upd then ests.foldl (fun s e => s.updateActive n e.1 k e.2 (bad.getLsbD e.1)) s else s
      let s := s.leave w.out
      let s := match (s.inp n).slots.findIdx? (· == some w.out) with
        | some i => s.fillSlot n i w.inc w.rot
        | none => s
      let s := s.modSlice w.out (fun x => { x with since := w.rot, refPhase := 0, skewEst := none })
      let s := (s.setReg64 (R.calLastRot n) k).bump (R.calRotCount n)
      .next (((s.raise (18 + 4 * n)).rotateServed n w).reload w.rot)

/-- SKEW_ESTIMATE_DONE (R136): an active slice has had `count` samples admitted, with sums of difference times slope and of slope squared in
words; the estimate is complete from 65,536 samples and a mean squared slope of (16 LSB per sample period)² on. -/
def execSkewEstimateDone (slice : Fin 24) (count : W32) (dot sq : W64) (s : State) : Host.Outcome State Fault Refusal := s.awake <|
  let h := s.headOf (slice.val / 3)
  if (s.inp h).running ∧ (s.inp h).slots.contains (some slice.val) ∧ ¬ s.underFg h ∧ 65536 ≤ count.toNat ∧
      65536 * count.toNat ≤ sq.toNat then
    let s := s.modSlice slice (fun x => { x with skewEst := some (dot.toInt * (1250 * s.period h : Nat), (sq.toNat : Int)) })
    .next (s.setReg (R.calLastEst h 2) (nearest (s.skewOf h (dot.toInt * (1250 * s.period h : Nat), (sq.toNat : Int)))))
  else .next s

/-- REF_MEASURE_START (R137): at the first vector boundary of its rest, once it is powered up, a resting slice starts its sequence of 480
CK_DP, while ref_en is 1 and no window of the signal is open or would cut it short. -/
def execRefMeasureStart (slice : Fin 24) (s : State) : Host.Outcome State Fault Refusal := s.awake <|
  let h := s.headOf (slice.val / 3)
  let x := s.inp h
  let c := s.reg (R.calCtrl h)
  let y := s.slice slice
  let b := alignUp (max y.since y.readyAt) 128
  if x.running ∧ bit c 7 ∧ (s.resting h).contains slice.val ∧ y.refPhase = 0 ∧ x.window.isNone ∧ ¬ s.underFg h ∧ s.now ≤ b ∧
      ¬ (bit c 5 ∧ x.next - 32768 < b + 61440) then
    .next ((s.advance b).modSlice slice (fun x => { x with refPhase := 1, refStart := b }))
  else .next s

/-- REF_MEASURE_DONE (R137): the sequence ends with the ladder's offset and gain and the tone's timing, in table units. -/
def execRefMeasureDone (slice : Fin 24) (off gain tone : W32) (s : State) : Host.Outcome State Fault Refusal := s.awake <|
  if (s.slice slice).refPhase = 1 then
    let s := s.advance ((s.slice slice).refStart + 61440)
    .next (s.modSlice slice (fun x => { x with refPhase := 2, meas := some (off.toInt, gain.toInt, tone.toInt) }))
  else .next s

/-- ROTATE_NOW (R142): a staged rotate_now takes effect at elapsed boundary b. -/
def State.rotateNow (s : State) (n b : Nat) : State :=
  let x := s.inp n
  if !x.running || s.underFg n then s.modInput n (fun x => { x with rn := 6 })
  else if x.rn = 1 ∨ x.rn = 3 then s
  else if x.window.isSome then s.modInput n (fun x => { x with rn := 3 })
  else
    let s := s.modInput n (fun x => { x with rn := 1, rnEnd := b + 2 ^ 27 })
    s.askPermit (20 + n) 10 { Units.zero with core := 2 } none

/-- FORCED_WINDOW_OPEN (R142): at the first vector boundary after the rotate-now permit is granted the forced window opens,
or the window that is open by then serves the request. -/
def execForcedWindowOpen (n : Fin 8) (s : State) : Host.Outcome State Fault Refusal := s.awake <|
  match s.granted (20 + n) 10 with
  | none => .next s
  | some e =>
    if (s.inp n).rn = 1 ∧ (s.inp n).running ∧ ¬ s.underFg n then
      match (s.inp n).window with
      | some _ => .next ((s.dropPermit (20 + n) 10).modInput n (fun x => { x with rn := 3 }))
      | none =>
        let b := boundaryAfter s.now
        let s := s.advance b
        match s.incoming n, s.outgoing n with
        | some i, some o =>
          let s := s.handOver e { Units.zero with core := 2 } 0
          .next ((s.modInput n (fun x => { x with rn := 3 })).openWindow n i o (b + 32768) true)
        | _, _ => .next s
    else .next s

/-- ROTATE_NOW_DENIED (R142): the permit is not granted within 2^20 CK_DP. -/
def execRotateNowDenied (n : Fin 8) (s : State) : Host.Outcome State Fault Refusal := s.awake <|
  if (s.inp n).rn = 1 ∧ (s.granted (20 + n) 10).isNone then
    let s := s.advance (s.inp n).rnEnd
    .next (((s.dropPermit (20 + n) 10).modInput n (fun x => { x with rn := 5 })).calAlert n 6 0)
  else .next s

/-- What a commit at elapsed boundary b does to the converters and their calibration (R113, R120 to R122, R129, R141,
R143): `old` is the state before its writes, `readmit` the readmit bits written for an input, `rotNow` its rotate_now. Only what governs a
running signal acts (R112, R150). -/
def State.convCommit (old s : State) (b : Nat) (readmit : Nat → Nat) (rotNow : Nat → Bool) : State :=
  let spanned := fun bay => decide (old.span bay ≠ s.span bay)
  let s := if spanned 0 || spanned 1 then s.setReg64 R.spanLast (s.countAt b) else s
  let s := (upTo 8).foldl (fun s n => if spanned (n / 4) then s.abandonWindow n b true else s) s
  let s := (upTo 24).foldl (fun s sl =>
    let x := s.slice sl
    if (readmit (sl / 3)).testBit (sl % 3) && x.faulted && !x.tablesLost then
      let on := s.signalOn (s.headOf (sl / 3))
      s.modSlice sl (fun x => { x with
        faulted := false, errs := [], powered := on, readyAt := b + 2097152, joinAt := if on then some (b + 2097152) else none })
    else s) s
  let s := s.convSync b spanned
  let s := (upTo 8).foldl (fun s n =>
    let c := old.reg (R.calCtrl n)
    let c' := s.reg (R.calCtrl n)
    let s := if (s.inp n).running then
        let s := if old.fs n ≠ s.fs n then
            let s := (s.abandonWindow n b true).settle n b (b + 256)
            (s.signalSlices n).foldl (fun s sl => s.modSlice sl (fun x => { x with skewEst := none })) s
          else s
        let s := if fld c 0 5 ≠ fld c' 0 5 then (s.abandonWindow n b true).setOrigin n b
          else if ¬ bit c 5 ∧ bit c' 5 then s.setOrigin n b else s
        if bit c 5 ∧ ¬ bit c' 5 then s.abandonWindow n b false else s
      else s
    if rotNow n then s.rotateNow n b else s) s
  State.loadTables b 48 s

end Sys2Proof.Machine
end

