-- ==== Sys2Proof/Machine/Trigger.lean ====
section
/-! DEFINITION. Trigger cells, programs, holdoff and rate limits (07_trigger.md), up to the decisions that TRIG_DECISION
takes. A sample is judged by the settings in force when its command is taken (log entry 1). -/

namespace Sys2Proof.Machine

/-! ### Settings -/

/-- The state with a cell changed. -/
def State.modCell (s : State) (c : Nat) (f : TCell → TCell) : State := { s with trig := { s.trig with cells := vmod s.trig.cells c f } }

/-- The state with a program changed. -/
def State.modProg (s : State) (p : Nat) (f : TProg → TProg) : State := { s with trig := { s.trig with progs := vmod s.trig.progs p f } }

/-- Cell c. -/
def State.cell (s : State) (c : Nat) : TCell := vget s.trig.cells c TCell.reset

/-- Program p. -/
def State.prog (s : State) (p : Nat) : TProg := vget s.trig.progs p TProg.reset

/-- The cell is enabled. -/
def State.cellOn (s : State) (c : Nat) : Bool := bit (s.reg (R.tcCtrl c)) 0
/-- The cell's type. -/
def State.cellType (s : State) (c : Nat) : Nat := s.rf (R.tcCtrl c) 1 3
/-- The cell's slope. -/
def State.cellSlope (s : State) (c : Nat) : Nat := s.rf (R.tcCtrl c) 4 2
/-- The cell's condition. -/
def State.cellCond (s : State) (c : Nat) : Nat := s.rf (R.tcCtrl c) 6 3
/-- The cell's source kind. -/
def State.cellKind (s : State) (c : Nat) : Nat := s.rf (R.tcCtrl c) 9 3
/-- The cell's source index. -/
def State.cellIndex (s : State) (c : Nat) : Nat := s.rf (R.tcCtrl c) 12 12
/-- Level U. -/
def State.levelU (s : State) (c : Nat) : Int := (s.reg (R.tcLevelU c)).toInt
/-- Level Lo. -/
def State.levelLo (s : State) (c : Nat) : Int := (s.reg (R.tcLevelLo c)).toInt

/-- An enabled cell is invalid (R193). -/
def State.cellInvalid (s : State) (c : Nat) : Bool :=
  let ty := s.cellType c
  let kind := s.cellKind c
  s.cellOn c && (ty == 7 || s.cellSlope c == 3 || decide (4 < s.cellCond c) || decide (4 < kind) ||
    ((kind == 0 || kind == 2) && ty == 6) || (kind == 1 && ty != 6) || ((kind == 3 || kind == 4) && ty != 0) ||
    ((ty == 2 || ty == 3 || ty == 4) && decide (s.levelU c ≤ s.levelLo c)))

/-- The cell's state as programs see it (R189, R193, R582). -/
def State.cellState (s : State) (c : Nat) : Bool :=
  let x := s.cell c
  s.cellOn c && !s.cellInvalid c && decide (s.cellKind c ≤ 2) &&
    (match s.cellType c with
    | 3 => x.qLo && !x.qU
    | 6 => x.above
    | _ => x.qU)

/-- The head of the signal that a STREAM or TONE cell watches. -/
def State.cellHead (s : State) (c : Nat) : Nat := s.cellIndex c % 8

/-- Flags of the vector of elapsed tick t in the stream that cells of head n take (R159, R182). -/
def State.streamFlags (s : State) (n t : Nat) : Nat := s.tapFlags n t t

/-- A cell after a start (R184): its next value sets its levels and arms. -/
def TCell.restart (k : TCell) : TCell := { k with started := false, prev := [], openP := none, openN := none, wait := none }

/-- A STREAM cell that takes a value at elapsed tick t has passed a run of settle vectors since its last one (R183). -/
def State.passedSettle (s : State) (c t : Nat) : Bool :=
  let x := s.inp (s.cellHead c)
  match (s.cell c).prev with
  | [] => false
  | p :: _ => ((x.settleFrom, x.settleEnd) :: x.settles).any (fun w => decide (p.1 < w.1) && decide (w.1 < w.2) && decide (w.1 ≤ t))

/-- A STREAM cell receives the sample taken at elapsed tick t (R183): its input is an enabled head of a running signal, and the sample is
not in a settle vector. -/
def State.receives (s : State) (c t : Nat) : Bool :=
  let n := s.cellHead c
  s.cellOn c && s.cellKind c == 0 && (s.inp n).running && s.headOf n == n && !s.inSettle n t

/-! ### Interpolation (R194) -/

/-- Coefficients of 6 times the cubic of R194 in u, the level at 0: constant term first. -/
def cubicCoef (a b c d : Int) : List Int := [6 * b, -2 * a - 3 * b + 6 * c - d, 3 * a - 6 * b + 3 * c, -a + 3 * b - 3 * c + d]

/-- The polynomial of coefficients cs, constant term first, at j / S, times S to the power of its degree. -/
def polyAt (cs : List Int) (S j : Int) : Int :=
  (cs.zipIdx).foldl (fun a c => a + c.1 * j ^ c.2 * S ^ (cs.length - 1 - c.2)) 0

/-- Sign variations in a list of numbers, zeros left out. -/
def variations (l : List Int) : Nat :=
  let l := l.filter (· ≠ 0)
  (l.zip (l.drop 1)).countP (fun p => decide (p.1 * p.2 < 0))

/-- Minus the remainder of p by q times a positive number, by pseudo-division: coefficients from the leading one. -/
def negRem (q : List Int) : Nat → List Int → List Int
  | 0, p => p.map (-·)
  | k + 1, p => match p, q with
    | a :: p', b :: q' =>
      if p.length < q.length then p.map (-·)
      else negRem q k ((p'.zipIdx).map (fun x => (x.1 * b - (if x.2 < q'.length then q'.getD x.2 0 * a else 0)) * b))
    | _, _ => p.map (-·)

/-- The Sturm chain after p, q: coefficients from the leading one, without leading zeros. -/
def sturm : Nat → List Int → List Int → List (List Int)
  | 0, p, _ => [p]
  | k + 1, p, q =>
    let q := q.dropWhile (· == 0)
    if q = [] then [p] else p :: sturm k q ((negRem q 8 p).dropWhile (· == 0))

/-- Distinct roots of the cubic of R194 in (i / S, j / S]. -/
def rootsIn (ch : List (List Int)) (S i j : Int) : Nat :=
  variations (ch.map (fun p => polyAt p.reverse S i)) - variations (ch.map (fun p => polyAt p.reverse S j))

/-- The least j of lo + 1 to lo + 2^k with a root of the chain's polynomial in (i / S, j / S], where the last has one. -/
def firstRoot (ch : List (List Int)) (S i : Int) : Nat → Int → Int
  | 0, lo => lo + 1
  | k + 1, lo => if 0 < rootsIn ch S i (lo + 2 ^ k) then firstRoot ch S i k lo else firstRoot ch S i k (lo + 2 ^ k)

/-- Offset of a crossing after x[i - 1] in 1/65,536 tick (R194 steps 2 and 3): the smallest root of the cubic, or of the
straight line, rounded with ties up. The root is located by half units: one in ((j - 1) / 2, j / 2] rounds to j / 2 for an even j, and for
an odd j down, unless it is the upper end itself. -/
def crossDelta (ts : Nat) (level b c : Int) (outer : Option (Int × Int)) : Nat :=
  if b = level then 0
  else match outer with
    | none =>
      let n := (level - b).natAbs * (ts * 65536)
      let d := (c - b).natAbs
      (2 * n + d) / (2 * d)
    | some (a, d) =>
      let S : Int := 2 * ts * 65536
      let p := cubicCoef (a - level) (b - level) (c - level) (d - level)
      let lead := p.reverse.dropWhile (· == 0)
      let der := ((p.zipIdx.drop 1).map (fun x => x.1 * (x.2 : Int))).reverse
      let ch := sturm 4 lead der
      let j := firstRoot ch S 0 19 0
      let end_ := decide (polyAt p S j = 0) && rootsIn ch (S * 2 ^ 128) ((j - 1) * 2 ^ 128) (j * 2 ^ 128 - 1) == 0
      if j % 2 ≠ 0 ∧ end_ then (j.toNat + 1) / 2 else j.toNat / 2

/-! ### Levels (R186) -/

/-- Events of one value, in the order of R188 for equal times. -/
inductive CellEvent where
  | riseLo | riseU | fallU | fallLo | quietU | quietLo
  deriving DecidableEq, Repr

/-- Rank of R188. -/
def CellEvent.rank : CellEvent → Nat
  | .riseLo => 0
  | .riseU => 1
  | .fallU => 2
  | .fallLo => 3
  | .quietU => 4
  | .quietLo => 5

/-- q, rarm and farm of a level after value x, and whether it rose or fell (R186). -/
def levelStep (q rarm farm : Bool) (x l h : Int) : (Bool × Bool × Bool) × Bool × Bool :=
  let rise := rarm && decide (l ≤ x)
  let fall := farm && decide (x < l)
  let q := if rise then true else q
  let rarm := if rise then false else rarm
  let q := if fall then false else q
  let farm := if fall then false else farm
  let low := decide (x < l - h)
  let high := decide (l + h ≤ x)
  let q := if low then false else q
  let q := if high then true else q
  ((q, rarm || low, farm || high), rise, fall)

/-- Events inserted in order of fine time, then rank. -/
def insertEvent (e : Nat × CellEvent × Bool) : List (Nat × CellEvent × Bool) → List (Nat × CellEvent × Bool)
  | [] => [e]
  | x :: r => if e.1 < x.1 ∨ (e.1 = x.1 ∧ e.2.1.rank ≤ x.2.1.rank) then e :: x :: r else x :: insertEvent e r

/-! ### Cell types (R189 to R191, R582) -/

/-- Whether a width w, fine, meets the cell's condition (R190). -/
def State.condOk (s : State) (c : Nat) (w : Nat) : Bool :=
  let t1 := s.reg64 (R.tcT1 c) * 65536
  let t2 := s.reg64 (R.tcT2 c) * 65536
  match s.cellCond c with
  | 0 => true
  | 1 => decide (w < t1)
  | 2 => decide (t1 < w)
  | 3 => decide (t1 < w) && decide (w < t2)
  | _ => decide (w < t1) || decide (t2 < w)

/-- How one kind of measurement opens, closes, and is discarded (R189). -/
structure Measure where
  opens : CellEvent
  closes : Option CellEvent
  drops : CellEvent
  quiet : CellEvent

/-- Measurements of positive (`pos`) and negative kind of a type. -/
def measureOf (ty : Nat) (pos : Bool) : Option Measure :=
  match ty, pos with
  | 1, true => some ⟨.riseU, some .fallU, .quietU, .quietU⟩
  | 1, false => some ⟨.fallU, some .riseU, .quietU, .quietU⟩
  | 2, true => some ⟨.riseLo, some .fallLo, .riseU, .quietLo⟩
  | 2, false => some ⟨.fallU, some .riseU, .fallLo, .quietU⟩
  | 4, true => some ⟨.riseLo, some .riseU, .fallLo, .quietLo⟩
  | 4, false => some ⟨.fallU, some .fallLo, .riseU, .quietU⟩
  | 5, true => some ⟨.riseU, none, .fallU, .quietU⟩
  | 5, false => some ⟨.fallU, none, .riseU, .quietU⟩
  | _, _ => none

/-- One measurement after an event at fine time k: its opening, and whether it fires. -/
def Measure.step (m : Measure) (ok : Nat → Bool) (o : Option (Nat × Bool)) (k : Nat) (e : CellEvent) (ip : Bool) :
    Option (Nat × Bool) × Bool :=
  let (o', fires) := match o with
    | none => (none, false)
    | some (t, i) =>
      if m.closes = some e then (none, ok (k - t))
      else if e = m.drops ∨ e = m.quiet then (none, false)
      else (some (t, i), false)
  (if e = m.opens then some (k, ip) else o', fires)

/-- A TIMEOUT measurement or a WINDOW wait whose time is at or before `limit` expires (R189, R191, R582): the cell, and the
fires so far with their fine times. -/
def State.expireCell (s : State) (c : Nat) (limit : Nat) (x : TCell × List (Nat × Bool)) : TCell × List (Nat × Bool) :=
  let t1 := s.reg64 (R.tcT1 c) * 65536
  let slope := s.cellSlope c
  if s.cellType c = 5 then
    let x := match x.1.openP with
      | some (t, i) => if t + t1 ≤ limit then ({ x.1 with openP := none }, x.2 ++ [(t + t1, i)]) else x
      | none => x
    match x.1.openN with
    | some (t, i) => if t + t1 ≤ limit then ({ x.1 with openN := none }, x.2 ++ [(t + t1, i)]) else x
    | none => x
  else match x.1.wait with
    | some (t, enter, i) =>
      if t + t1 ≤ limit then
        ({ x.1 with wait := none }, if slope = 2 ∨ (slope = 0) = (enter = true) then x.2 ++ [(t + t1, i)] else x.2)
      else x
    | none => x

/-- A cell after an event of the value under way, and the fires so far. -/
def State.cellEvent (s : State) (c : Nat) (x : TCell × List (Nat × Bool)) (ev : Nat × CellEvent × Bool) :
    TCell × List (Nat × Bool) :=
  let (k, e, ip) := ev
  let x := s.expireCell c k x
  let ty := s.cellType c
  let slope := s.cellSlope c
  if ty = 0 then
    if (e = .riseU ∧ slope ≠ 1) ∨ (e = .fallU ∧ slope ≠ 0) then (x.1, x.2 ++ [(k, ip)]) else x
  else if ty = 5 ∧ slope = 2 then
    if e = .riseU ∨ e = .fallU ∨ e = .quietU then ({ x.1 with openP := some (k, ip) }, x.2) else x
  else
    let x := match measureOf ty true with
      | some m => if slope = 1 then x else
          let r := m.step (s.condOk c) x.1.openP k e ip
          ({ x.1 with openP := r.1 }, if r.2 then x.2 ++ [(k, ip)] else x.2)
      | none => x
    match measureOf ty false with
    | some m => if slope = 0 then x else
        let r := m.step (s.condOk c) x.1.openN k e ip
        ({ x.1 with openN := r.1 }, if r.2 then x.2 ++ [(k, ip)] else x.2)
    | none => x

/-! ### Delivery of a value to a cell -/

/-- The KTS taken at a fine time (R69, R70, R203): source 1 cells, 3 TRIGIN, 4 REMOTE. -/
def State.ktsOf (s : State) (fine : Nat) (interpolated : Bool) (source : Nat) : Kts :=
  { at_ := fine, ticks := BitVec.ofNat 64 (s.stampAt (fine / 65536)), word2 := s.ktsWord2At (fine / 65536) (fine % 65536) interpolated source }

/-- Items of elapsed evaluation tick t join the tick under way (R196). -/
def State.addItems (s : State) (l : List CellItem) : State := { s with trig := { s.trig with items := s.trig.items ++ l } }

/-- The fires of cell c at a value, unless it is invalid or its mask suppresses them (R192, R193). -/
def State.addFires (s : State) (c : Nat) (flagged : Bool) (source : Nat) (fires : List (Nat × Bool)) : State :=
  if s.cellInvalid c || (flagged && bit (s.reg (R.tcCtrl c)) 24) then s
  else (s.bumpBy (R.tcFireCount c) fires.length).addItems
    (fires.map (fun f => { cell := c, fire := true, kts := s.ktsOf f.1 f.2 source }))

/-- A STREAM or SENSOR cell takes value x at elapsed tick t (R184, R186 to R191). `cross` gives the fine time of a crossing
of a level and whether it is interpolated. -/
def State.cellValue (s : State) (c t : Nat) (x : Int) (flagged : Bool) (cross : Int → Nat × Bool) : State :=
  let u := s.levelU c
  let lo := s.levelLo c
  let hu : Int := s.rf (R.tcHyst c) 0 16
  let hl : Int := s.rf (R.tcHyst c) 16 16
  let old := s.cell c
  let was := s.cellState c
  let ty := s.cellType c
  if !old.started then
    let s := s.modCell c (fun k => { k with
      started := true, qU := decide (u ≤ x), qLo := decide (lo ≤ x)
      rU := decide (x < u - hu), fU := decide (u + hu ≤ x), rLo := decide (x < lo - hl), fLo := decide (lo + hl ≤ x)
      prev := [(t, x, flagged)], openN := none, wait := none
      openP := if ty = 5 ∧ s.cellSlope c = 2 then some (t * 65536, false) else none })
    if s.cellState c = was then s else s.addItems [{ cell := c, fire := false, kts := s.ktsOf (t * 65536) false 1 }]
  else
    let ru := levelStep old.qU old.rU old.fU x u hu
    let rl := levelStep old.qLo old.rLo old.fLo x lo hl
    let quiet := t * 65536
    let evs := if ru.2.1 then insertEvent ((cross u).1, .riseU, (cross u).2) []
      else if ru.2.2 then insertEvent ((cross u).1, .fallU, (cross u).2) []
      else if ru.1.1 ≠ old.qU then [(quiet, .quietU, false)] else []
    let evs := if rl.2.1 then insertEvent ((cross lo).1, .riseLo, (cross lo).2) evs
      else if rl.2.2 then insertEvent ((cross lo).1, .fallLo, (cross lo).2) evs
      else if rl.1.1 ≠ old.qLo then insertEvent (quiet, .quietLo, false) evs else evs
    let k : TCell := { old with
      qU := ru.1.1, rU := ru.1.2.1, fU := ru.1.2.2, qLo := rl.1.1, rLo := rl.1.2.1, fLo := rl.1.2.2
      prev := (t, x, flagged) :: old.prev.take 1 }
    let r := evs.foldl (s.cellEvent c) (k, [])
    let ins0 := old.qLo && !old.qU
    let ins := k.qLo && !k.qU
    -- the event that brought `inside` to its last value: the last one that moved it
    let chg := (evs.foldl (fun (a : (Bool × Bool) × Option (Nat × Bool)) ev =>
      let qu := match ev.2.1 with
        | .riseU => true
        | .fallU => false
        | .quietU => k.qU
        | _ => a.1.1
      let ql := match ev.2.1 with
        | .riseLo => true
        | .fallLo => false
        | .quietLo => k.qLo
        | _ => a.1.2
      ((qu, ql), if (ql && !qu) ≠ (a.1.2 && !a.1.1) then some (ev.1, ev.2.2) else a.2)) ((old.qU, old.qLo), none)).2
    let slope := s.cellSlope c
    let r := if ty = 3 then
        match (if ins = ins0 then none else chg) with
        | some (k0, i0) =>
          if s.cellCond c = 2 then ({ r.1 with wait := some (k0, ins, i0) }, r.2)
          else ({ r.1 with wait := none }, if slope = 2 ∨ (slope = 0) = (ins = true) then r.2 ++ [(k0, i0)] else r.2)
        | none => r
      else r
    let r := s.expireCell c quiet r
    let s := s.modCell c (fun _ => r.1)
    let tc : Nat × Bool := if ty = 3 then chg.getD (quiet, false) else
      (evs.filter (fun e => e.2.1 = .riseU ∨ e.2.1 = .fallU ∨ e.2.1 = .quietU)).getLast?.map (fun e => (e.1, e.2.2)) |>.getD (quiet, false)
    let s := if s.cellState c = was then s else s.addItems [{ cell := c, fire := false, kts := s.ktsOf tc.1 tc.2 1 }]
    s.addFires c flagged 1 r.2

/-! ### Programs (R196 to R199, R583) -/

/-- Requirement of cell c in a program: 1 HIGH, 2 LOW, else IGNORE. -/
def State.patReq (s : State) (p c : Nat) : Nat := s.rf (R.tpPatReq p) (2 * c) 2

/-- Cells that a program does not ignore. -/
def State.patCells (s : State) (p : Nat) : List Nat := (upTo 16).filter (fun c => s.patReq p c = 1 ∨ s.patReq p c = 2)

/-- P of R197 with the states as they stand. -/
def State.pattern (s : State) (p : Nat) : Bool :=
  let hit := fun c => s.cellState c == (s.patReq p c == 1)
  if bit (s.reg (R.tpCtrl p)) 2 then (s.patCells p).any hit else (s.patCells p).all hit

/-- The earlier of two items, the lower cell number among equals (R197). -/
def earlier (a b : CellItem) : CellItem := if b.kts.at_ < a.kts.at_ ∨ (b.kts.at_ = a.kts.at_ ∧ b.cell < a.cell) then b else a

/-- The candidate of a program in PATTERN mode at the tick under way (R197). -/
def State.patternCand (s : State) (p : Nat) : Option Kts × State :=
  let was := (s.prog p).prevP
  let now := s.pattern p
  let s' := s.modProg p (fun x => { x with prevP := now })
  let ev := s.rf (R.tpPatEvt p) 0 16
  if ev ≠ 0 then
    match s.trig.items.filter (fun i => i.fire && ev.testBit i.cell) with
    | [] => (none, s')
    | i :: r => (if now then some (r.foldl earlier i).kts else none, s')
  else if now && !was then
    match (s.patCells p).findSome? (fun c => s.trig.items.find? (fun i => !i.fire && i.cell == c)) with
    | some i => (some i.kts, s')
    | none => (none, s')
  else (none, s')

/-- Roles of the fires of a tick in a sequence, in order of KTS, then C, B, A (R198). -/
def insertRole (e : Nat × Nat × Nat × Kts) : List (Nat × Nat × Nat × Kts) → List (Nat × Nat × Nat × Kts)
  | [] => [e]
  | x :: r => if e.1 < x.1 ∨ (e.1 = x.1 ∧ e.2.1 < x.2.1) then e :: x :: r else x :: insertRole e r

/-- A sequence after one fire in a role: 0 C, 1 B, 2 A; `i` numbers the fire (R198, R583). Answers the program, the fires
that served as B, and the candidate. -/
def State.seqStep (s : State) (p : Nat) (x : TProg × List Nat × Option Kts) (e : Nat × Nat × Nat × Kts) : TProg × List Nat × Option Kts :=
  let (k, role, i, kts) := e
  let w := s.reg64 (R.tpSeqWin p)
  let count := bit (s.reg (R.tpCtrl p)) 3
  let past := (!count && decide (x.1.tA + w * 65536 < k)) || x.1.ended.any (fun e => decide (e < k))
  let g := if x.1.armed && past then { x.1 with armed := false } else x.1
  if role = 0 then ({ g with armed := false }, x.2)
  else if role = 1 then
    if !g.armed then (g, x.2)
    else if count then
      if max w 1 ≤ g.n + 1 then ({ g with n := g.n + 1, armed := false }, i :: x.2.1, x.2.2.or (some kts))
      else ({ g with n := g.n + 1 }, i :: x.2.1, x.2.2)
    else ({ g with armed := false }, i :: x.2.1, x.2.2.or (some kts))
  else if x.2.1.contains i then (g, x.2)
  else if !g.armed || bit (s.reg (R.tpCtrl p)) 4 then ({ g with armed := true, tA := k, ended := none, n := 0 }, x.2)
  else (g, x.2)

/-- The candidate of a program in SEQUENCE mode at the tick under way (R198). -/
def State.sequenceCand (s : State) (p : Nat) : Option Kts × State :=
  let q := s.reg (R.tpSeq p)
  let fires := s.trig.items.filter (·.fire)
  let roles := (upTo fires.length).foldl (fun l i => match fires[i]? with
    | none => l
    | some f =>
      let l := if bit q 12 && f.cell == fld q 8 4 then insertRole (f.kts.at_, 0, i, f.kts) l else l
      let l := if f.cell == fld q 4 4 then insertRole (f.kts.at_, 1, i, f.kts) l else l
      if f.cell == fld q 0 4 then insertRole (f.kts.at_, 2, i, f.kts) l else l) []
  let r := roles.foldl (s.seqStep p) (s.prog p, [], none)
  (r.2.2, s.modProg p (fun _ => r.1))

/-- The tick under way is complete: each enabled program yields at most one candidate (R197, R198). -/
def State.closeTick (s : State) : State :=
  if s.trig.items = [] then s
  else
    let s := (upTo 4).foldl (fun s p =>
      if bit (s.reg (R.tpCtrl p)) 0 then
        let r := if bit (s.reg (R.tpCtrl p)) 1 then s.sequenceCand p else s.patternCand p
        match r.1 with
        | some k => { r.2 with trig := { r.2.trig with cands := r.2.trig.cands ++ [{ prog := p, kts := k, tq := r.2.trig.tick }] } }
        | none => r.2
      else s) s
    { s with trig := { s.trig with items := [] } }

/-! ### Holdoff and rate limits (R200, R201) -/

/-- Credits of a bucket after the boundaries from vector a to vector b. -/
def refill (level a b gain cap : Nat) : Nat := min cap (level + (b - a) * gain)

/-- A candidate passes its program's holdoff (R200). -/
def State.holdPass (s : State) (p fine : Nat) : Bool :=
  let x := s.prog p
  match x.tf with
  | none => true
  | some tf =>
    let time := decide (tf + min (s.reg64 (R.tpHoldTime p)) (2 ^ 48) * 65536 ≤ fine)
    let cnt := decide ((s.reg (R.tpHoldCount p)).toNat ≤ x.d)
    match s.rf (R.tpCtrl p) 5 2 with
    | 0 => true
    | 1 => time
    | 2 => cnt
    | _ => time && cnt

/-- Candidates in order of KTS, then program (R200). -/
def insertCand (e : Cand) : List Cand → List Cand
  | [] => [e]
  | x :: r => if e.kts.at_ < x.kts.at_ ∨ (e.kts.at_ = x.kts.at_ ∧ e.prog < x.prog) then e :: x :: r else x :: insertCand e r

/-- One candidate of vector v through holdoff and the three limits (R200, R201): the state, the number that went on per
program, the programs that dropped, whether the aggregate did, and the finals. -/
def State.judgeCand (v : Nat) (a : State × List Nat × List Nat × Bool × List Cand) (c : Cand) :
    State × List Nat × List Nat × Bool × List Cand :=
  let (s, went, dropped, agg, fin) := a
  let p := c.prog
  let s := s.modProg p (fun x => { x with bucket := refill x.bucket x.bucketVec v 16 1600, bucketVec := v })
  if !s.holdPass p c.kts.at_ then ((s.modProg p (fun x => { x with d := x.d + 1 })).bump (R.tpHoldDrop p), went, dropped, agg, fin)
  else if 8 ≤ went.count p then (s.bump (R.tpRateDrop p), went, p :: dropped, agg, fin)
  else if (s.prog p).bucket < 100 then (s.bump (R.tpRateDrop p), p :: went, p :: dropped, agg, fin)
  else if s.trig.agg < 100 then ((s.bump (R.tpRateDrop p)).bump R.trigAggDrop, p :: went, p :: dropped, true, fin)
  else
    let s := s.modProg p (fun x => { x with bucket := x.bucket - 100, tf := some c.kts.at_, d := 0 })
    ({ s with trig := { s.trig with agg := s.trig.agg - 100 } }, p :: went, dropped, agg, fin ++ [c])

/-- The candidates of vector v are all there: they are judged, and what falls at its decision tick is queued (R201,
R202). -/
def State.closeVector (s : State) (v : Nat) : State :=
  let mine := (s.trig.cands.filter (fun c => c.tq / 128 = v)).foldl (fun l c => insertCand c l) []
  let s := { s with trig := { s.trig with
    cands := s.trig.cands.filter (fun c => c.tq / 128 ≠ v)
    agg := refill s.trig.agg s.trig.aggVec v 24 2400, aggVec := max v s.trig.aggVec } }
  let (s, _, dropped, agg, fin) := mine.foldl (State.judgeCand v) (s, [], [], false, [])
  let td := 128 * (v + 96)
  let drops := ((upTo 4).filter dropped.contains).map (fun p => Decision.drop td (52 + p))
  let drops := if agg then drops ++ [.drop td 56] else drops
  { s with trig := { s.trig with decisions := s.trig.decisions ++ fin.map (Decision.final td) ++ drops } }

/-- Every vector with candidates before vector v closes, in order. -/
def State.closeVectors (s : State) (v : Nat) : State :=
  let vs := ((s.trig.cands.map (fun c => c.tq / 128)).filter (· < v)).foldl (fun l x => if l.contains x then l else l ++ [x]) []
  vs.foldl State.closeVector s

/-- Evaluation reaches elapsed tick t: an earlier tick and earlier vectors close (R196). -/
def State.evalAt (s : State) (t : Nat) : State :=
  if t = s.trig.tick then s
  else
    let s := s.closeTick
    let s := s.closeVectors (t / 128)
    { s with trig := { s.trig with tick := t } }

/-! ### Commands -/

/-- TC_FIRE (R182, R183, R186, R189, R194): a STREAM cell evaluates the sample taken at count t, of the stream that it takes. A fire
carries its crossing KTS; the sample after it serves the interpolation where the stream has one that is no settle sample. Settle vectors are
not evaluated, and after a run of them the cell starts again. -/
def execTcFire (c : Fin 16) (t : W64) (x : Samples) (s : State) : Host.Outcome State Fault Refusal := s.awake <|
  let n := s.cellHead c
  let e := s.elapsedOf t.toNat
  let ts := s.period n
  if s.receives c e ∧ e % ts = 0 then
    let s := (s.advance e).evalAt e
    let s := if s.passedSettle c e then s.modCell c TCell.restart else s
    let q := s.path n e ts x
    let v := q.tapped (e / ts)
    let fl := decide (s.streamFlags n e ≠ 0)
    let flNext := decide (s.streamFlags n (e + ts) ≠ 0)
    let cross := fun (level : Int) => match (s.cell c).prev with
      | [] => (e * 65536, false)
      | (t1, b, f1) :: r =>
        if decide (b < level) = decide (v < level) then (e * 65536, false)
        else
          let outer := match r with
            | (t2, a, f2) :: _ =>
              if t2 + ts = t1 ∧ ¬ (fl || flNext || f1 || f2) ∧ ¬ q.mute (e / ts + 1) then some (a, q.tapped (e / ts + 1)) else none
            | _ => none
          (t1 * 65536 + crossDelta ts level b v outer, true)
    .next (s.cellValue c e v fl cross)
  else .next s

/-- A STREAM cell's value at elapsed tick t reaches the time of an open TIMEOUT measurement or a WINDOW wait (R189, R191, R582). The values
of other cells come with their own commands. -/
def State.expireAt (s : State) (c e : Nat) : State :=
  let s := (s.advance e).evalAt e
  let r := s.expireCell c (e * 65536) (s.cell c, [])
  (s.modCell c (fun _ => r.1)).addFires c (decide (s.streamFlags (s.cellHead c) e ≠ 0)) 1 r.2

/-- TC_TIMEOUT_EXPIRE (R189, R582): at a value with evaluation tick t at or past opening KTS + T1 the TIMEOUT cell fires,
once per opening. -/
def execTcTimeoutExpire (c : Fin 16) (t : W64) (s : State) : Host.Outcome State Fault Refusal := s.awake <|
  let e := s.elapsedOf t.toNat
  .next (if s.cellType c = 5 ∧ s.receives c e ∧ ¬ s.passedSettle c e then s.expireAt c e else s)

/-- TC_WINDOW_WAIT_EXPIRE (R191): at a value with evaluation tick t at or past the change's time + T1 the WINDOW cell
fires. -/
def execTcWindowWaitExpire (c : Fin 16) (t : W64) (s : State) : Host.Outcome State Fault Refusal := s.awake <|
  let e := s.elapsedOf t.toNat
  .next (if s.cellType c = 3 ∧ s.receives c e ∧ ¬ s.passedSettle c e then s.expireAt c e else s)

/-- TP_SEQ_WINDOW_END (R198, R583): an ARMED program with a TIME window passes t_A + W and goes to IDLE. A fire whose KTS is
at or before the end, evaluated later, is still taken before it. -/
def execTpSeqWindowEnd (p : Fin 4) (s : State) : Host.Outcome State Fault Refusal := s.awake <|
  let c := s.reg (R.tpCtrl p)
  if bit c 0 ∧ bit c 1 ∧ ¬ bit c 3 ∧ (s.prog p).armed ∧ (s.prog p).ended = none then
    let stop := (s.prog p).tA + s.reg64 (R.tpSeqWin p) * 65536
    let e := stop / 65536 + 1
    let s := (s.advance e).evalAt e
    .next (s.modProg p (fun x => { x with ended := some stop }))
  else .next s

/-- Cells of a kind whose index accepts, taking an item that is itself a fire (R182, R193): TRIGIN edges and REMOTE
messages. -/
def State.fireCells (s : State) (kind : Nat) (accepts : Nat → Bool) (t : Nat) (kts : Kts) : State :=
  let s := (s.advance t).evalAt t
  (upTo 16).foldl (fun s c =>
    if s.cellOn c ∧ s.cellKind c = kind ∧ accepts (s.cellIndex c) ∧ ¬ s.cellInvalid c then
      (s.bump (R.tcFireCount c)).addItems [{ cell := c, fire := true, kts := kts }]
    else s) s

/-- Sensor results reach the SENSOR cells of an entry at elapsed boundary b (R182). -/
def State.sensorCells (s : State) (entry b : Nat) (x : Int) (ovr : Bool) : State :=
  let s := (s.advance b).evalAt b
  (upTo 16).foldl (fun s c =>
    if s.cellOn c ∧ s.cellKind c = 2 ∧ s.cellIndex c % 16 = entry then s.cellValue c b x ovr (fun _ => (b * 65536, false))
    else s) s

/-- A delivered tone block reaches the TONE cells of head n at elapsed boundary b (R182, R189, R192). -/
def State.toneCells (s : State) (n b : Nat) (above ovr : Bool) : State :=
  let s := (s.advance b).evalAt b
  (upTo 16).foldl (fun s c =>
    if s.cellOn c ∧ s.cellKind c = 1 ∧ s.cellHead c = n then
      let old := s.cell c
      let was := s.cellState c
      let s := s.modCell c (fun k => { k with started := true, above := above })
      let s := if s.cellState c = was then s else s.addItems [{ cell := c, fire := false, kts := s.ktsOf (b * 65536) false 1 }]
      let slope := s.cellSlope c
      if old.started && ((above && !old.above && slope != 1) || (!above && old.above && slope != 0)) then
        s.addFires c ovr 1 [(b * 65536, false)]
      else s
    else s) s

/-- The prefiltered samples of a block of the detector (R173), from the label of its first sample. -/
def Path.toneBlock (q : Path) (r : ToneRun) (lo : Nat) : List Int :=
  (upTo r.len).map (fun m =>
    if r.pre = 1 then q.tapped (lo + m) else (decBlock 2 ((upTo r.pre).map (fun i => q.tapped (lo + m * r.pre + i)))).headD 0)

/-- The run of the detector whose block is delivered next: an earlier one that still has one due, or the present one. -/
def Chan.toneRun (c : Chan) : Option ToneRun := c.toneDue.head?.or c.tone

/-- The detector after the delivery of that run's block, as the run then stands. -/
def Chan.toneStep (c : Chan) (r : ToneRun) : Chan :=
  match c.toneDue with
  | _ :: l => { c with toneDue := if r.stop.any (· ≤ r.block) then l else r :: l }
  | [] => { c with tone := some r }

/-- TONE_BLOCK_DELIVER (R173 to R177): the next block of the detector of input n is complete, from the raw codes x; `mag` and `phase` are
the M and P that its arithmetic gives, within the spec's accuracy of the values that R174 defines (log entry 7). The thresholds are those
that govern its last sample (02 R46; DEDUCED, log entry 19). -/
def execToneBlockDeliver (n : Fin 8) (x : Samples) (mag : W64) (phase : BitVec 16) (s : State) : Host.Outcome State Fault Refusal := s.awake <|
  match (s.chan n).toneRun with
  | none => .next s
  | some r =>
    let t0 := r.anchor + r.block * r.ticks
    let tl := t0 + r.ticks - r.period
    let s := s.advance (alignUp (tl + 3552) 128)
    let us := (s.path n t0 r.period x).toneBlock r (t0 / max 1 r.period)
    let d := toneMag us r.freq.toNat
    let raw := toneMagOf d mag.toNat
    let m := min raw (2 ^ 48 - 1)
    let p := tonePhaseOf us r.freq.toNat d phase.toNat
    let ovr := decide (s.tapFlags n t0 tl ≠ 0)
    let thr := ((s.inp n).eraAt tl).map (fun e => (e.thrHi, e.thrLo))
    let ab := toneAbove r.above m (thr.getD (0, 0)).1 (thr.getD (0, 0)).2
    let s := s.modChan n (fun c => { c.toneStep { r with block := r.block + 1, above := ab } with
      mag := BitVec.ofNat 64 m, start := BitVec.ofNat 64 (s.countAt t0)
      info := pack [(0, p), (16, b2n ab), (17, b2n ovr), (18, b2n (decide (2 ^ 48 ≤ raw))), (19, 1)] })
    let s := s.bump (R.toneBlkCount n)
    let s := if (!r.above && ab && bit r.ctrl 6) || (r.above && !ab && bit r.ctrl 7) then s.raise (72 + n) else s
    .next (s.toneCells n s.now ab ovr)

/-! ### TRIGOUT balls (R206, 22 R548) -/

/-- TRIGOUT_EDGE (R206): the next scheduled leading edge of ball m falls at its tick. -/
def execTrigoutEdge (m : Fin 4) (s : State) : Host.Outcome State Fault Refusal := s.awake <|
  let wait := (s.trigout[m.val]).filter (fun p => !p.on)
  match wait with
  | [] => .next s
  | p :: r =>
    let first := r.foldl (fun a b => if b.start < a.start then b else a) p
    let s := s.advance first.start
    .next { s with trigout := vmod s.trigout m (fun l => l.map (fun q => if q = first then { q with on := true } else q)) }

/-- TRIGOUT_PULSE_END (R206): the earliest end among the pulses on ball m; the output stays active while another is on. -/
def execTrigoutPulseEnd (m : Fin 4) (s : State) : Host.Outcome State Fault Refusal := s.awake <|
  let on := (s.trigout[m.val]).filter (·.on)
  match on with
  | [] => .next s
  | p :: r =>
    let first := r.foldl (fun a b => if b.stop < a.stop then b else a) p
    let s := s.advance first.stop
    .next { s with trigout := vmod s.trigout m (fun l => l.filter (· ≠ first)) }

/-! ### What a boundary does (R193, R199, R207) -/

/-- Every cell and program restarts (R208). -/
def State.restartTrigger (s : State) : State :=
  { s with trig := { s.trig with
    cells := s.trig.cells.map TCell.restart
    progs := Vector.replicate 4 { TProg.reset with bucketVec := s.now / 128 } } }

/-- What a commit at elapsed boundary b does to the trigger (R193, R197, R207); `old` is the state before its writes, with the
evaluation closed up to b. A cell's state that changes with its settings changes at b. -/
def State.trigCommit (old s : State) (b : Nat) : State :=
  let s := s.evalAt b
  let s := (upTo 16).foldl (fun s c =>
    let restart := 0xFFFE3F   -- enable, type, slope, src_kind, src_index
    let was := old.reg (R.tcCtrl c)
    let now := s.reg (R.tcCtrl c)
    let s := if (was &&& restart) ≠ (now &&& restart) then
        s.modCell c TCell.restart
      else s
    let s := if s.cellInvalid c && !old.cellInvalid c then
        (s.setReg R.trigAlertInfo (pack [(0, 1), (2, c), (6, 1)])).raise 57
      else s
    if old.cellState c != s.cellState c then s.addItems [{ cell := c, fire := false, kts := s.ktsOf (b * 65536) false 1 }]
    else s) s
  (upTo 4).foldl (fun s p =>
    let was := old.reg (R.tpCtrl p)
    let now := s.reg (R.tpCtrl p)
    let s := if (was &&& 3) ≠ (now &&& 3) ∨ old.reg (R.tpSeq p) ≠ s.reg (R.tpSeq p) then
        s.modProg p (fun _ => { TProg.reset with bucketVec := b / 128 })
      else if old.reg (R.tpPatReq p) ≠ s.reg (R.tpPatReq p) ∨ old.reg (R.tpPatEvt p) ≠ s.reg (R.tpPatEvt p) ∨ bit was 2 ≠ bit now 2 then
        s.modProg p (fun x => { x with prevP := s.pattern p })
      else s
    s) s

end Sys2Proof.Machine
end

