-- ==== Sys2Proof/Machine/Record.lean ====
section
/-! DEFINITION. Continuous record, segment directory and pinning (09_record_and_segments.md). Memory accepts a write when
it is issued (log entry 15). -/

namespace Sys2Proof.Machine

/-! ### Rings (R234 to R237) -/

/-- The state with a ring changed. -/
def State.modRing (s : State) (n : Nat) (f : Ring → Ring) : State := { s with record := { s.record with rings := vmod s.record.rings n f } }

/-- Ring n. -/
def State.ring (s : State) (n : Nat) : Ring := vget s.record.rings n Ring.reset

/-- The state with a directory changed. -/
def State.modDir (s : State) (p : Nat) (f : Dir → Dir) : State := { s with record := { s.record with dirs := vmod s.record.dirs p f } }

/-- Directory p. -/
def State.dir (s : State) (p : Nat) : Dir := vget s.record.dirs p Dir.reset

/-- The state with a segment of directory p changed. -/
def State.modSeg (s : State) (p seq : Nat) (f : Seg → Seg) : State :=
  s.modDir p (fun d => { d with segs := d.segs.map (fun g => if g.seq = seq then f g else g) })

/-- REC_ALERT (R266). -/
def State.recAlert (s : State) (cause index : Nat) : State :=
  (s.setReg R.recAlertInfo (pack [(0, cause), (2, index), (5, 1)])).raise 124

/-- Storage format of ring n: 0 P16, 1 P12, 2 PEAK, 3 invalid. -/
def State.ringFormat (s : State) (n : Nat) : Nat := s.rf (R.recRingCtrl n) 0 2

/-- Chunk size of a format (R235). -/
def chunkBytes (fmt : Nat) : Nat := if fmt = 1 then 48 else 64

/-- Outputs per chunk of a format (R235). -/
def chunkOutputs (fmt : Nat) : Nat := if fmt = 2 then 16 else 32

/-- Ring size S in bytes (R234). -/
def State.ringSize (s : State) (n : Nat) : Nat := s.rf (R.recRingSize n) 0 15 * 2097152

/-- Ring base. -/
def State.ringBase (s : State) (n : Nat) : Nat := s.reg64 (R.recRingBase n) / 2097152 * 2097152

/-- Flag ring size F in bytes. -/
def State.flagSize (s : State) (n : Nat) : Nat := s.rf (R.recFlagSize n) 0 16 * 65536

/-- Flag ring base. -/
def State.flagBase (s : State) (n : Nat) : Nat := s.reg64 (R.recFlagBase n) / 65536 * 65536

/-- The ring's geometry is valid (R234). -/
def State.geometryOk (s : State) (n : Nat) : Bool :=
  let size := s.ringSize n
  decide (size ≠ 0) && decide (s.rf (R.recRingSize n) 0 15 ≤ 24576) && decide (s.ringFormat n ≠ 3) &&
  decide (s.ringBase n + size ≤ s.dpaTop) && decide (s.flagBase n + s.flagSize n ≤ s.dpaTop) &&
  decide (ceilDiv size (chunkBytes (s.ringFormat n)) ≤ s.flagSize n)

/-- Format and decimation mode agree (R236). -/
def State.formatOk (s : State) (n : Nat) : Bool := (s.ringFormat n == 2) == (s.decMode n == 1)

/-- Bytes written to a ring region of base `base` and size `size` from absolute count `a`, wrapping (R237). -/
def State.ringWrite (s : State) (port base size a : Nat) (bs : List Byte) : State :=
  if size = 0 then s
  else
    let off := a % size
    let n := size - off
    (s.memPut port (base + off) (bs.take n)).memPut port base (bs.drop n)

/-- The worst completion of the lines of a ring region's bytes (15 R372). -/
def State.ringStatus (s : State) (base size a n : Nat) : Nat :=
  if size = 0 then 0
  else
    let off := a % size
    let k := min n (size - off)
    max (s.memStatus (base + off) k) (if k < n then s.memStatus base (n - k) else 0)

/-- The words of outputs as chunk bytes (R235). -/
def packChunk (fmt : Nat) (ws : List Int) : List Byte :=
  if fmt = 1 then
    let rec go : List Int → List Byte
      | a :: b :: r => leBytes 3 ((p12Code a % 4096).toNat + (p12Code b % 4096).toNat * 4096) ++ go r
      | [a] => leBytes 3 (p12Code a % 4096).toNat
      | [] => []
    go ws
  else ws.flatMap (fun w => leBytes 2 (w % 65536).toNat)

/-! ### Binding and linking (R241, R249) -/

/-- Inputs of a directory. -/
def State.dirInputs (s : State) (p : Nat) : List Nat := bitsOf 8 (s.rf (R.dirCtrl p) 1 8)

/-- Post length (DIR_POST: 0 acts as 1). -/
def State.dirPost (s : State) (p : Nat) : Nat := max 1 (s.reg (R.dirPost p)).toNat

/-- Slot count exponent (DIR_CTRL.size_exp). -/
def State.dirExp (s : State) (p : Nat) : Nat := max 10 (min 24 (s.rf (R.dirCtrl p) 10 5))

/-- Base of a directory. -/
def State.dirBase (s : State) (p : Nat) : Nat := s.reg64 (R.dirBase p) / 65536 * 65536

/-- The first condition of R249 that fails (DIR_STATUS.cause), 0 when the program is bound. -/
def State.bindCause (s : State) (p : Nat) : Nat :=
  let ins := s.dirInputs p
  if ¬ bit (s.reg (R.dirCtrl p)) 0 ∨ ins = [] then 1
  else if (s.dir p).init then 6
  else if ins.any (fun n => !s.enabledHead n || (s.ring n).state != 1) then 2
  else match ins with
    | [] => 1
    | m :: _ =>
      if ins.any (fun n => s.ringFormat n != s.ringFormat m || s.ringSize n != s.ringSize m) then 3
      else if ins.any (fun n => s.span (n / 4) != s.span (m / 4) || s.decMode n != s.decMode m || s.decRatio n != s.decRatio m ||
          (s.chan n).decAnchor != (s.chan m).decAnchor || (s.ring n).run != (s.ring m).run) then 4
      else
        let q := chunkOutputs (s.ringFormat m)
        let need := ((s.reg (R.dirPre p)).toNat + s.dirPost p + q) * chunkBytes (s.ringFormat m) / q
        if s.ringSize m < need + 2097152 then 5 else 0

/-- Binding is judged again; a change from bound to unbound records its cause and alerts (R249). -/
def State.judgeBinding (s : State) : State :=
  (upTo 4).foldl (fun s p =>
    let c := s.bindCause p
    let was := (s.dir p).bound
    let s := s.modDir p (fun d => { d with bound := decide (c = 0), cause := if was ∧ c ≠ 0 then c else d.cause })
    if was ∧ c ≠ 0 then s.recAlert 3 p else s) s

/-- The step group of ring n as binding stood (R241): the mask of rings linked to it. -/
def State.stepGroup (s : State) (n : Nat) : Nat :=
  (upTo 16).foldl (fun m i =>
    let p := i % 4
    let ins := s.rf (R.dirCtrl p) 1 8
    if (s.dir p).bound ∧ ins &&& m ≠ 0 then m ||| ins else m) (2 ^ n)

/-! ### Pins (R254) -/

/-- Whether a segment of program p is pinned by a directory, a core or a tap. -/
def State.pinned (s : State) (p : Nat) (g : Seg) : Bool :=
  g.held || s.record.corePins.toList.any (fun c => c.status == 1 && c.pin == some (p, g.seq)) ||
  s.record.tapPins.any (fun t => t.2 == (p, g.seq))

/-- The protected start of ring n, if anything that names it is pinned. -/
def State.protectedStart (s : State) (n : Nat) : Option Nat :=
  (upTo 4).foldl (fun best p => (s.dir p).segs.foldl (fun best g =>
    if g.inputs.testBit n && !g.lost && s.pinned p g then
      match best with
      | none => some g.aS
      | some b => some (min b g.aS)
    else best) best) none

/-- Address of the slot of entry seq (R248). -/
def State.slotAddr (s : State) (p seq : Nat) : Nat := s.dirBase p + seq % 2 ^ s.dirExp p * 64

/-- The seal word of a state and seq (R250): 0 EMPTY, 3 PENDING, 5 SEALED, 10 LOST. -/
def sealWord (st seq : Nat) : W32 := pack [(0, st), (4, seq % 2 ^ 28)]

/-- A seal and its complement are written (R250). -/
def State.writeSeal (s : State) (p seq st : Nat) : State :=
  s.memWords 8 (s.slotAddr p seq + 56) [sealWord st seq, ~~~ sealWord st seq]

/-- The twins of an entry as a reader finds them in memory pass (R250, R259). -/
def State.entryTwinsOk (s : State) (p seq : Nat) : Bool :=
  let w := s.dpaWords (s.slotAddr p seq) 16
  twinOk (w.take 6) && twinOk ((w.drop 6).take 4) && twinOk (w.drop 14)

/-- The window of a segment lies at or after W - S in its rings (R253, R254). -/
def State.windowIntact (s : State) (g : Seg) : Bool :=
  (bitsOf 8 g.inputs).all (fun n => decide (s.reg64 (R.recWrCount n) ≤ g.aS + s.ringSize n))

/-- Every pin on an entry is dropped: transient core holders read `status`, taps lose theirs (R255, R259). -/
def State.dropPins (s : State) (p seq status : Nat) : State :=
  let s := s.modSeg p seq (fun g => { g with held := false })
  { s with record := { s.record with
    corePins := s.record.corePins.map (fun c => if c.status = 1 ∧ c.pin = some (p, seq) then { c with status := status, pin := none } else c)
    tapPins := s.record.tapPins.filter (fun t => t.2 ≠ (p, seq)) } }

/-- Core q's staged pin command at its boundary (R254): take wins over drop. -/
def State.pinCommand (s : State) (q : Nat) (take drop : Bool) : State :=
  let set := fun (s : State) (c : CorePin) => { s with record := { s.record with corePins := vmod s.record.corePins q (fun _ => c) } }
  if take then
    let p := s.rf (R.recCorePin q) 2 2
    let seq := s.reg64 (R.recCorePinSeq q)
    match (s.dir p).segs.find? (fun g => g.seq = seq) with
    | some g =>
      if !g.sealed || g.lost then set s { status := 2, refuse := 1, pin := none }
      else if !s.entryTwinsOk p seq then set ((s.twinMismatch (pathBlk 3)).dropPins p seq 3) { status := 2, refuse := 3, pin := none }
      else if !s.windowIntact g then set s { status := 2, refuse := 2, pin := none }
      else set s { status := 1, refuse := 0, pin := some (p, seq) }
    | none => set s { status := 2, refuse := 1, pin := none }
  else if drop then set s { status := 0, refuse := 0, pin := none }
  else s

/-! ### Record ends and starts (R238 to R244) -/

/-- The first index of the sampling period `ts` at or after elapsed tick t (02 R46). -/
def firstGoverned (t ts : Nat) : Nat := ceilDiv t ts

/-- Label of output k of a record (R244). -/
def RecRun.label (r : RecRun) (k : Nat) : Nat :=
  match r.resumed.find? (fun p => decide (p.1 ≤ k)) with
  | some p => p.2 + (k - p.1) * r.ratio
  | none => r.label0 + k * r.ratio

/-- The output with which a record's present stream began, and its label. -/
def RecRun.piece (r : RecRun) : Nat × Nat := r.resumed.headD (0, r.label0)

/-- The label that follows the block of output k; a stream that stopped cuts it short (06 R171). -/
def RecRun.blockEnd (r : RecRun) (k : Nat) : Nat :=
  match r.stop with
  | some g => min (r.label k + r.ratio) g
  | none => r.label k + r.ratio

/-- Elapsed boundary at which output k has left the packer (06 R153). -/
def RecRun.packerAt (r : RecRun) (k : Nat) : Nat := alignUp ((r.blockEnd k - 1) * r.ts + 3424) 128

/-- Outputs of a record whose label is before g; with `whole`, whose block ends by g (06 R171). -/
def RecRun.outputsTo (r : RecRun) (g : Nat) (whole : Bool) : Nat :=
  let p := r.piece
  p.1 + (if whole then (g - p.2) / r.ratio else ceilDiv (g - p.2) r.ratio)

/-- The output with the greatest label at or before label l (R246). -/
def RecRun.outputAt (r : RecRun) (l : Nat) : Nat :=
  match r.resumed.findIdx? (fun p => decide (p.2 ≤ l)) with
  | some i =>
    let p := r.resumed.getD i (0, 0)
    let k := p.1 + (l - p.2) / r.ratio
    if i = 0 then k else min k ((r.resumed.getD (i - 1) (0, 0)).1 - 1)
  | none =>
    let k := (l - r.label0) / r.ratio
    match r.resumed.getLast? with
    | some p => min k (p.1 - 1)
    | none => k

/-- Two descriptions are of one record: the rings of a segment share its start count and its first label (R249). -/
def RecRun.same (r r' : RecRun) : Bool := r.a0 == r'.a0 && r.label0 == r'.label0

/-- Outputs that a record of ring n can hold, where its stream has stopped or does not run. -/
def State.outputsOf (s : State) (n : Nat) (r : RecRun) : Option Nat :=
  let x := s.inp n
  let t := r.piece.2 * r.ts
  if (x.eraAt t).any (fun e => e.period == r.ts) then (x.stream t).2.map (fun e => r.outputsTo (firstGoverned e r.ts) true) else some r.piece.1

/-- Outputs of ring n's record whose label is before the first governed index of b (R243); with `whole`, only complete blocks (06 R171). -/
def State.outputsBefore (s : State) (n b : Nat) (whole : Bool) : Nat :=
  match (s.ring n).run with
  | some r =>
    let k := r.outputsTo (firstGoverned b r.ts) whole
    match s.outputsOf n r with
    | some a => min a k
    | none => k
  | none => 0

/-- The segments of record r take its description r', and pending windows that reach beyond its `total` outputs are shortened (R256, R261). -/
def State.shorten (s : State) (r' : RecRun) (total : Option Nat) : State :=
  (upTo 4).foldl (fun s p => s.modDir p (fun d => { d with segs := d.segs.map (fun g =>
    if g.run.same r' then
      let g := { g with run := { r' with stop := r'.stop.orElse (fun _ => g.run.stop) } }
      match total with
      | some k => if !g.sealed && decide (k < g.kRef + g.post) then { g with post := k - g.kRef, postShort := true } else g
      | none => g
    else g) })) s

/-- The record of ring n ends after `total` outputs (R242, R243, R256), where its stream stops at label `stop` if it does: REC_END comes
when its closing chunk is issued. -/
def State.endRecord (s : State) (n total : Nat) (stop : Option Nat) : State :=
  match (s.ring n).run with
  | some r =>
    let r := { r with stop := stop }
    let s := s.modRing n (fun x => { x with
      state := 0, run := none, w := r.a0 + ceilDiv total r.q * r.cb, closing := x.closing ++ [{ run := r, total := total, issued := x.issued }] })
    s.shorten r (some total)
  | none => s.modRing n (fun x => { x with state := 0 })

/-- The stream of ring n stops at elapsed boundary b: what its ended records still waited for is cut short, or with `whole` discarded
(06 R171). -/
def State.cutClosing (s : State) (n b : Nat) (whole : Bool) : State :=
  (s.ring n).closing.foldl (fun s c =>
    let g := firstGoverned b c.run.ts
    if c.run.stop.isSome ∨ c.total = 0 ∨ c.run.blockEnd (c.total - 1) ≤ g then s
    else
      let k := min c.total (c.run.outputsTo g whole)
      let c' := { c with total := k, run := { c.run with stop := some g } }
      let s := s.modRing n (fun x => { x with closing := x.closing.map (fun y => if y = c then c' else y) })
      s.shorten c'.run (some k)) s

/-- Signals that are powered up again at elapsed boundary b while their rings record: the outputs that follow are those of the new stream. -/
def State.recResume (old s : State) (b : Nat) : State :=
  (upTo 8).foldl (fun s n =>
    match (s.ring n).run with
    | some r =>
      if (s.inp n).running ∧ ¬ (old.inp n).running then
        let r := { r with resumed := ((old.outputsOf n r).getD r.piece.1, firstGoverned b r.ts) :: r.resumed }
        (s.modRing n (fun x => { x with run := some r })).shorten r none
      else s
    | none => s) s

/-- A ring that would start a record at b (R236, R238): answers whether it can; if not it stays IDLE or halts with CONFIG. -/
def State.startCheck (s : State) (n : Nat) : Bool × State :=
  let halted := (s.ring n).state = 2
  if !s.geometryOk n then
    (false, (if halted then s.modRing n (fun x => { x with haltCause := 2 }) else s).recAlert 1 n)
  else if !s.formatOk n then (false, (s.modRing n (fun x => { x with state := 2, haltCause := 2 })).recAlert 1 n)
  else (true, s)

/-- The rings of one start set begin their records at elapsed boundary b with one start count (R239, R240, R244). -/
def State.startSet (s : State) (ns : List Nat) (b : Nat) : State :=
  let cbs := ns.map (fun n => chunkBytes (s.ringFormat n))
  let m := if cbs.contains 48 then (if cbs.contains 64 then 192 else 48) else 64
  let a0 := alignUp (ns.foldl (fun w n => max w (s.ring n).w) 0) m
  ns.foldl (fun s n =>
    let ts := s.period n
    let d := s.decRatio n
    let anchor := firstGoverned (s.chan n).decAnchor ts
    let label := anchor + ceilDiv (firstGoverned b ts - anchor) d * d
    let fmt := s.ringFormat n
    let r : RecRun := { a0 := a0, cb := chunkBytes fmt, q := chunkOutputs fmt, label0 := label, ratio := d, ts := ts, mode := s.decMode n
                        resumed := [], stop := none }
    let past := (s.reg64 (R.recStartCount n), (s.ring n).w, (s.ring n).records, s.reg64 (R.recStartTick n))
    let s := s.modRing n (fun x => { x with state := 1, haltCause := 0, hist := if x.records = 0 then [] else past :: x.hist, records := (x.records + 1) % 65536, run := some r, issued := 0, w := a0 })
    (s.setReg64 (R.recStartCount n) a0).setReg64 (R.recStartTick n) (s.countAt (label * ts))) s

/-- Records that are to start at b: those that can form one start set (R240). -/
def State.startRecords (s : State) (ns : List Nat) (b : Nat) : State :=
  if s.converterMode then
    let r := ns.foldl (fun (a : List Nat × State) n => let c := a.2.startCheck n; (if c.1 then a.1 ++ [n] else a.1, c.2)) ([], s)
    r.2.startSet r.1 b
  else s

/-- Every armed IDLE ring starts a record at b (R262, 21 R520). -/
def State.startArmed (s : State) (b : Nat) : State :=
  (s.startRecords ((bitsOf 8 (s.rf R.recArm 0 8)).filter (fun n => (s.ring n).state = 0)) b).judgeBinding

/-- The record of ring n ends at b (R242, R243). A break of its stream, `whole`, leaves complete blocks only (06 R171); `stops` says that its
blocks stop there. -/
def State.endAt (s : State) (n b : Nat) (whole stops : Bool) : State :=
  let g := firstGoverned b (((s.ring n).run.map (·.ts)).getD 1)
  s.endRecord n (s.outputsBefore n b whole) (if stops then some g else none)

/-- Every record ends at b, at which every stream breaks (R242). -/
def State.endAll (s : State) (b : Nat) : State :=
  (upTo 8).foldl (fun s n => (if (s.ring n).state = 1 then s.endAt n b true true else s).cutClosing n b true) s

/-! ### Chunks (R255 to R258) -/

/-- A chunk conflict under RELEASE (R255): every pinned entry whose window starts below `limit` loses its pins and is
LOST. -/
def State.releaseBelow (s : State) (mask limit : Nat) : State :=
  (upTo 4).foldl (fun s p =>
    let hit := (s.dir p).segs.filter (fun g => decide (g.aS < limit) && decide (g.inputs &&& mask ≠ 0) && !g.lost && s.pinned p g)
    let s := hit.foldl (fun s g =>
      let s := if g.sealed && !s.entryTwinsOk p g.seq then s.twinMismatch (pathBlk 3) else s
      let s := s.dropPins p g.seq 3
      let s := s.modSeg p g.seq (fun g => { g with lost := true })
      let s := if g.sealed then s.writeSeal p g.seq 10 else s
      s.bump (R.dirLostCount p)) s
    if hit = [] then s else s.raise (116 + p)) s

/-- The tick of the first output that an ended record does not hold (R243). -/
def State.endTick (s : State) (c : Closing) : Nat :=
  s.countAt (match c.run.stop with
    | some g => g * c.run.ts
    | none => c.run.label c.total * c.run.ts)

/-- REC_END_n of ended records of ring n (R243, R256). -/
def State.recEnded (s : State) (n : Nat) (cs : List Closing) : State :=
  if cs = [] then s else (cs.foldl (fun s c => s.setReg64 (R.recEndTick n) (s.endTick c)) s).raise (104 + n)

/-- An ended record as a HALT at absolute count `a` leaves it (R256): no output at or after it. -/
def Closing.halt (c : Closing) (a : Nat) : Closing :=
  let k := (a - c.run.a0) / c.run.cb * c.run.q
  if k < c.total then { c with total := k, run := { c.run with stop := none } } else c

/-- A HALT at absolute count `a` of ring n's step group (R256): its records end before the chunk there, and the rings that record are
HALTED with OVERRUN. -/
def State.haltGroup (s : State) (n a : Nat) : State :=
  (bitsOf 8 (s.stepGroup n)).foldl (fun s m =>
    let s := match (s.ring m).run with
      | some r => (s.endRecord m ((a - r.a0) / r.cb * r.q) none).modRing m (fun x => { x with state := 2, haltCause := 1 })
      | none => s
    let cs := (s.ring m).closing.map (·.halt a)
    let done := cs.filter (fun c => decide (c.total ≤ c.issued))
    let s := s.modRing m (fun x => { x with closing := cs.filter (fun c => decide (c.issued < c.total)) })
    (cs.foldl (fun s c => s.shorten c.run (some c.total)) s).recEnded m done) s

/-- A dropped chunk of ring n, outputs k to k' - 1 of record r (R258): counted once, and reported once for each vector that holds the last
sample of one of them (log entry 15). -/
def State.chunkDropped (s : State) (n c : Nat) (r : RecRun) (k k' : Nat) : State :=
  let s := if (s.ring n).gapChunk = some c then s else (s.bump (R.recGapCount n)).modRing n (fun x => { x with gapChunk := some c })
  (upTo (k' - k)).foldl (fun s i =>
    let v := (r.blockEnd (k + i) - 1) * r.ts / 128
    if v < (s.ring n).gapVec then s
    else (s.raiseAt (s.boundaryFrom ((v + 28) * 128)) (96 + n) (pathOfSource (96 + n))).modRing n (fun x => { x with gapVec := v + 1 })) s

/-- The stored words of output k of a record of ring n (06 R169, R171). -/
def State.outputWords (s : State) (n : Nat) (r : RecRun) (x : Samples) (k : Nat) : List Int :=
  (s.path n (r.label k * r.ts) r.ts x).block r.mode (r.label k) (r.blockEnd k)

/-- OVR flags of the outputs k to k' - 1 of a record of ring n (06 R170). -/
def State.recFlags (s : State) (n : Nat) (r : RecRun) (k k' : Nat) : Nat := s.outputFlags n r.ts (r.label k) (r.blockEnd (k' - 1) - 1)

/-- The data and flag byte of chunk j of a record are issued, with its outputs up to k' - 1 (R235, R237, R258). -/
def State.putChunk (s : State) (n : Nat) (r : RecRun) (j k' : Nat) (x : Samples) (full pad : Bool) : State :=
  let a := r.a0 + j * r.cb
  let words := (upTo (k' - j * r.q)).flatMap (fun i => s.outputWords n r x (j * r.q + i))
  let bs := packChunk (if r.cb = 48 then 1 else 0) words
  let bs := if pad then bs ++ List.replicate (r.cb - bs.length) 0 else bs
  let poison := !full && s.ringStatus (s.ringBase n) (s.ringSize n) a bs.length == 2
  let s := if full then s else s.ringWrite n (s.ringBase n) (s.ringSize n) a bs
  let full := full || poison
  let gap := full || (s.ring n).gapChunk == some (a / r.cb)
  let f := s.recFlags n r (j * r.q) k' + 4 * b2n gap + 8 * b2n (j == 0) + 16 * b2n pad
  let s := s.ringWrite n (s.flagBase n) (s.flagSize n) (a / r.cb) [BitVec.ofNat 8 f]
  let s := s.setReg64 (R.recWrCount n) (a + r.cb)
  if full then s.chunkDropped n (a / r.cb) r (j * r.q) k' else s

/-- Chunk j of a record of ring n, judged against the protected start and the overrun policy of its step group (R255).
Answers whether it was written. -/
def State.judgedChunk (s : State) (n : Nat) (r : RecRun) (j k' : Nat) (x : Samples) (full pad : Bool) : Bool × State :=
  let top := r.a0 + (j + 1) * r.cb
  let conflict := match s.protectedStart n with
    | some p => decide (p + s.ringSize n < top)
    | none => false
  let group := s.stepGroup n
  let release := (bitsOf 8 group).all (fun m => bit (s.reg (R.recRingCtrl m)) 2)
  if conflict && !release then (false, s.haltGroup n (r.a0 + j * r.cb))
  else
    let s := if conflict then s.releaseBelow group (top - s.ringSize n) else s
    (true, s.putChunk n r j k' x full pad)

/-- The record whose chunk ring n issues next: the oldest that has ended and is not closed, else the present one. With it the outputs issued
and, where they are bounded, the number of them that REC_CHUNK_WRITE may issue: an ended record's closing chunk is REC_END's. -/
def State.recHead (s : State) (n : Nat) : Option (RecRun × Nat × Option Nat) :=
  match (s.ring n).closing with
  | c :: _ => some (c.run, c.issued, some (c.total - 1))
  | [] => (s.ring n).run.map (fun r => (r, (s.ring n).issued, s.outputsOf n r))

/-- A pending window of record r ends after its first k outputs (R251). -/
def State.windowEnds (s : State) (r : RecRun) (k : Nat) : Bool :=
  (upTo 4).any (fun p => (s.dir p).segs.any (fun g => !g.sealed && g.run.same r && g.kRef + g.post == k))

/-- The record at the head of ring n has issued k outputs. -/
def State.recIssued (s : State) (n k : Nat) : State :=
  s.modRing n (fun x => match x.closing with
    | c :: cs => { x with closing := { c with issued := max c.issued k } :: cs }
    | [] => { x with issued := max x.issued k })

/-- REC_CHUNK_WRITE (R243, R251, R255, R258): the next chunk of ring n, with `outs` outputs, from the signal's samples. It is full, or a
pending window ends with it (R251). -/
def execRecChunkWrite (n : Fin 8) (full : Bool) (outs : BitVec 6) (x : Samples) (s : State) : Host.Outcome State Fault Refusal := s.awake <|
  match s.recHead n with
  | none => .next s
  | some (r, issued, limit) =>
    let j := issued / r.q
    let k := j * r.q + min outs.toNat r.q
    if issued < k ∧ limit.all (k ≤ ·) ∧ (k = (j + 1) * r.q ∨ s.windowEnds r k) then
      let s := s.advance (r.packerAt (k - 1))
      let w := s.judgedChunk n r j k x full false
      .next (if w.1 then w.2.recIssued n k else w.2)
    else .next s

/-- REC_END (R243): the closing chunk of an ended record is issued, padded if it is short. -/
def execRecEnd (n : Fin 8) (full : Bool) (x : Samples) (s : State) : Host.Outcome State Fault Refusal := s.awake <|
  match (s.ring n).closing with
  | c :: _ =>
    let j := c.issued / c.run.q
    if c.total ≤ (j + 1) * c.run.q then
      let s := if c.total = 0 then s else s.advance (c.run.packerAt (c.total - 1))
      let held := c.total - j * c.run.q
      let w := if held = 0 then (true, s) else s.judgedChunk n c.run j c.total x full (decide (held < c.run.q))
      .next (if w.1 then (w.2.modRing n (fun x => { x with closing := x.closing.tail })).recEnded n [c] else w.2)
    else .next s
  | [] => .next s

/-! ### Segments and sealing (R245 to R252, R257) -/

/-- A segment that is not made is counted in one of the drop counters (R246, R249, R257). -/
def State.dirDrop (s : State) (p a : Nat) : State := (s.bump a).raise (120 + p)

/-- A final trigger or frame mark of program p creates a segment (R245, R246, R249, R251, R257); `frame` is a frame mark's
id. -/
def State.createSegment (s : State) (p : Nat) (k : Kts) (frame : Option W32) : State :=
  let s := match frame with
    | some f => { s with record := { s.record with frame := some f } }
    | none => s
  if ¬ (s.dir p).bound then s.dirDrop p (R.dirUnboundDrop p)
  else match (s.dirInputs p).head?.bind (fun n => (s.ring n).run) with
    | none => s.dirDrop p (R.dirUnboundDrop p)
    | some r =>
      let sT := k.at_ / 65536 / r.ts
      if sT < r.label0 then s.dirDrop p (R.dirUnboundDrop p)
      else
        let seq := s.reg64 (R.dirCreated p)
        let segs := (s.dir p).segs
        let slots := 2 ^ s.dirExp p
        let old := segs.find? (fun g => g.seq + slots = seq)
        if (match old with
            | some g => s.pinned p g
            | none => false) || decide (1024 ≤ segs.countP (fun g => !g.sealed)) then
          s.dirDrop p (R.dirFullDrop p)
        else
          let kRef := r.outputAt sT
          let pre := (s.reg (R.dirPre p)).toNat
          let k0 := (kRef - pre) / r.q * r.q
          let g : Seg :=
            { seq := seq, kts := [loW k.ticks.toNat, hiW k.ticks.toNat, k.word2], run := r, inputs := s.rf (R.dirCtrl p) 1 8
              kRef := kRef, pre := kRef - k0, post := s.dirPost p, preShort := decide (kRef < pre), postShort := false
              isFrame := frame.isSome, frameValid := s.record.frame.isSome, frame := s.record.frame.getD 0
              aS := r.a0 + k0 / r.q * r.cb, written := false, sealed := false, lost := false
              held := bit (s.reg (R.dirCtrl p)) 9 && decide (s.reg64 (R.dirRelease p) ≤ seq) }
          let s := s.modDir p (fun d => { d with segs := d.segs.filter (fun x => x.seq + slots ≠ seq) ++ [g] })
          (s.setReg64 (R.dirCreated p) (seq + 1)).writeSeal p seq 3

/-- Words 0 to 13 of an entry (R250). -/
def State.entryWords (s : State) (p : Nat) (g : Seg) : List W32 :=
  let n0 := ((bitsOf 8 g.inputs).head?).getD 0
  let size := max 1 (s.ringSize n0)
  let pos := [loW (g.aS % size + g.aS / size % 2 ^ 24 * 2 ^ 40), hiW (g.aS % size + g.aS / size % 2 ^ 24 * 2 ^ 40)]
  let k0 := g.kRef - g.pre
  let chunks := (upTo (ceilDiv (g.pre + g.post) g.run.q)).map (fun i => (g.aS / g.run.cb) + i)
  let gap := fun n => chunks.any (fun c => ((s.dpaBytes (s.flagBase n + c % max 1 (s.flagSize n)) 1).getD 0 0).getLsbD 2)
  let per := fun (f : Nat → Bool) => (bitsOf 8 g.inputs).foldl (fun m n => if f n then m + 2 ^ n else m) 0
  let info := pack [(0, p), (2, b2n g.isFrame), (3, b2n g.preShort), (4, b2n g.postShort), (5, b2n g.frameValid),
    (8, per (fun n => s.recFlags n g.run k0 (g.kRef + g.post) != 0)), (16, per gap), (24, g.inputs)]
  twinWords g.kts ++ twinWords pos ++ [loW g.pre, loW g.post, info, g.frame]

/-- DIR_INIT_DONE (R248): the last seal of an initialising directory is written EMPTY. -/
def execDirInitDone (p : Fin 4) (s : State) : Host.Outcome State Fault Refusal := s.awake <|
  if (s.dir p).init then
    let s := (upTo (2 ^ s.dirExp p)).foldl (fun s i => s.memWords 8 (s.dirBase p + i * 64 + 56) [0, ~~~ 0]) s
    .next (s.modDir p (fun d => { d with init := false })).judgeBinding
  else .next s

/-- DIR_ENTRY_WRITE (R251 step 2; 15 R372): words 0 to 13 of the oldest entry not yet written; a write that completes POISON
makes it LOST. -/
def execDirEntryWrite (p : Fin 4) (s : State) : Host.Outcome State Fault Refusal := s.awake <|
  match (s.dir p).segs.find? (fun g => !g.written) with
  | some g =>
    let bad := s.memStatus (s.slotAddr p g.seq) 64 == 2 && !g.lost
    let s := (s.memWords 8 (s.slotAddr p g.seq) (s.entryWords p g)).modSeg p g.seq (fun g => { g with written := true, lost := g.lost || bad })
    .next (if bad then s.bump (R.dirLostCount p) else s)
  | none => .next s

/-- Every chunk with an output of a window has been issued in ring n (R251). -/
def State.windowIssued (s : State) (g : Seg) (n : Nat) : Bool :=
  let x := s.ring n
  if x.run.any (·.same g.run) then decide (g.kRef + g.post ≤ x.issued)
  else match x.closing.find? (fun c => c.run.same g.run) with
    | some c => decide (min c.total (g.kRef + g.post) ≤ c.issued)
    | none => true

/-- DIR_SEAL (R251, R252): the next entry in sequence order is sealed, at or after B_1 + 256, once its words and its
windows are written; its post, its flags and a loss are as they stand then. -/
def execDirSeal (p : Fin 4) (s : State) : Host.Outcome State Fault Refusal := s.awake <|
  match (s.dir p).segs.find? (fun g => !g.sealed) with
  | some g =>
    if g.written ∧ (bitsOf 8 g.inputs).all (s.windowIssued g) then
      let s := s.advance (g.run.packerAt (g.kRef + g.post - 1) + 256)
      let s := s.memWords 8 (s.slotAddr p g.seq) (s.entryWords p g)
      let s := s.writeSeal p g.seq (if g.lost then 10 else 5)
      let s := s.modSeg p g.seq (fun g => { g with sealed := true })
      .next ((s.setReg64 (R.dirSealed p) (g.seq + 1)).raise (112 + p))
    else .next s
  | none => .next s

/-! ### Writes and boundaries (R248, R260, R261) -/

/-- A staged write in the record region at its point in the order (R248, R261): `before` is the state before the boundary,
`opens p` says that the write's group sets the enable of directory p. -/
def State.recWrite (before s : State) (opens : Nat → Bool) (a : Nat) (v : W32) : State :=
  if a < 0x400800 then
    let n := (a - 0x400000) / 0x100
    let off := a % 0x100
    let fixed := (before.ring n).state ≠ 0
    if off = 0 then
      let old := s.reg a
      if fixed ∧ fld v 0 2 ≠ fld old 0 2 then (s.setReg a ((v &&& 4) ||| (old &&& 3))).recAlert 2 n else s.setReg a v
    else if off < 0x24 ∧ fixed then s.recAlert 2 n
    else s.setReg a v
  else if 0x401000 ≤ a ∧ a < 0x401400 then
    let p := (a - 0x401000) / 0x100
    let off := a % 0x100
    let open_ := opens p || !bit (s.reg (R.dirCtrl p)) 0
    if off = 0 then
      let old := s.reg a
      if !open_ && decide (fld v 10 5 ≠ fld old 10 5) then (s.setReg a (setFld v 10 5 (fld old 10 5))).recAlert 2 p else s.setReg a v
    else if (off = 0x08 ∨ off = 0x0C) ∧ !open_ then (if v = s.reg a then s else s.recAlert 2 p)
    else s.setReg a v
  else s.setReg a v

/-- Arm marks act as a staged write of REC_ARM at the boundary (R260). -/
def State.armMask (s : State) (programs : Nat) : Nat :=
  (bitsOf 4 programs).foldl (fun m p => m ||| s.rf (R.dirCtrl p) 1 8) 0

/-- What RUNNING taps of a kind and source follow begins again from 0 (16 R407 to R409): a SKIP is due, and what they gathered from a ring
is discarded. -/
def State.tapRestart (s : State) (kind src : Nat) : State :=
  { s with tap := { s.tap with taps := s.tap.taps.map (fun e =>
    if e.2.state = 1 ∧ fld (e.2.ctx.getD 0 0) 0 3 = kind ∧ fld (e.2.ctx.getD 0 0) 4 4 = src then
      (e.1, { e.2 with skip := some (e.2.skip.getD e.2.pos), item := if kind = 0 then e.2.item else e.2.item.filter (·.typ == 4) })
    else e) } }

/-- Directory p initialises (R248). -/
def State.dirInit (s : State) (p : Nat) : State :=
  (((s.modDir p (fun d => { d with init := true, segs := [] })).setReg64 (R.dirCreated p) 0).setReg64 (R.dirSealed p) 0).tapRestart 0 p

/-- HALTED rings whose arm bits have changed from 1 to 0 return to IDLE (R238). -/
def State.haltedIdle (old s : State) : State :=
  (upTo 8).foldl (fun s n =>
    if (s.ring n).state = 2 ∧ bit (old.reg R.recArm) n ∧ ¬ bit (s.reg R.recArm) n then s.modRing n (fun x => { x with state := 0, haltCause := 0 })
    else s) s

/-- What a boundary does to the rings and directories, in the order of R261: `old` is the state before its writes,
`restart` the rings of REC_CMD, `pins` the take and drop bits for each core, `reset` a datapath soft reset. -/
def State.recCommit (old s : State) (b : Nat) (restart : Nat) (pins : List (Nat × Bool × Bool)) (reset : Bool) : State :=
  let spanned := fun n => decide (old.span (n / 4) ≠ s.span (n / 4))
  let redec := fun n => decide (old.reg (R.chDecCtrl n) ≠ s.reg (R.chDecCtrl n))
  let armed := fun (s : State) n => bit (s.reg R.recArm) n
  -- geometry changes of IDLE rings set W to 0
  let s := (upTo 8).foldl (fun s n =>
    if old.reg64 (R.recRingBase n) ≠ s.reg64 (R.recRingBase n) ∨ old.reg (R.recRingSize n) ≠ s.reg (R.recRingSize n) ∨
        old.ringFormat n ≠ s.ringFormat n then
      ((s.modRing n (fun x => { x with w := 0, hist := [], gapChunk := none })).setReg64 (R.recWrCount n) 0).tapRestart 1 n
    else s) s
  -- ends, with their step groups as binding stood
  let first := (upTo 8).filter (fun n => (old.ring n).state = 1 ∧ (reset ∨ spanned n ∨ redec n ∨ ¬ armed s n))
  let ended := (upTo 8).filter (fun n => (old.ring n).state = 1 ∧ first.any (fun m => (old.stepGroup m).testBit n))
  let breaks := fun n => reset || spanned n || !(s.inp n).running && (old.inp n).running
  let s := ended.foldl (fun s n => s.endAt n b (breaks n) (breaks n || redec n)) s
  let s := (upTo 8).foldl (fun s n => if breaks n || redec n then s.cutClosing n b (breaks n) else s) s
  let s := State.recResume old s b
  let s := if reset then s.setReg R.recArm 0 else s
  let s := State.haltedIdle old s
  -- starts
  let starts := (upTo 8).filter (fun n => armed s n &&
    (ended.contains n || ((s.ring n).state == 0 && !armed old n) || ((s.ring n).state == 2 && restart.testBit n)))
  let s := s.startRecords starts b
  -- directories
  let s := (upTo 4).foldl (fun s p =>
    let on := bit (s.reg (R.dirCtrl p)) 0
    let moved := old.dirBase p ≠ s.dirBase p ∨ old.dirExp p ≠ s.dirExp p
    let s := if on ∧ (¬ bit (old.reg (R.dirCtrl p)) 0 ∨ moved) then
        s.dirInit p
      else s
    let s := if s.reg64 (R.dirRelease p) < old.reg64 (R.dirRelease p) then s.setReg64 (R.dirRelease p) (old.reg64 (R.dirRelease p)) else s
    let hold := bit (s.reg (R.dirCtrl p)) 9
    s.modDir p (fun d => { d with segs := d.segs.map (fun g =>
      { g with held := g.held && hold && decide (s.reg64 (R.dirRelease p) ≤ g.seq) }) })) s
  let s := pins.foldl (fun s c => s.pinCommand c.1 c.2.1 c.2.2) s
  s.judgeBinding

/-- NOD_ARM_MARK (03 R94, R260): a follower takes an ARM or DISARM mark for boundary b of its count and hands it on; one that arrives after
b - 256 acts at the first boundary at or after arrival + 256. -/
def execNodArmMark (arm : Bool) (code : BitVec 8) (programs : BitVec 4) (b : W64) (crc : BitVec 3) (s : State) :
    Host.Outcome State Fault Refusal := s.awake <|
  if s.nodRole = 2 ∧ s.nod.state ≠ 0 then
    let (ok, s) := s.nodMark crc
    let s := if ok then s.nodRelay (.arm arm code.toNat programs.toNat b.toNat) else s
    let c := s.reg R.recNodCtrl
    if ok ∧ bit c 0 ∧ fld c 1 8 = code.toNat then
      let late := decide (b.toNat < s.count + 256)
      let s := if late then (s.bump R.recNodLate).raise 125 else s
      let at_ := if late then alignUp (s.now + 256) 128 else alignUp (s.elapsedOf b.toNat) 128
      let old := s.advance at_
      let m := old.armMask programs.toNat
      let w := (old.reg R.recArm).toNat
      let s := old.setReg R.recArm (BitVec.ofNat 32 (if arm then w ||| m else w - (w &&& m)))
      .next (State.recCommit old s at_ 0 [] false)
    else .next s
  else .next s

end Sys2Proof.Machine
end

