-- ==== Sys2Proof/Machine/Timer.lean ====
section
/-! DEFINITION. The interval timer (08_interval_timer.md). -/

namespace Sys2Proof.Machine

/-! ### Units and bin tables (R211 to R217) -/

/-- The state with a timer unit changed. -/
def State.modUnit (s : State) (k : Nat) (f : TUnit → TUnit) : State := { s with tmr := { s.tmr with units := vmod s.tmr.units k f } }

/-- Timer unit k. -/
def State.unit (s : State) (k : Nat) : TUnit := vget s.tmr.units k TUnit.reset

/-- TMR_ALERT (R233). -/
def State.tmrAlert (s : State) (cause unit : Nat) : State :=
  (s.setReg R.tmrAlertInfo (pack [(0, cause), (3, unit), (7, 1)])).raise 85

/-- The path of a unit (R217). -/
def pathUnit (k : Nat) : W64 := pathCode 3 0 3 0 5 2 6 k 0 0 0

/-- The nominal table (R217). -/
def nominalBin (c : Nat) : Nat := min (c * 9961 + 4980) (2 ^ 22)

/-- Entry k of a table of hit counts (R216). -/
def binTable (hits : List W32) : List (W32 × W32) :=
  (hits.foldl (fun (a : Nat × List (W32 × W32)) h =>
    let t := BitVec.ofNat 32 (a.1 + h.toNat / 2)
    (a.1 + h.toNat, a.2 ++ [(t, ~~~ t)])) (0, [])).2

/-- An entry passes its twin check. -/
def binOk (e : W32 × W32) : Bool := e.2 == ~~~ e.1

/-- The bin value that unit k uses for tap c (R217): the entry in use if it passes its check, else the previous table's,
else the nominal table's. A table that fails is discarded. -/
def State.useBin (s : State) (k c : Nat) : Nat × State :=
  let u := s.unit k
  if u.use = 2 then (nominalBin c, s)
  else
    let e := (if u.use = 0 then u.cur else u.prev).getD c (0, 0)
    if binOk e then (fld e.1 0 23, s)
    else
      let s := (s.twinMismatch (pathUnit k)).tmrAlert 1 k
      let p := u.prev.getD c (0, 0)
      if u.use = 0 ∧ binOk p then (fld p.1 0 23, s.modUnit k (fun u => { u with cur := [], use := 1 }))
      else (nominalBin c, (s.modUnit k (fun u => { u with cur := [], prev := [], use := 2 })).tmrAlert 2 k)

/-- A table becomes current, and the old one previous (R216, R218): the one in use, where a current one has been discarded. -/
def TUnit.install (u : TUnit) (t : List (W32 × W32)) : TUnit := { u with prev := if u.use = 0 then u.cur else u.prev, cur := t, use := 0 }

/-- Unit number by which items of equal KTS are kept (R220). -/
def TItemKind.rank : TItemKind → Nat
  | .trigger _ => 0
  | .program => 0
  | .edge k _ _ => 1 + k

/-- An item joins the timer's list in KTS order (R220). -/
def insertItem (e : TItem) : List TItem → List TItem
  | [] => [e]
  | x :: r => if e.kts.at_ < x.kts.at_ ∨ (e.kts.at_ = x.kts.at_ ∧ e.kind.rank < x.kind.rank) then e :: x :: r else x :: insertItem e r

/-- The state with an item queued. -/
def State.tmrItem (s : State) (e : TItem) : State := { s with tmr := { s.tmr with items := insertItem e s.tmr.items } }

/-- Processing point of elapsed tick t (R220). -/
def procPoint (t : Nat) : Nat := 128 * (t / 128 + 97)

/-- TI_EDGE (R212 to R215): an edge on unit k, caught by the CK_TDC edge at count tclk with `tap` taps, after which the comparator holds its
new level for `held` x 100 ps. A level that the glitch filter does not pass, or that its output has already, is no edge. The `flip` words are
upsets of the bin entry's words (log entry 7). -/
def execTiEdge (k : Fin 10) (tclk : W64) (tap : Fin 512) (falling : Bool) (held : BitVec 8) (flip prevFlip : W32) (s : State) :
    Host.Outcome State Fault Refusal := s.awake <|
  let upset := fun (f : W32) (t : List (W32 × W32)) => modAt t tap.val (fun e => (e.1 ^^^ f, e.2))
  let s := s.modUnit k (fun u => { u with cur := upset flip u.cur, prev := upset prevFlip u.prev, level := !falling })
  let u := s.unit k
  let e := alignUp (s.elapsedOf tclk.toNat) 64
  let s := s.advance e
  let (bin, s1) := s.useBin k tap
  let at_ := fun (skew : W32) => (e * 65536 + (sextInt 24 (fld skew 0 24)) - bin : Int).toNat
  let (w, fine) := match u.prior with
    | some (b, w, skew) => if at_ skew / 65536 < b then (w, at_ skew) else (s.reg (R.tiCtrl k), at_ (s.reg (R.tiSkew k)))
    | none => (s.reg (R.tiCtrl k), at_ (s.reg (R.tiSkew k)))
  let tick := fine / 65536
  let slope := fld w 14 2
  if u.out = !falling ∨ held.toNat < fld w 16 8 then .next s
  else
    let out := fun (s : State) => s.modUnit k (fun u => { u with out := !falling })
    if ¬ bit w 0 ∨ ¬ ((slope = 0 ∨ slope = 3) ∧ ¬ falling ∨ slope = 1 ∧ falling ∨ slope = 2) ∨ (u.calibrating ∧ ¬ u.calCounted) ∨ tick < u.resumeAt ∨
        (u.blind ∧ u.blindFrom ≤ tick ∧ tick < u.blindEnd) then .next (out s)
    else
      let s1 := out s1
      if u.last.any (fun l => decide (tick < l + 128)) then
        let s1 := (s1.bump (R.tiDeadDrop k)).raise 87
        .next { s1 with tmr := { s1.tmr with drops := s1.tmr.drops ++ [(fine, k.val)] } }
      else
        let s1 := (s1.modUnit k (fun u => { u with last := some tick })).bump (R.tiEdgeCount k)
        let uncal := (s1.unit k).use == 2
        let s1 := s1.tmrItem { kts := s1.ktsOf fine true 2, kind := .edge k falling uncal }
        if 8 ≤ k.val then .next (s1.fireCells 3 (fun i => i % 2 == k.val - 8) tick (s1.ktsOf fine true 3)) else .next s1

/-- TI_BLIND_END (R213): the blind time after a change of threshold or termination ends. -/
def execTiBlindEnd (k : Fin 10) (s : State) : Host.Outcome State Fault Refusal := s.awake <|
  if (s.unit k).blind then .next ((s.advance (s.unit k).blindEnd).modUnit k (fun u => { u with blind := false })) else .next s

/-! ### Entries (R227 to R229) -/

/-- A timer register as it governs an item of fine time t (R224). -/
def State.tmrReg (s : State) (t a : Nat) : W32 :=
  match s.tmr.seen.find? (fun e => decide (t < e.1 * 65536) && e.2.1 == a) with
  | some e => e.2.2
  | none => s.reg a

/-- An 8-byte timer register as it governs an item of fine time t. -/
def State.tmrReg64 (s : State) (t a : Nat) : Nat := join (s.tmrReg t a) (s.tmrReg t (a + 4))

/-- Destinations of `TMR_CTRL.dest`: FIFO, memory. -/
def destOf (d : Nat) : Bool × Bool := (d != 1, d == 1 || d == 2)

/-- Memory is a destination of the next measurement. -/
def State.tmrDest (s : State) : Bool × Bool := destOf (s.rf R.tmrCtrl 10 2)

/-- An entry goes to the measurement's destinations (R227 to R229): the FIFO, and the memory ring. -/
def State.tmrWrite (s : State) (e : List W32) : State :=
  let (fifo, mem) := destOf s.tmr.dest
  let s := if fifo then
      let s := { s with tmr := { s.tmr with fifo := s.tmr.fifo ++ [e] } }
      if s.tmr.fifo.length = s.rf R.tmrFifoCtrl 0 11 then s.raise 82 else s
    else s
  if mem then
    let size := s.rf R.tmrMemSize 0 16 * 65536
    let wr := s.reg64 R.tmrMemWr
    let s := if size = 0 then s else s.memWords 8 (s.reg64 R.tmrMemBase / 65536 * 65536 + wr % size) e
    s.setReg64 R.tmrMemWr (wr + 16)
  else s

/-- A start has room for 18 entries in each destination (R227); `held` entries are in the memory writer's buffer. -/
def State.tmrRoom (s : State) (dest held : Nat) : Bool :=
  let d := destOf dest
  (!d.1 || decide (s.tmr.fifo.length ≤ 1006)) && (!d.2 || decide (held ≤ 46))

/-- The END of the measurement (R222, R227), with its KTS time, and the state after it. -/
def State.tmrEnd (s : State) (cause t : Nat) (lost : Bool) : State :=
  let k := s.countAt (procPoint t)
  let w0 := pack [(0, 3), (2, s.tmr.n), (6, cause), (9, b2n lost), (10, b2n (decide (s.tmr.startAt + 2 ^ 62 ≤ t * 65536))),
    (11, b2n s.tmr.edgeDrop), (16, s.tmr.seq)]
  let s := s.tmrWrite [w0, loW (min s.tmr.early 65535), loW k, hiW k]
  let again := s.tmr.again && bit (s.tmrReg (t * 65536) R.tmrCtrl) 0 && decide (cause ≤ 1)
  ({ s with tmr := { s.tmr with state := if again then 1 else 0 } }).raise 81

/-- The check of the start KTS (R225): on a failure END with cause TWIN. Answers whether it passed. -/
def State.tmrTwin (s : State) (t : Nat) : Bool × State :=
  if twinOk s.tmr.startTwin then (true, s)
  else (false, ((s.twinMismatch (pathBlk 2)).tmrEnd 4 t true))

/-- A measurement's END with a cause, once its start KTS passes its check (R225). -/
def State.tmrFinish (s : State) (cause t : Nat) : State :=
  let r := s.tmrTwin t
  if r.1 then r.2.tmrEnd cause t false else r.2

/-- A frame mark at the processing point of elapsed tick t (R230): answers its id, none when it is dropped. -/
def State.frameMark (s : State) (k : Kts) (t : Nat) : Option W32 × State :=
  let v := t / 128 + 1
  let s := s.closeVectors (v + 1)
  let agg := refill s.trig.agg s.trig.aggVec v 24 2400
  let s := { s with trig := { s.trig with agg := agg, aggVec := max v s.trig.aggVec } }
  if agg < 100 then (none, s.bump R.tmrFrameDrop)
  else
    let s := { s with trig := { s.trig with agg := agg - 100 } }
    let id := s.reg R.tmrFrameId
    let s := s.setReg R.tmrFrameId (id + 1)
    let k5 : Kts := { k with word2 := setFld k.word2 18 4 5 }
    let p := fld (s.tmrReg k.at_ R.tmrFrame) 2 2
    let armed := (s.dirInputs p).any (fun n => bit (s.reg R.recArm) n)
    let s := { s with record := { s.record with frame := some id } }
    (some id, (if armed then s.createSegment p k5 (some id) else s).raise 86)

/-- Whether an edge of unit k at fine time t is a frame mark; `start` tells a START. -/
def State.marks (s : State) (t k : Nat) (start : Bool) : Bool :=
  let w := s.tmrReg t R.tmrFrame
  bit w 0 && bit w (4 + k) && (!start || bit w 1)

/-! ### The state machine (R220 to R225) -/

/-- Start source code of an item (R221). -/
def TItem.src (e : TItem) : Nat :=
  match e.kind with
  | .edge k _ _ => k
  | .trigger p => 10 + p
  | .program => 14

/-- A start item (R222); `held` entries are in the memory writer's buffer. -/
def State.tmrStart (s : State) (e : TItem) (held : Nat) : State :=
  let c := s.tmrReg e.kts.at_ R.tmrCtrl
  if s.tmr.state = 2 then s.bump R.tmrStartBusy
  else if s.tmr.state ≠ 1 ∨ e.kts.at_ < s.tmr.armedAt * 65536 then s
  else if ¬ s.tmrRoom (fld c 10 2) held then (s.bump R.tmrStartRefused).raise 83
  else
    let t := e.kts.at_ / 65536
    let seq := (s.tmr.seq + 1) % 65536
    let ws := [loW e.kts.ticks.toNat, hiW e.kts.ticks.toNat, e.kts.word2]
    let falling := match e.kind with
      | .edge _ f _ => f
      | _ => false
    let s := { s with tmr := { s.tmr with
      state := 2, n := 0, seq := seq, startAt := e.kts.at_, startTwin := twinWords ws, early := 0, edgeDrop := false
      src := fld c 2 4, dest := fld c 10 2, again := bit c 1 } }
    let s := s.tmrWrite (pack [(0, 0), (2, e.src), (6, b2n falling), (16, seq)] :: ws)
    let s := s.tmrWrite (pack [(0, 1), (16, seq)] :: ws.map (~~~ ·))
    let s := match e.kind with
      | .edge k _ _ => if s.marks e.kts.at_ k true then (s.frameMark e.kts t).2 else s
      | _ => s
    s.raise 80

/-- Most stops of a measurement (TMR_CTRL.stop_max: 0 acts as 15), as they govern an item of fine time t. -/
def State.stopMax (s : State) (t : Nat) : Nat := let n := fld (s.tmrReg t R.tmrCtrl) 6 4; if n = 0 then 15 else n

/-- The open measurement holds as many stops as are allowed at fine time t: `stop_max` has been lowered (R224). -/
def State.stopsFull (s : State) (t : Nat) : Bool := decide (s.tmr.state = 2) && decide (s.tmr.n ≠ 0) && decide (s.stopMax t ≤ s.tmr.n)

/-- A stop edge while MEASURING (R222, R223). -/
def State.tmrStop (s : State) (e : TItem) (k : Nat) (falling uncal : Bool) : State :=
  let t := e.kts.at_ / 65536
  let w := e.kts.at_ - s.tmr.startAt
  let ovf := decide (2 ^ 62 ≤ w)
  let wm := w % 2 ^ 62
  let openT := s.tmrReg64 e.kts.at_ R.tmrWinOpen * 65536
  let closeT := s.tmrReg64 e.kts.at_ R.tmrWinClose * 65536
  if wm < openT then { s with tmr := { s.tmr with early := s.tmr.early + 1 } }
  else if w = 0 then s
  else if closeT ≠ 0 ∧ closeT < wm then s
  else
    let (ok, s) := s.tmrTwin t
    if !ok then s
    else
      let s := { s with tmr := { s.tmr with n := s.tmr.n + 1 } }
      let marked := s.marks e.kts.at_ k false
      let (id, s) := if marked then s.frameMark e.kts t else (none, s)
      let w0 := pack [(0, 2), (2, s.tmr.n), (6, k), (10, b2n falling), (11, b2n ovf), (12, b2n (bit e.kts.word2 16)), (13, b2n uncal),
        (14, b2n id.isSome), (15, b2n (marked && id.isNone)), (16, wm % 65536)]
      let ticks := wm / 65536
      let s := s.tmrWrite [w0, loW ticks, pack [(0, ticks / 2 ^ 32 % 2 ^ 14), (16, s.tmr.seq)], id.getD 0]
      if s.stopMax e.kts.at_ ≤ s.tmr.n then s.tmrFinish 0 t else s

/-- The window end of the open measurement, fine (R222), under what governs items there (R224). -/
def State.tmrWindow (s : State) : Option Nat :=
  if s.tmr.state ≠ 2 then none
  else
    let c := s.reg64 R.tmrWinClose
    let past := s.tmr.seen.filterMap (fun e =>
      let w := s.tmr.startAt + s.tmrReg64 (e.1 * 65536 - 1) R.tmrWinClose * 65536
      if s.tmr.startAt < w ∧ w < e.1 * 65536 then some w else none)
    match past with
    | w :: _ => some w
    | [] => if c ≠ 0 then some (s.tmr.startAt + c * 65536) else none

/-- Dropped edges up to a fine time: one of a stop-mask unit marks the open measurement (R227). -/
def State.tmrDrops (s : State) (fine : Nat) : State :=
  let hit := s.tmr.drops.any (fun d => decide (d.1 ≤ fine) && bit (s.tmrReg d.1 R.tmrStopMask) d.2)
  { s with tmr := { s.tmr with
    edgeDrop := s.tmr.edgeDrop || (decide (s.tmr.state = 2) && hit), drops := s.tmr.drops.filter (fun d => decide (fine < d.1)) } }

/-- The window end is taken (R222, R225); as the first item after `stop_max` was lowered it ends the measurement with STOPS (R224). -/
def State.tmrCloseWindow (s : State) (fine : Nat) : State :=
  let t := fine / 65536
  let s := (s.advance (procPoint t)).tmrDrops fine
  s.tmrFinish (if s.stopsFull fine then 0 else 1) t

/-- A start and a stop of one KTS are taken in the order of R220: the start source's item first. With it the items that remain. -/
def State.tmrPick (s : State) : Option (TItem × List TItem) :=
  match s.tmr.items with
  | [] => none
  | e :: r =>
    let same := fun (x : TItem) => x.kts.at_ == e.kts.at_
    let src := fun (x : TItem) => if s.tmr.state = 2 then s.tmr.src else fld (s.tmrReg x.kts.at_ R.tmrCtrl) 2 4
    match ((e :: r).takeWhile same).find? (fun x => x.src == src x) with
    | some x => some (x, (e :: r).erase x)
    | none => some (e, r)

/-- An item is taken (R220, R222): as a start, then, unless it has started a measurement, as a stop. What governed items before it is no
longer kept. -/
def State.tmrTake (s : State) (e : TItem) (held : Nat) : State :=
  let t := e.kts.at_
  let s := (s.advance (procPoint (t / 65536))).tmrDrops t
  let s := if s.stopsFull t then s.tmrFinish 0 (t / 65536) else s
  let measuring := s.tmr.state = 2
  let src := if s.tmr.state = 2 then s.tmr.src else fld (s.tmrReg t R.tmrCtrl) 2 4
  let s := if e.src = src then s.tmrStart e held else s
  let s := match e.kind with
    | .edge k f u => if measuring ∧ s.tmr.state = 2 ∧ bit (s.tmrReg t R.tmrStopMask) k then s.tmrStop e k f u else s
    | _ => s
  { s with tmr := { s.tmr with seen := s.tmr.seen.filter (fun x => decide (t < x.1 * 65536)) } }

/-- The next item or window end is taken, in KTS order, window ends last among equals. -/
def State.tmrNext (s : State) (held : Nat) : State :=
  match s.tmr.items with
  | [] => s
  | e :: _ =>
    let s := match s.tmrWindow with
      | some w => if w < e.kts.at_ then s.tmrCloseWindow w else s
      | none => s
    match s.tmrPick with
    | some (x, r) => ({ s with tmr := { s.tmr with items := r } }).tmrTake x held
    | none => s

/-- An upset of the start twin's first word (log entry 7). -/
def State.tmrUpset (s : State) (flip : W32) : State := { s with tmr := { s.tmr with startTwin := modAt s.tmr.startTwin 0 (· ^^^ flip) } }

/-- TMR_ITEM_PROCESS (R220, R222, R227): the timer's next item at its processing point, with `held` entries in the memory writer's buffer. -/
def execTmrItemProcess (flip : W32) (held : BitVec 7) (s : State) : Host.Outcome State Fault Refusal := s.awake <|
  .next ((s.tmrUpset flip).tmrNext held.toNat)

/-- TMR_WINDOW_END (R222): the window end of the open measurement at its processing point, after the items before it. -/
def execTmrWindowEnd (flip : W32) (s : State) : Host.Outcome State Fault Refusal := s.awake <|
  let s := s.tmrUpset flip
  match s.tmrWindow with
  | some w =>
    let s := (upTo s.tmr.items.length).foldl (fun s _ => match s.tmr.items with
      | e :: _ => if e.kts.at_ ≤ w then s.tmrNext 0 else s
      | [] => s) s
    .next (match s.tmrWindow with
      | some w' => s.tmrCloseWindow w'
      | none => s)
  | none => .next s

/-- The head entry of the FIFO, which a core's DRD of TMR_FIFO_DATA0 removes (R228); an empty FIFO gives all ones. -/
def State.tmrPop (s : State) : List W32 × State :=
  match s.tmr.fifo with
  | [] => ([0xFFFFFFFF, 0xFFFFFFFF, 0xFFFFFFFF, 0xFFFFFFFF], s)
  | e :: r => (e, { s with tmr := { s.tmr with fifo := r } })

/-- Address of TMR_FIFO_DATA0. -/
def fifoData : Nat := 0x380030

/-- TMR_FIFO_READ (R228): the oldest outstanding DRD of TMR_FIFO_DATA0 of core q takes its value: the head entry is removed
and its other words are latched for the core. -/
def execTmrFifoRead (q : Fin 16) (s : State) : Host.Outcome State Fault Refusal := s.awake <|
  match (s.core q).drds.findIdx? (fun d => d.addr = fifoData ∧ d.val = none) with
  | some i =>
    let (e, s) := s.tmrPop
    let s := (upTo 3).foldl (fun s j => s.latchSet q (fifoData + 4 * (j + 1)) (e.getD (j + 1) 0)) s
    .next (s.modCore q (fun c => { c with drds := modAt c.drds i (fun d => { d with val := some (e.getD 0 0) }) }))
  | none => .next s

/-! ### Calibration (R218, R219) -/

/-- The timer names unit k as its start source or in its stop mask while ARMED or MEASURING (R218, R219). -/
def State.unitNamed (s : State) (k : Nat) : Bool :=
  decide (s.tmr.state ≠ 0) && (s.rf R.tmrCtrl 2 4 == k || bit (s.reg R.tmrStopMask) k)

/-- Unit k is free for calibration (R218). -/
def State.unitFree (s : State) (k : Nat) : Bool :=
  !s.unitNamed k && !(decide (8 ≤ k) && (upTo 16).any (fun c => s.cellOn c && s.cellKind c == 3 && s.cellIndex c % 2 == k - 8))

/-- The state with the calibration request changed. -/
def State.modTmrCal (s : State) (f : TmrCal → TmrCal) : State := { s with tmr := { s.tmr with cal := f s.tmr.cal } }

/-- Units under calibration. -/
def State.calRunning (s : State) : List Nat := (upTo 10).filter (fun k => (s.unit k).calibrating)

/-- A request of units at elapsed tick t (R218): ignored while one runs; in RETAIN it ends NOT_RUNNING. -/
def State.tmrCalAsk (s : State) (units t : Nat) (byMgt : Bool) : State :=
  if s.tmr.cal.phase ≠ 0 then s
  else if s.mode.mode = 0 then (s.modTmrCal (fun c => { c with result := 6, units := units, done := 0, failed := 0 })).raise 84
  else
    let s := s.modTmrCal (fun _ => { phase := 1, result := 1, units := units, waiting := bitsOf 10 units, done := 0, failed := 0, due := t + 8000000000, byMgt := byMgt })
    s.askPermit 18 7 { Units.zero with conv := (bitsOf 10 units).length } none

/-- The result of a finished request (R218). -/
def TmrCal.outcome (c : TmrCal) : Nat := if c.done = 0 then 4 else if c.done = c.units then 2 else 3

/-- `TMR_CAL_STATUS` (R229). -/
def State.tmrCalStatus (s : State) : W32 := pack [(0, s.tmr.cal.result), (3, s.tmr.cal.done), (13, s.tmr.cal.failed)]

/-- The mailbox's request is answered (20 R491): the status of the result, and `TMR_CAL_STATUS`. -/
def State.tmrCalAnswer (s : State) : State :=
  let st := match s.tmr.cal.result with
    | 4 => 1
    | 5 => 7
    | 6 => 20
    | _ => 0
  s.mgtAnswerCmd 0x12 st [s.tmrCalStatus]

/-- The request ends once no unit waits and none is under calibration (R218): the load falls, the permit is released, and
TMR_CAL_DONE asserts. -/
def State.tmrCalEnd (s : State) : State :=
  if s.tmr.cal.phase = 2 ∧ s.tmr.cal.waiting = [] ∧ s.calRunning = [] then
    let s := (s.loadFall { Units.zero with conv := (bitsOf 10 s.tmr.cal.units).length }).dropPermit 18 7
    let s := (s.modTmrCal (fun c => { c with phase := 0, result := c.outcome })).raise 84
    if s.tmr.cal.byMgt then s.tmrCalAnswer else s
  else s

/-- Requested units that are free switch to the oscillator and count for 4 ms (R218). -/
def State.tmrCalStart (s : State) : State :=
  let go := s.tmr.cal.waiting.filter s.unitFree
  let s := go.foldl (fun s k => s.modUnit k (fun u => { u with calibrating := true, calCounted := false, calDue := s.now + 320000000 })) s
  s.modTmrCal (fun c => { c with waiting := c.waiting.filter (fun k => !go.contains k) })

/-- TMR_CAL_GRANT (R218): the permit is granted and free units switch to the calibration oscillator; later, units that have
become free do. -/
def execTmrCalGrant (s : State) : Host.Outcome State Fault Refusal := s.awake <|
  if s.tmr.cal.phase = 1 then
    match s.granted 18 7 with
    | some e =>
      let s := s.handOver e { Units.zero with conv := (bitsOf 10 s.tmr.cal.units).length } 0
      .next (((s.modTmrCal (fun c => { c with phase := 2, due := s.now + 8000000000 })).tmrCalStart).tmrCalEnd)
    | none => .next s
  else if s.tmr.cal.phase = 2 then .next s.tmrCalStart
  else .next s

/-- The counts are accepted (R218 step 4). -/
def hitsOk (hits : List W32) : Bool :=
  let n := hits.countP (· ≠ 0)
  decide (330 ≤ n) && decide (n ≤ 500) && hits.all (fun h => decide (h.toNat ≤ 20972)) && hits.getD 0 0 == 0 && hits.getD 511 0 == 0

/-- TMR_CAL_COUNT_DONE (R216, R218): unit k has counted 2^22 edges; `hits` are the 512 bins' counts. -/
def execTmrCalCountDone (k : Fin 10) (hits : List W32) (s : State) : Host.Outcome State Fault Refusal := s.awake <|
  let u := s.unit k
  if u.calibrating ∧ ¬ u.calCounted then
    let s := s.advance u.calDue
    let s := s.modUnit k (fun u => { u with calCounted := true, calDue := s.now + 8192, resumeAt := s.now + 8192 })
    if hitsOk hits ∧ hits.length = 512 then
      .next ((s.modUnit k (fun u => u.install (binTable hits))).modTmrCal (fun c => { c with done := c.done ||| 2 ^ k.val }))
    else .next ((s.modTmrCal (fun c => { c with failed := c.failed ||| 2 ^ k.val })).tmrAlert 3 k)
  else .next s

/-- TMR_CAL_UNIT_RETURN (R218 step 6): 64 CK_DP after its count the unit returns to its ball. -/
def execTmrCalUnitReturn (k : Fin 10) (s : State) : Host.Outcome State Fault Refusal := s.awake <|
  let u := s.unit k
  if u.calibrating ∧ u.calCounted then
    let s := s.advance u.calDue
    .next (s.modUnit k (fun u => { u with calibrating := false, calCounted := false })).tmrCalEnd
  else .next s

/-- TMR_CAL_UNIT_SKIP (R218 step 2): a requested unit that is not free within 100 ms of the grant is skipped. -/
def execTmrCalUnitSkip (k : Fin 10) (s : State) : Host.Outcome State Fault Refusal := s.awake <|
  if s.tmr.cal.phase = 2 ∧ s.tmr.cal.waiting.contains k.val then
    let s := s.advance s.tmr.cal.due
    .next (s.modTmrCal (fun c => { c with waiting := c.waiting.filter (· ≠ k.val), failed := c.failed ||| 2 ^ k.val })).tmrCalEnd
  else .next s

/-- TMR_CAL_DENIED (R218 step 1): the permit is not granted within 100 ms. -/
def execTmrCalDenied (s : State) : Host.Outcome State Fault Refusal := s.awake <|
  if s.tmr.cal.phase = 1 ∧ (s.granted 18 7).isNone then
    let s := (s.advance s.tmr.cal.due).dropPermit 18 7
    let s := (s.modTmrCal (fun c => { c with phase := 0, result := 5, waiting := [] })).raise 84
    .next (if s.tmr.cal.byMgt then s.tmrCalAnswer else s)
  else .next s

/-! ### Boundaries (R213, R219, R222, R224, R229, R232) -/

/-- A staged write in the timer region (R229): the memory ring moves only while the timer is IDLE, and W restarts. -/
def State.tmrRegWrite (before s : State) (a : Nat) (v : W32) : State :=
  if a = R.tmrMemBase ∨ a = R.tmrMemBase + 4 ∨ a = R.tmrMemSize then
    if before.tmr.state ≠ 0 then s.tmrAlert 4 0
    else ((s.setReg a v).setReg64 R.tmrMemWr 0).tapRestart 3 0
  else s.setReg a v

/-- Items with KTS before elapsed boundary b, the window end among them, are taken, each as at its own processing point; the time stays
(R222, R224; log entry 1). -/
def State.tmrFlush (s : State) (b : Nat) : State :=
  let t := (upTo s.tmr.items.length).foldl (fun s _ => match s.tmr.items with
    | e :: _ => if e.kts.at_ < b * 65536 then s.tmrNext 0 else s
    | [] => s) s
  let t := match t.tmrWindow with
    | some w => if w < b * 65536 then t.tmrCloseWindow w else t
    | none => t
  { t with now := s.now }

/-- A measurement ends with a cause at elapsed boundary b, after the items with KTS before it, once its start passes its check, and the timer
is IDLE (R222, R224, R225). -/
def State.tmrStopAll (s : State) (cause b : Nat) : State :=
  let s := (s.tmrFlush b).tmrDrops (b * 65536)
  let s := if s.tmr.state = 2 then s.tmrFinish cause b else s
  { s with tmr := { s.tmr with state := 0 } }

/-- The registers of the timer that govern items by their KTS (R224). -/
def timedRegs : List Nat := [R.tmrCtrl, R.tmrStopMask, R.tmrWinOpen, R.tmrWinOpen + 4, R.tmrWinClose, R.tmrWinClose + 4, R.tmrFrame]

/-- What a commit at elapsed boundary b does to the timer: `wrote` tells a write of TMR_CTRL, `start` a staged
TMR_CMD.start, `cal` a staged TMR_CAL_CTRL.start. -/
def State.tmrCommit (old s : State) (b : Nat) (wrote start cal : Bool) : State :=
  let was := bit (old.reg R.tmrCtrl) 0
  let now := bit (s.reg R.tmrCtrl) 0
  let moved := timedRegs.filter (fun a => old.reg a != s.reg a)
  let s := { s with tmr := { s.tmr with seen := s.tmr.seen ++ moved.map (fun a => (b, a, old.reg a)) } }
  let s := if was ∧ ¬ now then s.tmrStopAll 2 b
    else if now ∧ s.tmr.state = 0 ∧ (¬ was ∨ wrote) then { s with tmr := { s.tmr with state := 1, armedAt := b } } else s
  let s := if start ∧ s.rf R.tmrCtrl 2 4 = 14 then s.tmrItem { kts := s.ktsOf (b * 65536) false 2, kind := .program } else s
  let s := (upTo 10).foldl (fun s k =>
    let c := old.reg (R.tiCtrl k)
    let c' := s.reg (R.tiCtrl k)
    let s := if fld c 1 13 ≠ fld c' 1 13 ∨ bit c 24 ≠ bit c' 24 then
        s.modUnit k (fun u => { u with blind := true, blindFrom := if u.blind then u.blindFrom else b, blindEnd := b + 160000 })
      else s
    let s := if c ≠ c' ∨ old.reg (R.tiSkew k) ≠ s.reg (R.tiSkew k) then s.modUnit k (fun u => { u with prior := some (b, c, old.reg (R.tiSkew k)) }) else s
    -- an abandoned calibration has no table to accept, and its unit returns as after a count (R219)
    if (s.unit k).calibrating ∧ ¬ (s.unit k).calCounted ∧ s.unitNamed k then
      (s.modUnit k (fun u => { u with calCounted := true, calDue := b + 8192, resumeAt := b + 8192 })).modTmrCal (fun c => { c with failed := c.failed ||| 2 ^ k })
    else s) s
  let s := s.tmrCalEnd
  if cal then s.tmrCalAsk (s.rf R.tmrCalCtrl 1 10) b false else s

end Sys2Proof.Machine
end

