-- ==== Sys2Proof/Machine/Churn.lean ====
section
/-! DEFINITION. Churn (10_churn.md): waveforms, the column engine, pages and snapshots. -/

namespace Sys2Proof.Machine

/-! ### Settings and state -/

/-- The state with a Churn changed. -/
def State.modChurn (s : State) (n : Nat) (f : Churn → Churn) : State := { s with churn := vmod s.churn n f }

/-- The Churn of input n. -/
def State.ch (s : State) (n : Nat) : Churn := vget s.churn n Churn.reset

/-- CHURN_ALERT_n (R293): raised on a head only. -/
def State.churnAlert (s : State) (n cause macro_ : Nat) : State :=
  let s := s.setReg (R.churnAlertInfo n) (pack [(0, cause), (3, macro_), (15, 1)])
  if s.headOf n = n then s.raise (136 + n) else s

/-- Churn of input n is enabled. -/
def State.churnOn (s : State) (n : Nat) : Bool := bit (s.reg (R.churnCtrl n)) 0

/-- A register of the Churn block of input n as Churn sees it at elapsed tick t (R270). -/
def State.churnReg (s : State) (n t a : Nat) : W32 :=
  match (s.ch n).seen.find? (fun e => decide (t < e.1) && e.2.1 == a) with
  | some e => e.2.2
  | none => s.reg a

/-- An 8-byte register as Churn sees it. -/
def State.churnReg64 (s : State) (n t a : Nat) : Nat := join (s.churnReg n t a) (s.churnReg n t (a + 4))

/-- A bit of CHURN_CTRL as Churn sees it. -/
def State.churnCtl (s : State) (n t i : Nat) : Bool := bit (s.churnReg n t (R.churnCtrl n)) i

/-- Mode (CHURN_CTRL.mode: 3 acts as 0). -/
def State.churnMode (s : State) (n t : Nat) : Nat := fld (s.churnReg n t (R.churnCtrl n)) 1 2 % 3

/-- L (CHURN_LEN: 2,048 to 1,048,576). -/
def State.churnLen (s : State) (n t : Nat) : Nat := max 2048 (min 1048576 (fld (s.churnReg n t (R.churnLen n)) 0 21))

/-- pre (CHURN_PRE: values at or above L act as L - 1). -/
def State.churnPre (s : State) (n t : Nat) : Nat := min (fld (s.churnReg n t (R.churnPre n)) 0 21) (s.churnLen n t - 1)

/-- Churn of input n receives a stream (R291). -/
def State.churnRuns (s : State) (n t : Nat) : Bool := s.churnCtl n t 0 && s.converterMode && (s.inp n).running

/-- The envelope of a column, cleared when it is not listed (R278). -/
def Churn.envAt (c : Churn) (col : Nat) : Int × Int := Assoc.get (32767, -32768) c.env col

/-! ### Clears, decays and snapshot starts (R281, R282, R286, R287) -/

/-- Cleared arrays and counts (R281). -/
def State.churnClear (s : State) (n : Nat) : State :=
  let s := s.modChurn n (fun c => { c with db := [], avg := [], env := [], sat := false, avgFull := false })
  (s.setReg64 (R.churnWfmCount n) 0).setReg (R.churnAvgCount n) 0

/-- Cleared average and envelope arrays and their count (R281). -/
def State.churnClearAvg (s : State) (n : Nat) : State :=
  (s.modChurn n (fun c => { c with avg := [], env := [], avgFull := false })).setReg (R.churnAvgCount n) 0

/-- The engine runs a column pass. -/
def Churn.passing (c : Churn) : Bool :=
  match c.op with
  | some (.pass, _) => true
  | _ => false

/-- A clear becomes pending (R281, R290): the arrays are cleared, waveforms whose pass has not started are discarded, and a pending decay is
dropped. A running pass completes, and its effect is cleared then. -/
def State.churnAskClear (s : State) (n : Nat) : State :=
  let keep := if (s.ch n).passing then 1 else 0
  let lost := (s.ch n).bufs.length - keep
  ((s.bumpBy (R.churnDiscard n) lost).modChurn n (fun c => { c with bufs := c.bufs.take keep, pendClear := true, pendDecay := 0 })).churnClear n

/-- A decay becomes pending; two merge, at most 16 bits (R280, R282). -/
def State.churnAskDecay (s : State) (n : Nat) : State :=
  let sh := min 4 (fld (s.churnReg n s.now (R.churnDecay n)) 0 3)
  if sh = 0 then s
  else s.modChurn n (fun c => { c with pendDecay := min 16 (c.pendDecay + sh), passes := 0, decayAt := s.now })

/-- Page base. -/
def State.pageBase (s : State) (n : Nat) : Nat := s.churnReg64 n s.now (R.churnPageBase n) / 2 ^ 24 * 2 ^ 24

/-- The seal of a slot is written: 3 WRITING, 5 PUBLISHED (R288). -/
def State.pageSeal (s : State) (slot st seq : Nat) : State := s.memWords 9 (slot + 56) [sealWord st seq, ~~~ sealWord st seq]

/-- A snapshot starts at boundary b (R286, R287): skipped while its target is held, pending while another runs. -/
def State.snapStart (s : State) (n b : Nat) : State :=
  let c := s.ch n
  let ctl := s.churnReg n b (R.churnSnapCtrl n)
  if ¬ s.churnCtl n b 0 ∨ ¬ bit ctl 0 then s
  else if c.snap.isSome then
    if c.snapPending then s.bump (R.churnSnapSkip n) else s.modChurn n (fun c => { c with snapPending := true })
  else if s.dpaTop < s.pageBase n + 2 ^ 25 then s.churnAlert n 5 0
  else
    let slot := match c.published with
      | some x => 1 - x
      | none => 0
    if c.holds.any (fun h => h.1 == slot) then (s.bump (R.churnSnapSkip n)).churnAlert n 3 0
    else
      let base := s.pageBase n + slot * 2 ^ 24
      let seq := (s.reg (R.churnSnapSeq n)).toNat + 1
      let w := s.reg64 (R.churnWfmCount n)
      let x : Snap :=
        { slot := slot, seq := seq, base := base, kts := s.kts (s.countAt b) 0 false 0, wfmAtS := w, wfmLast := w
          avgCount := s.reg (R.churnAvgCount n), avg := c.avg, env := c.env, band := 0
          raw := bit ctl 3, render := bit ctl 4, fmt := bit ctl 5, torn := c.pendClear, poison := false }
      (s.modChurn n (fun c => { c with snap := some x })).pageSeal base 3 seq

/-! ### The Churn boundary (R269, R270, R281, R290) -/

/-- What the changes of one boundary do at their Churn boundary. A clear that meets a snapshot's start comes after what it captures (R290;
log entry 28). -/
def State.churnEffect (s : State) (n : Nat) (x : ChurnChange) : State :=
  let t := x.at_
  let s := if x.power then
      let s := s.modChurn n (fun c => { Churn.reset with
        histFrom := t, decayAt := t, lastAccept := t, periodAt := t, published := c.published, pubValid := c.pubValid, holds := c.holds
        changes := c.changes, seen := c.seen })
      (s.setReg64 (R.churnWfmCount n) 0).setReg (R.churnAvgCount n) 0
    else s
  let ctl := s.churnReg n (t - 1) (R.churnSnapCtrl n)
  let ctl' := s.churnReg n t (R.churnSnapCtrl n)
  let s := if !bit ctl 0 && bit ctl' 0 then s.modChurn n (fun c => { c with pubValid := false }) else s
  if !s.churnCtl n t 0 then s
  else
    let s := if fld ctl 1 2 ≠ fld ctl' 1 2 then s.modChurn n (fun c => { c with periodAt := t }) else s
    let s := if x.moved.contains (R.churnDecay n) then s.modChurn n (fun c => { c with decayAt := t }) else s
    let s := if s.churnMode n (t - 1) ≠ s.churnMode n t then s.modChurn n (fun c => { c with autoFree := false }) else s
    let s := if x.stream then
        let lost := (s.ch n).bufs.countP (fun w => !w.complete)
        (s.bumpBy (R.churnDiscard n) lost).modChurn n (fun c => { c with histFrom := t, bufs := c.bufs.filter (·.complete) })
      else s
    let layout := [R.churnLen n, R.churnPre n, R.churnYmap n].any x.moved.contains
    let s := if bit x.cmd 1 then (s.churnClearAvg n).modChurn n (fun c => { c with pendAvg := c.passing }) else s
    let s := if bit x.cmd 2 ∧ fld ctl' 1 2 % 3 = 0 then s.snapStart n t else s
    if (x.stream || layout) && s.churnCtl n t 10 || bit x.cmd 0 then s.churnAskClear n else s

/-- The changes whose Churn boundaries are at or before elapsed tick t have acted. -/
def State.churnTo (s : State) (n t : Nat) : State :=
  let s := ((s.ch n).changes.filter (fun x => decide (x.at_ ≤ t))).foldl (fun s x => s.churnEffect n x) s
  s.modChurn n (fun c => { c with changes := c.changes.filter (fun x => decide (t < x.at_)), seen := c.seen.filter (fun e => decide (t < e.1)) })

/-- The registers of the Churn block of input n, but the look-up table, that Churn sees late (R270). -/
def churnRegs (n : Nat) : List Nat := ((upTo 18).filter (· ≠ 11)).map (fun i => R.churnCtrl n + 4 * i)

/-- A commit at elapsed boundary b, of the writes `ws`: what it changes acts at B + 3,328 (R270); the load of a Churn that is turned off falls
at b (11 R304). -/
def State.churnCommit (old s : State) (b : Nat) (ws : List Staged) : State :=
  (upTo 8).foldl (fun s n =>
    let lut := ws.filterMap (fun w => match w with
      | .reg a _ => if R.churnLut n 0 ≤ a ∧ a < R.churnLut n 1024 then some a else none
      | _ => none)
    let moved := ((churnRegs n) ++ lut.eraseDups).filter (fun a => old.reg a != s.reg a)
    let cmd := (lastWrite ws (R.churnCtrl n + 0x2C)).getD 0
    let stream := decide (old.span (n / 4) ≠ s.span (n / 4)) || decide (old.reg (R.chDecCtrl n) ≠ s.reg (R.chDecCtrl n))
    if moved = [] ∧ cmd = 0 ∧ ¬ stream then s
    else
      let t := b + 3328
      let power := old.churnOn n != s.churnOn n
      let s := if power && old.churnOn n then s.loadFall { Units.zero with core := 8 } else s
      s.modChurn n (fun c => { c with
        changes := c.changes ++ [{ at_ := t, power := power, stream := stream, moved := moved, cmd := cmd }]
        seen := c.seen ++ moved.map (fun a => (t, a, old.reg a)) })) s

/-! ### Taking waveforms (R271 to R274) -/

/-- A drop of an offer (R273). -/
def State.churnDrop (s : State) (n a : Nat) : State := (s.bump a).churnAlert n 2 0

/-- An offer to the Churn of input n at elapsed tick t (R272, R273): a final trigger with its KTS, or a free waveform, in the stream that holds
it. -/
def State.churnOffer (s : State) (n t : Nat) (k : Option Kts) : State :=
  let c := s.ch n
  match (s.inp n).eraAt (match k with
    | some k => k.at_ / 65536
    | none => t - 3296) with
  | none => s.churnDrop n (R.churnPreDrop n)
  | some e =>
    let ts := max 1 e.period
    let d := e.ratio
    let len := s.churnLen n t
    let pre := s.churnPre n t
    -- labels count blocks from the anchor; output j reaches Churn at (anchor + (j + 1) d - 1) ts + 3,296
    let jRef := match k with
      | some k => (k.at_ / 65536 / ts - e.anchor) / d
      | none => ceilDiv (firstGoverned (t - 3296) ts + 1 - e.anchor) d - 1
    let reached := ((t - 3296) / ts + 1 - e.anchor) / d
    let jHist := ceilDiv (firstGoverned (c.histFrom - 3296) ts - e.anchor) d
    let ref := e.anchor + jRef * d
    if 2 ≤ c.bufs.length then s.churnDrop n (R.churnBusyDrop n)
    else if e.period = 0 ∨ jRef < pre + max jHist (reached - 32768) then s.churnDrop n (R.churnPreDrop n)
    else
      let phi := match k with
        | some k => if s.churnCtl n t 7 then (k.at_ - ref * ts * 65536) / (ts * d) else 0
        | none => 0
      let first := jRef - pre
      let last := jRef + (len - pre)
      let reach := alignUp (((e.anchor + (last + 1) * d) - 1) * ts + 3296) 128
      let due := max reach (alignUp (t + ceilDiv (min (reached - first) (len + 1)) 256 * 128) 128)
      let w : Wfm := { ref := ref, ratio := d, ts := ts, mode := e.mode, phi := phi, len := len, pre := pre, ymap := s.churnReg n t (R.churnYmap n)
                       due := due, complete := false, outs := [], ovr := false }
      s.modChurn n (fun c => { c with bufs := c.bufs ++ [w], lastAccept := t })

/-- A final trigger of program p is offered to every Churn that selects it (R271, 07 R205). -/
def State.churnTrigger (s : State) (p t : Nat) (k : Kts) : State :=
  (upTo 8).foldl (fun s n =>
    let s := s.churnTo n t
    if s.churnRuns n t ∧ s.churnMode n t ≠ 1 ∧ s.churnCtl n t (3 + p) then
      (s.modChurn n (fun c => { c with autoFree := false })).churnOffer n t (some k)
    else s) s

/-- CHURN_FREE_OFFER (R271): at a boundary with a free column buffer a free waveform is offered, in FREE mode, or in AUTO
mode after its timeout. -/
def execChurnFreeOffer (n : Fin 8) (s : State) : Host.Outcome State Fault Refusal := s.awake <|
  let b := s.boundary
  let s := (s.advance b).churnTo n b
  let c := s.ch n
  .next (if s.churnRuns n b ∧ c.bufs.length < 2 ∧ (s.churnMode n b = 1 ∨ (s.churnMode n b = 2 ∧ c.autoFree)) then s.churnOffer n b none else s)

/-- CHURN_AUTO_TIMEOUT (R271): in AUTO mode the time since the last accepted waveform reaches the timeout. -/
def execChurnAutoTimeout (n : Fin 8) (s : State) : Host.Outcome State Fault Refusal := s.awake <|
  let s := s.churnTo n s.now
  let due := fun (s : State) => alignUp ((s.ch n).lastAccept + max 16384 (s.churnReg64 n s.now (R.churnAutoTimeout n))) 128
  if s.churnRuns n s.now ∧ s.churnMode n s.now = 2 ∧ ¬ (s.ch n).autoFree then
    let s := s.advance (due s)
    let s := s.churnTo n s.now
    .next (if s.churnRuns n s.now ∧ s.churnMode n s.now = 2 ∧ due s ≤ s.now then s.modChurn n (fun c => { c with autoFree := true }) else s)
  else .next s

/-- An output's interval and trace value (R277, R278) from its words (06 R169). -/
def churnOutput (ws : List Int) : Int × Int × Int :=
  match ws with
  | [a, b] => (a, b, (a + b) / 2)
  | a :: _ => (a, a, a)
  | [] => (0, 0, 0)

/-- Label of output j of a waveform, counted from its first. -/
def Wfm.label (w : Wfm) (j : Nat) : Nat := w.ref + j * w.ratio - w.pre * w.ratio

/-- CHURN_WFM_COMPLETE (R274): the oldest waveform not yet complete holds all its L + 1 outputs, from the signal's samples. A stream that has
stopped does not complete it. -/
def execChurnWfmComplete (n : Fin 8) (x : Samples) (s : State) : Host.Outcome State Fault Refusal := s.awake <|
  match (s.ch n).bufs.find? (fun w => !w.complete) with
  | some w =>
    let q := s.path n (w.label 0 * w.ts) w.ts x
    if q.w.2.any (fun e => decide (e < w.label (w.len + 1) * w.ts)) then .next s
    else
      let s := (s.advance w.due).churnTo n (w.due - 1)
      let outs := (upTo (w.len + 1)).map (fun j => churnOutput (q.block w.mode (w.label j) (w.label (j + 1))))
      let w' := { w with complete := true, outs := outs, ovr := decide (s.outputFlags n w.ts (w.label 0) (w.label (w.len + 1) - 1) ≠ 0) }
      .next (s.modChurn n (fun c => { c with bufs := c.bufs.map (fun y => if y = w then w' else y) }))
  | none => .next s

/-! ### Mapping (R275 to R278) -/

/-- Column of output j counted from the first (R275); none outside 0 to 2,047. -/
def Wfm.column (w : Wfm) (j : Nat) : Option Nat :=
  let c : Int := ((j : Int) * 65536 - w.phi) * 2048 / (w.len * 65536)
  if 0 ≤ c ∧ c < 2048 then some c.toNat else none

/-- Row of a value (R276). -/
def rowOf (ymap : W32) (x : Int) : Nat :=
  (clampI 0 1023 ((x - sextInt 16 (fld ymap 0 16)) / 2 ^ min 6 (fld ymap 16 3) + 512)).1.toNat

/-- Outputs grouped by column, in order: column, then its outputs. -/
def Wfm.columns (w : Wfm) : List (Nat × List (Int × Int × Int)) :=
  ((upTo (w.len + 1)).foldr (fun j (acc : List (Nat × List (Int × Int × Int))) =>
    match w.column j, w.outs[j]? with
    | some c, some o => match acc with
      | (c', os) :: r => if c' = c then (c', o :: os) :: r else (c, [o]) :: acc
      | [] => [(c, [o])]
    | _, _ => acc) [])

/-- Rows marked in a column (R277): `prev` is the interval of the last output of the column before. -/
def markedRows (fill : Bool) (prev : Option (Nat × Nat)) (ivs : List (Nat × Nat)) : List Nat :=
  if fill then
    let all := match prev with
      | some p => p :: ivs
      | none => ivs
    let lo := all.foldl (fun m i => min m i.1) 1023
    let hi := all.foldl (fun m i => max m i.2) 0
    (upTo (hi + 1 - lo)).map (lo + ·)
  else (upTo 1024).filter (fun r => ivs.any (fun i => decide (i.1 ≤ r) && decide (r ≤ i.2)))

/-- A column pass (R277, R278): counts, sums and envelopes of every column; answers whether a count saturated. -/
def Churn.pass (c : Churn) (w : Wfm) (fill avg : Bool) : Churn × Bool :=
  let step := fun (a : Churn × Bool × Option (Nat × Nat)) (col : Nat × List (Int × Int × Int)) =>
    let (c, sat, prev) := a
    let ivs := col.2.map (fun o => (rowOf w.ymap o.1, rowOf w.ymap o.2.1))
    let rows := markedRows fill (if col.1 = 0 then none else prev) ivs
    let r := rows.foldl (fun (x : List (Nat × Nat) × Bool) row =>
      let v := Assoc.get 0 x.1 (col.1 * 1024 + row)
      (Assoc.put 0 x.1 (col.1 * 1024 + row) (min (v + 1) 65535), x.2 || decide (65535 ≤ v))) (c.db, sat)
    let trace : Int := (col.2.head?.map (·.2.2)).getD 0
    let e := col.2.foldl (fun (e : Int × Int) o => (min e.1 o.1, max e.2 o.2.1)) (c.envAt col.1)
    ({ c with
        db := r.1
        avg := if avg then Assoc.put 0 c.avg col.1 (Assoc.get 0 c.avg col.1 + trace) else c.avg
        env := Assoc.put (32767, -32768) c.env col.1 e }, r.2, ivs.getLast?)
  let r := w.columns.foldl step (c, false, none)
  (r.1, r.2.1)

/-! ### The column engine (R280 to R282) -/

/-- CHURN_ENGINE_START (R280): at a boundary at which the engine is free it starts the first pending operation: clear, decay,
column pass. -/
def execChurnEngineStart (n : Fin 8) (s : State) : Host.Outcome State Fault Refusal := s.awake <|
  let b := s.boundary
  let s := (s.advance b).churnTo n b
  let c := s.ch n
  if c.op.isSome ∨ ¬ s.churnCtl n b 0 then .next s
  else
    let tear := fun (c : Churn) => { c with snap := c.snap.map (fun x => { x with torn := x.torn || decide (x.band < 64) }) }
    if c.pendClear then
      .next ((s.churnClear n).modChurn n (fun c => tear { c with op := some (.clear, b + 16384), pendClear := false }))
    else if c.pendDecay ≠ 0 then
      .next (s.modChurn n (fun c => tear { c with op := some (.decay c.pendDecay, b + 16384), pendDecay := 0 }))
    else match c.bufs with
      | w :: _ => if w.complete then .next (s.modChurn n (fun c => { c with op := some (.pass, b + 19968) })) else .next s
      | [] => .next s

/-- The array errors that an operation met (R292). -/
def State.churnErrors (s : State) (n : Nat) (corrected : W32) (bad : Option (BitVec 12 × Fin 2048 × Fin 256)) : State :=
  let s := s.bumpBy (R.churnSramErr n) corrected.toNat
  match bad with
  | some (m, col, q) =>
    let s := s.modChurn n (fun c => { c with db := (upTo 4).foldl (fun d i => Assoc.put 0 d (col.val * 1024 + q.val * 4 + i) 0) c.db })
    s.churnAlert n 4 m.toNat
  | none => s

/-- CHURN_OP_END (R277 to R282): the running clear, decay or column pass ends; after a pass its buffer is free, and the
count of passes may make a decay pending. -/
def execChurnOpEnd (n : Fin 8) (corrected : W32) (bad : Option (BitVec 12 × Fin 2048 × Fin 256)) (s : State) :
    Host.Outcome State Fault Refusal := s.awake <|
  match (s.ch n).op with
  | none => .next s
  | some (op, t) =>
    let s := (((s.advance t).churnTo n (t - 1)).modChurn n (fun c => { c with op := none })).churnErrors n corrected bad
    let again := (s.ch n).pendClear
    .next <| match op with
      | .clear => s
      | .decay sh => s.modChurn n (fun c => { c with db := (c.db.map (fun (e : Nat × Nat) => (e.1, e.2 / 2 ^ sh))).filter (fun (e : Nat × Nat) => e.2 ≠ 0) })
      | .pass => match (s.ch n).bufs with
        | [] => s
        | w :: r =>
          let drop := (s.ch n).pendAvg
          let s := s.modChurn n (fun c => { c with bufs := r, passes := c.passes + 1, pendAvg := false })
          let s := if w.ovr && s.churnCtl n t 9 then s.bump (R.churnOvrReject n)
            else
              let cnt := s.reg (R.churnAvgCount n)
              let full := decide (cnt = 0xFFFFFFFF)
              let (c', sat) := (s.ch n).pass w (s.churnCtl n t 8) (!full)
              let first := sat && !(s.ch n).sat
              let s := s.modChurn n (fun _ => { c' with sat := c'.sat || sat, avgFull := c'.avgFull || decide (0xFFFFFFFE ≤ cnt.toNat) })
              let s := s.setReg64 (R.churnWfmCount n) (s.reg64 (R.churnWfmCount n) + 1)
              let s := if full then s else s.setReg (R.churnAvgCount n) (cnt + 1)
              if first then s.churnAlert n 1 0 else s
          let s := if again then s.churnClear n else if drop then s.churnClearAvg n else s
          if bit (s.churnReg n t (R.churnDecay n)) 3 ∧ max 1 (s.churnReg n t (R.churnDecayN n)).toNat ≤ (s.ch n).passes then s.churnAskDecay n else s

/-- CHURN_DECAY_TIMER (R282): the elapsed time since the last decay reaches CHURN_DECAY_T. -/
def execChurnDecayTimer (n : Fin 8) (s : State) : Host.Outcome State Fault Refusal := s.awake <|
  let s := s.churnTo n s.now
  let due := fun (s : State) => alignUp ((s.ch n).decayAt + max 16384 (s.churnReg64 n s.now (R.churnDecayT n))) 128
  let on := fun (s : State) => s.churnCtl n s.now 0 && bit (s.churnReg n s.now (R.churnDecay n)) 4
  if on s then
    let s := s.advance (due s)
    let s := s.churnTo n s.now
    .next (if on s ∧ due s ≤ s.now then s.churnAskDecay n else s)
  else .next s

/-! ### Snapshots (R285 to R289) -/

/-- CHURN_SNAP_PERIOD (R286): the snapshot period elapses. -/
def execChurnSnapPeriod (n : Fin 8) (s : State) : Host.Outcome State Fault Refusal := s.awake <|
  let s := s.churnTo n s.now
  let next := fun (s : State) => (s.ch n).periodAt + max 131072 (s.churnReg64 n s.now (R.churnSnapPeriod n))
  let on := fun (s : State) => fld (s.churnReg n s.now (R.churnSnapCtrl n)) 1 2 == 1 && s.churnCtl n s.now 0
  if on s then
    let s := s.advance (alignUp (next s) 128)
    let s := s.churnTo n s.now
    .next (if on s ∧ next s ≤ s.now then (s.modChurn n (fun c => { c with periodAt := next s })).snapStart n s.now else s)
  else .next s

/-- CHURN_SNAP_EVENT (R286): the first boundary strictly after an occurrence of the chosen source. -/
def execChurnSnapEvent (n : Fin 8) (s : State) : Host.Outcome State Fault Refusal := s.awake <|
  let s := s.churnTo n s.now
  let w := s.churnReg n s.now (R.churnSnapCtrl n)
  let last := Assoc.get 0 s.evt.last (fld w 6 8)
  if fld w 1 2 = 2 ∧ last ≠ 0 ∧ (s.ch n).periodAt < last then
    let b := boundaryAfter (last - 1)
    let s := ((s.advance b).churnTo n b).modChurn n (fun c => { c with periodAt := last })
    .next (s.snapStart n b)
  else .next s

/-- Rendered luma of a count (R285). -/
def State.luma (s : State) (n count : Nat) : Nat :=
  fld (s.churnReg n s.now (R.churnLut n (min (count / 2 ^ min 6 (fld (s.churnReg n s.now (R.churnRender n)) 20 3)) 1023))) 0 10

/-- The bytes of rendered samples: two each in YC420-10, one in YC420-8 (R285). -/
def sampleBytes (eight : Bool) (vs : List Nat) : List Byte :=
  vs.flatMap (fun v => if eight then leBytes 1 (v / 4) else leBytes 2 v)

/-- CHURN_BAND_READ (R285, R287; 15 R372): the next band of 32 columns is read and written, raw and rendered as chosen. -/
def execChurnBandRead (n : Fin 8) (s : State) : Host.Outcome State Fault Refusal := s.awake <|
  let s := s.churnTo n s.now
  match (s.ch n).snap with
  | some x =>
    if x.band < 64 then
      let db := (s.ch n).db
      let c0 := x.band * 32
      let cols := (upTo 32).map (c0 + ·)
      let count := fun col line => Assoc.get 0 db (col * 1024 + (1023 - line))
      let w := if x.fmt then 1 else 2
      let s := (upTo 1024).foldl (fun s l =>
        let s := if x.raw then s.memPut 9 (x.base + 0x100000 + (l * 2048 + c0) * 2) (cols.flatMap (fun c => leBytes 2 (count c l))) else s
        let s := if x.render then s.memPut 9 (x.base + 0x500000 + (l * 2048 + c0) * w) (sampleBytes x.fmt (cols.map (fun c => s.luma n (count c l)))) else s
        if x.render && l % 2 == 0 then
          let r := s.churnReg n s.now (R.churnRender n)
          let pair := fun j =>
            let c := c0 + 2 * j
            if count c l + count (c + 1) l + count c (l + 1) + count (c + 1) (l + 1) = 0 then [512, 512] else [fld r 0 10, fld r 10 10]
          s.memPut 9 (x.base + 0x900000 + (l / 2 * 2048 + c0) * w) (sampleBytes x.fmt ((upTo 16).flatMap pair))
        else s) s
      let bad := (upTo 1024).any (fun l => (x.raw && s.memStatus (x.base + 0x100000 + (l * 2048 + c0) * 2) 64 == 2) ||
        (x.render && (s.memStatus (x.base + 0x500000 + (l * 2048 + c0) * w) (32 * w) == 2 ||
          (l % 2 == 0 && s.memStatus (x.base + 0x900000 + (l / 2 * 2048 + c0) * w) (32 * w) == 2))))
      .next (s.modChurn n (fun c => { c with snap := some { x with band := x.band + 1, poison := x.poison || bad, wfmLast := s.reg64 (R.churnWfmCount n) } }))
    else .next s
  | none => .next s

/-- A write of a slot's header, average or envelope completes POISON (15 R372). -/
def State.pageBad (s : State) (base : Nat) : Bool :=
  s.memStatus base 64 == 2 || s.memStatus (base + 0x1000) 0x4000 == 2 || s.memStatus (base + 0x5000) 0x2000 == 2

/-- CHURN_SNAP_PUBLISH (R287, R288): with every band read, the average, envelope and header are written and the slot is
published; a pending start then starts. -/
def execChurnSnapPublish (n : Fin 8) (s : State) : Host.Outcome State Fault Refusal := s.awake <|
  let s := s.churnTo n s.now
  match (s.ch n).snap with
  | some x =>
    if x.band = 64 then
      let bad := x.poison || s.pageBad x.base
      let b := s.boundary
      let s := s.advance b
      let c := s.ch n
      let s := s.memPut 9 (x.base + 0x1000) ((upTo 2048).flatMap (fun i => leBytes 8 ((Assoc.get 0 x.avg i) % 2 ^ 64).toNat))
      let s := s.memPut 9 (x.base + 0x5000) ((upTo 2048).flatMap (fun i =>
        let e : Int × Int := Assoc.get ((32767, -32768) : Int × Int) x.env i
        leBytes 2 (e.1 % 65536).toNat ++ leBytes 2 (e.2 % 65536).toNat))
      let flags := pack [(0, n.val), (3, x.slot), (4, b2n x.raw), (5, b2n x.render), (6, b2n x.fmt), (7, b2n x.torn), (8, b2n c.sat), (9, b2n c.avgFull)]
      let s := s.memWords 9 x.base (x.kts ++ [loW x.wfmAtS, hiW x.wfmAtS, loW x.wfmLast, hiW x.wfmLast, x.avgCount, flags, 0, 0, 0, 0, 0])
      let pend := c.snapPending
      if bad then
        let s := (s.bump (R.churnSnapSkip n)).modChurn n (fun c => { c with snap := none, snapPending := false })
        .next (if pend then s.snapStart n b else s)
      else
      let s := s.pageSeal x.base 5 x.seq
      let s := s.modChurn n (fun c => { c with snap := none, snapPending := false, published := some x.slot, pubValid := true })
      let s := (s.setReg (R.churnSnapSeq n) (BitVec.ofNat 32 x.seq))
      let s := if s.headOf n = n then s.raise (128 + n) else s
      .next (if pend then s.snapStart n b else s)
    else .next s
  | none => .next s

/-- A hold of a slot by a holder, and its release (R287). -/
def State.churnHold (s : State) (n slot holder : Nat) : State := s.modChurn n (fun c => { c with holds := (slot, holder) :: c.holds })
/-- Every hold of a holder is released. -/
def State.churnUnhold (s : State) (n holder : Nat) : State := s.modChurn n (fun c => { c with holds := c.holds.filter (·.2 ≠ holder) })

/-- RETAIN entry loses the arrays, and with them what the engine, the buffers and a running snapshot held (R291). -/
def State.churnRetain (s : State) : State :=
  (upTo 8).foldl (fun s n => (s.churnTo n s.now).modChurn n (fun c => { c with
    db := [], avg := [], env := [], bufs := [], op := none, pendClear := false, pendDecay := 0, pendAvg := false, snap := none, snapPending := false
    sat := false, avgFull := false })) s

end Sys2Proof.Machine
end

