-- ==== Sys2Proof/Machine/Memory.lean ====
section
/-! DEFINITION. The memory controller (14_memory_controller.md): mapping changes, ports and regulators, the engines' queues and
scheduling; and memory integrity (15_memory_integrity.md): replay and fences, data errors, row disturbance, refresh,
self-refresh, and the change of data rate. -/

namespace Sys2Proof.Machine

/-! ### Parts of the state -/

/-- A port by number. -/
def State.mport (s : State) (p : Nat) : MPort := vget s.mem.ports p { v := 0, vAt := 0, wait := [], penalty := none }

/-- The state with a port changed. -/
def State.modMport (s : State) (p : Nat) (f : MPort → MPort) : State := { s with mem := { s.mem with ports := vmod s.mem.ports p f } }

/-- A stack by number. -/
def State.stack (s : State) (st : Nat) : Stack :=
  vget s.mem.stackCtl st { mult := 0, temp := 0, lastRead := none, winStart := 0, rate := 0, rateBy := none, paid := (0, 0) }

/-- The state with a stack changed. -/
def State.modStack (s : State) (st : Nat) (f : Stack → Stack) : State := { s with mem := { s.mem with stackCtl := vmod s.mem.stackCtl st f } }

/-- The number of stacks, and of engines, of the part (00 R2). -/
def State.nStacks (s : State) : Nat := if s.is9620 then 1 else 2

/-- CK_MEM of a stack in ticks (03 R80): 64 at 5.0 Gb/s. -/
def State.ckMem (s : State) (st : Nat) : Nat := 64 * 2 ^ (s.stack st).rate

/-- CK_MEM of an engine. -/
def State.ckOf (s : State) (e : Nat) : Nat := s.ckMem (e / 32)

/-- A channel is held (R373). -/
def HChan.held (c : HChan) : Bool := decide (c.attempt ≠ 0) || c.rateHold || c.sweepHold || c.unfencing

/-- A channel begins a hold (R373), if it is not held. -/
def State.holdFrom (s : State) (c : Nat) (f : HChan → HChan) : State :=
  s.modHchan c (fun h => let h' := f h; if h.held then h' else { h' with heldFrom := s.now })

/-- A reason for a hold ends; when it was the last, the hold is over (R373), and is kept for the timers above memory. -/
def State.holdEnd (s : State) (c : Nat) (f : HChan → HChan) : State :=
  let h := s.hchan c
  let h' := f h
  let s := s.modHchan c (fun _ => { h' with idleSince := s.now, mult := if h'.attempt ≠ 0 || h'.rateHold then h'.mult else (s.stack (c / 16)).mult })
  if h.held && !h'.held then { s with mem := { s.mem with holds := (c, false, h.heldFrom, s.now) :: s.mem.holds } } else s

/-- `MEM_HELD` (15). -/
def State.memHeld (s : State) : W32 := BitVec.ofNat 32 ((List.range 32).foldl (fun m c => if (s.hchan c).held then m + 2 ^ c else m) 0)

/-- `MEM_FENCED` (15). -/
def State.memFenced (s : State) : W32 := BitVec.ofNat 32 ((List.range 32).foldl (fun m c => if (s.hchan c).fenced then m + 2 ^ c else m) 0)

/-- Elapsed ticks at a timer of CK_DP periods of which `f` to `t` overlap an interval (R373): a period counts as held if any
part of it is. -/
def holdSum (f t : Nat) : List (Nat × Nat) → Nat
  | [] => 0
  | (a, b) :: r =>
    let lo := max f (a / 128 * 128)
    let hi := min t (alignUp b 128)
    (hi - lo) + holdSum f t r

/-- Held intervals of a channel so far, up to elapsed tick `t` (R373). -/
def State.holdsOf (s : State) (c t : Nat) : List (Nat × Nat) :=
  let h := s.hchan c
  let past := (s.mem.holds.filter (fun x => x.1 = c)).map (fun x => (x.2.2.1, x.2.2.2))
  if h.held then (h.heldFrom, t) :: past else past

/-- The first elapsed tick at which a timer that started at `f` with `len` ticks has run out for a line of channel c, as
the holds stand now (R373). -/
def State.timerEnd (s : State) (c f len : Nat) : Nat :=
  f + len + holdSum f (max s.now (f + len)) (s.holdsOf c (max s.now f))

/-! ### Mapping (R347, R348) -/

/-- `v` reduced by basis vectors with their pivot bits. -/
def gfReduce (v : Nat) : List (Nat × Nat) → Nat
  | [] => v
  | (b, p) :: r => gfReduce (if v.testBit p then v ^^^ b else v) r

/-- Vectors of ten bits are linearly independent over GF(2), given a basis so far. -/
def gfIndependent (basis : List (Nat × Nat)) : List Nat → Bool
  | [] => true
  | v :: r =>
    let w := gfReduce v basis
    match (List.range 10).find? (fun p => w.testBit p) with
    | none => false
    | some p => gfIndependent (basis ++ [(w, p)]) r

/-- A mapping is regular (R347). -/
def mapRegular (is9620 : Bool) (masks : List W32) : Bool :=
  if is9620 then gfIndependent [] ((masks.drop 1).map (fun m => m.toNat % 512))
  else gfIndependent [] (masks.map (fun m => m.toNat % 1024))

/-- The mapping check of the periodic twin test (R347): masks that fail are reported, and the last that passed stay in
use. -/
def State.mapCheck (s : State) : State :=
  let s := if s.mem.masks.all (fun m => m.2 == ~~~ m.1) then s else s.twinMismatch (pathBlk 13)
  { s with mem := { s.mem with good := List.zipWith (fun (m : W32 × W32) g => if m.2 == ~~~ m.1 then m.1 else g) s.mem.masks s.mem.good } }

/-- MEM_MAP_TWIN_CHECK (R347): once every 2^10 CK_DP the twins of the masks in force are checked; `flip` is an upset of one
stored word, met by this check (log entry 7). -/
def execMemMapTwinCheck (w : Fin 20) (flip : W32) (s : State) : Host.Outcome State Fault Refusal := s.awake <|
  let s := s.advance (alignUp (s.now + 1) 131072)
  let s := if s.is9620 ∧ w.val / 2 = 0 then s
    else { s with mem := { s.mem with masks := modAt s.mem.masks (w.val / 2) (fun m => if w.val % 2 = 0 then (m.1 ^^^ flip, m.2) else (m.1, m.2 ^^^ flip)) } }
  .next s.mapCheck

/-- Every queue of every engine is empty (R348). -/
def State.queuesEmpty (s : State) : Bool := s.mem.engines.toList.all (fun e => e.rq.isEmpty && e.wq.isEmpty && e.fly.isEmpty)

/-! ### Rate changes (15 R386) -/

/-- An engine's queued lines issue under what was in force (R386 step 2): writes are stored, reads join those in flight. -/
def State.flushEngine (s : State) (e : Nat) : State :=
  let x := s.engine e
  let s := x.wq.foldl (fun s l =>
    let loc := (s.place l.dpa).loc
    (List.range 64).foldl (fun s i => if l.mask.testBit i then s.setLoc (loc + i) (l.data.getD i 0) else s) s) s
  let reads := x.rq.map (fun l => if l.waits then { l with data := s.readLine l.dpa, waits := false } else l)
  s.modEngine e (fun x => { x with wq := [], rq := [], fly := x.fly ++ reads, rows := [] })

/-- A sweep under way on a stack ends with ABORTED_FREQ (R388). -/
def State.sweepAbortFreq (s : State) (st : Nat) : State :=
  match s.mem.sweep with
  | some w => if w.chan / 16 = st then ({ s with mem := { s.mem with sweep := none } }).mgtAnswerCmd 0x13 18 [] else s
  | none => s

/-- A step of a sweep runs on a stack (R388). -/
def State.stepRuns (s : State) (st : Nat) : Bool := s.mem.sweep.any (fun w => w.inStep && w.chan / 16 == st)

/-- A rate change of a stack starts at the boundary now (R386, R388): a sweep is aborted, channels are held, queues issued. -/
def State.rateStart (s : State) (st : Nat) : State :=
  let s := s.sweepAbortFreq st
  let s := (List.range 16).foldl (fun s c =>
    if (s.hchan (st * 16 + c)).fenced then s else s.holdFrom (st * 16 + c) (fun h => { h with rateHold := true })) s
  let s := (List.range 32).foldl (fun s e => if (s.hchan (st * 16 + e / 2)).fenced then s else s.flushEngine (st * 32 + e)) s
  s.modStack st (fun x => { x with rateBy := some (s.now + 800000) })

/-- Units that a stack draws at a rate (11 R297): VDD_CORE, VDD_HBM. -/
def rateUnits (r : Nat) : Nat × Nat := if r = 0 then (24, 80) else if r = 1 then (12, 45) else (6, 25)

/-- Units on a stack's rail. -/
def stackUnits (st core hbm : Nat) : Units := { core := core, conv := 0, hbm0 := if st = 0 then hbm else 0, hbm1 := if st = 0 then 0 else hbm }

/-- The rate that `MEM_RATE` holds for a stack (R364). -/
def State.rateReg (s : State) (st : Nat) : Nat := s.rf R.memRate (2 * st) 2

/-- `MEM_RATE` asks for another rate than the stack runs at, and the change has not started. -/
def State.rateWaits (s : State) (st : Nat) : Bool := decide (s.rateReg st ≠ (s.stack st).rate) && (s.stack st).rateBy.isNone

/-- A rate change that waits starts, unless a sweep's step or a drain is under way (R362, R388). -/
def State.rateGo (s : State) (st : Nat) : State :=
  if s.rateWaits st && !s.stepRuns st && s.mem.pendMasks.isNone then s.rateStart st else s

/-- MEM_RATE_DONE (R386 step 5): the stack runs at the new rate, its channels resume, and the units of a fall leave; no
sooner than the replay and the sweep step under way end (R388, R390). A re-initialisation of the same boundary then runs at the new rate. -/
def execMemRateDone (st : Fin 2) (s : State) : Host.Outcome State Fault Refusal := s.awake <|
  match (s.stack st).rateBy with
  | none => .next s
  | some t =>
    if (List.range 16).any (fun c => let h := s.hchan (st * 16 + c); decide (h.attempt ≠ 0) || h.sweepHold) then .next s
    else
      let s := s.advance t
      let old := (s.stack st).rate
      let new := s.rateReg st
      let paid := (s.stack st).paid
      let drop := if old < new then
          (min paid.1 ((rateUnits old).1 - (rateUnits new).1), min paid.2 ((rateUnits old).2 - (rateUnits new).2)) else (0, 0)
      let s := s.modStack st (fun x => { x with rate := new, rateBy := none, paid := (paid.1 - drop.1, paid.2 - drop.2) })
      let s := if drop = (0, 0) then s else s.loadFall (stackUnits st drop.1 drop.2)
      let ck := s.ckMem st
      let s := (List.range 16).foldl (fun s c => s.holdEnd (st * 16 + c) (fun h => { h with
        rateHold := false, mortar := [], unfenceBy := if h.unfencing then s.now + 2000 * ck else h.unfenceBy })) s
      .next (s.raise 153)

/-- MEM_MAP_DRAIN_DONE (R348 step 3): with every queue empty and no channel held, the new masks take effect at a boundary,
and rate changes that met the drain start (R362). -/
def execMemMapDrainDone (s : State) : Host.Outcome State Fault Refusal := s.awake <|
  match s.mem.pendMasks with
  | some ms =>
    if s.queuesEmpty ∧ s.memHeld = 0 then
      let s := s.advance s.boundary
      let s := { s with mem := { s.mem with masks := ms, good := ms.map (·.1), pendMasks := none, mapSeq := (s.mem.mapSeq + 1) % 256 } }
      .next ((List.range 2).foldl State.rateGo s)
    else .next s
  | none => .next s

/-- `MEM_XLATE_OUT` of a DPA (R365). -/
def State.xlate (s : State) (dpa : Nat) : W32 :=
  if s.dpaTop ≤ dpa then 0
  else
    let p := s.place dpa
    pack [(0, 1), (1, p.engine / 32), (2, p.engine / 2 % 16), (6, p.engine % 2), (7, p.bank / 4), (9, p.bank % 4), (11, p.sid), (13, p.row), (27, p.col)]

/-! ### Regulators (R358, R359) -/

/-- A port is throttled (R359, R377, R379). -/
def State.throttled (s : State) (p : Nat) : Bool := decide (8 ≤ p) && (s.mem.hot || (s.mport p).penalty.isSome)

/-- `MEM_THROTTLE` (R364). -/
def State.memThrottle (s : State) : W32 := BitVec.ofNat 32 ((List.range 19).foldl (fun m p => if s.throttled p then m + 2 ^ p else m) 0)

/-- Gain per period of a port's bucket (R358, R359). -/
def State.bucketRate (s : State) (p : Nat) : Nat :=
  let r := min 16384 (s.rf (R.memReg p) 0 15)
  if s.throttled p then min r (s.rf (R.memRegFloor p) 0 15) else r

/-- Cap of a port's bucket in 1/1,024 of a line (R358, R359). -/
def State.bucketCap (s : State) (p : Nat) : Nat :=
  let b := max 1 (s.rf (R.memReg p) 15 12)
  (if s.throttled p then min b 16 else b) * 1024

/-- A port is not regulated (R358). -/
def State.unregulated (s : State) (p : Nat) : Bool := decide (p < 8) || bit (s.reg (R.memReg p)) 29

/-- A bucket is brought up to elapsed tick `t` under what is in force (R358). -/
def State.bucketTo (s : State) (p t : Nat) : State :=
  let x := s.mport p
  let k := t / 64 - x.vAt / 64
  s.modMport p (fun x => { x with v := min (s.bucketCap p) (x.v + s.bucketRate p * k), vAt := max x.vAt t })

/-- Every bucket is brought up to `t`. -/
def State.bucketsTo (s : State) (t : Nat) : State := (List.range 19).foldl (fun s p => s.bucketTo p t) s

/-- A bucket starts full (R358). -/
def State.bucketFill (s : State) (p : Nat) : State := s.modMport p (fun x => { x with v := s.bucketCap p, vAt := s.now })

/-- Lines of a port that are outstanding: presented and not yet accepted, or in an engine. -/
def State.linesOut (s : State) (p : Nat) (write : Bool) : Nat :=
  let mine := fun (l : MLine) => l.port == p && l.write == write
  ((s.mport p).wait.filter mine).length + s.mem.engines.toList.foldl (fun n x => n + ((x.rq ++ x.wq ++ x.fly).filter mine).length) 0

/-- A requester is at its bound of lines in flight (R361): TAP, DSP0 to DSP3 and HST by reads, HST by the writes that wait, MGT by both. -/
def State.atBound (s : State) (p : Nat) (write : Bool) : Bool :=
  if p = 10 then !write && decide (4096 ≤ s.linesOut p false)
  else if 12 ≤ p ∧ p < 16 then !write && decide (256 ≤ s.linesOut p false)
  else if p = 17 then (if write then decide (256 ≤ ((s.mport p).wait.filter (·.write)).length) else decide (256 ≤ s.linesOut p false))
  else if p = 18 then decide (16 ≤ s.linesOut p true + s.linesOut p false)
  else false

/-- MEM_LINE_PRESENT (R344, R349, R352, R358, R368): a port presents a line. It waits for the token that its regulator asks
for, and no line is presented during a drain (R348) or by a requester at its bound (R361). A line outside the map, of a fenced channel, or of an engine under
test completes at once. -/
def execMemLinePresent (p : Fin 19) (write : Bool) (dpa : BitVec 40) (mask : W64) (data : BitVec 512) (s : State) :
    Host.Outcome State Fault Refusal := s.awake <|
  let a := dpa.toNat / 64 * 64
  let s := s.bucketTo p s.now
  let need := if s.unregulated p then 0 else 1024 - (s.mport p).v
  if (s.bucketRate p = 0 ∧ need ≠ 0) ∨ s.mem.pendMasks.isSome ∨ s.atBound p write then .next s
  else
    let k := ceilDiv need (max 1 (s.bucketRate p))
    let s := if k = 0 then s else ((s.bumpBy (R.memPortStall p) k).advance ((s.now / 64 + k) * 64))
    let s := s.bucketTo p s.now
    let s := if s.unregulated p then s else s.modMport p (fun x => { x with v := x.v - 1024 })
    let done := fun (st : Nat) (d : List Byte) (s : State) =>
      { s with mem := { s.mem with done := { port := p.val, dpa := a, write := write, status := st, data := d, at_ := s.now } :: s.mem.done } }
    match s.lineStatus a with
    | 0 =>
      let h := s.rf (R.memReg p) 27 2
      .next (s.modMport p (fun x => { x with wait := x.wait ++
        [{ port := p.val, dpa := a, write := write, mask := mask.toNat, data := leBytes 64 data.toNat, hint := min h 2, at_ := s.now, tries := 0, waits := false }] }))
    | 1 => .next (done 1 (if write then [] else List.replicate 64 0xFF) (s.addrErr p a write))
    | _ => .next (done 2 [] ((s.bump (R.memPortLines p)).linePoison p a write 3))

/-! ### Acceptance (R352 to R355) -/

/-- A line completed to its port. -/
def State.lineDone (s : State) (l : MLine) (st : Nat) (d : List Byte) : State :=
  { s with mem := { s.mem with done := { port := l.port, dpa := l.dpa, write := l.write, status := st, data := d, at_ := s.now } :: s.mem.done } }

/-- Ports in the order in which an engine takes them (R352), after round-robin position `rr`. -/
def portOrder (rr : Nat) : List Nat :=
  let others := [8, 9, 10, 11, 16, 17, 18]
  (List.range 8) ++ [12, 13, 14, 15] ++ others.filter (fun p => decide (rr < p)) ++ others.filter (fun p => decide (p ≤ rr))

/-- A port's first waiting line may enter this engine's queue (R352). -/
def State.admits (s : State) (e : Nat) (write : Bool) (l : MLine) : Bool :=
  let x := s.engine e
  (s.place l.dpa).engine == e && l.write == write &&
    (if write then x.wq.any (fun w => w.dpa == l.dpa) || (if l.port < 8 then decide (x.wq.length < 64) else decide (x.wq.length ≤ 47))
     else if 12 ≤ l.port ∧ l.port < 16 then decide (x.rq.length < 64) else decide (x.rq.length ≤ 55))

/-- The port whose first waiting line an engine takes next, in one direction (R352). -/
def State.pickPort (s : State) (e : Nat) (write : Bool) : Option Nat :=
  (portOrder (s.engine e).rr).find? (fun p => match (s.mport p).wait with
    | [] => false
    | l :: _ => s.admits e write l)

/-- A write of line l is accepted in the CK_MEM in which a read of that line was: the write counts first (R353, R362), so the read takes its
bytes, from the queue where the entry then covers the line (R355). `e` is their engine, `ck` its CK_MEM. -/
def State.writeFirst (s : State) (e ck : Nat) (l : MLine) : State :=
  let x := s.engine e
  match x.wq.find? (fun w => w.dpa == l.dpa) with
  | none => s
  | some w =>
    let met := fun (r : MLine) => r.dpa == l.dpa && r.at_ == l.at_
    let whole := w.mask % 2 ^ 64 == 2 ^ 64 - 1
    let put := fun (d : MDone) =>
      if !d.write && d.status == 0 && d.dpa == l.dpa && d.at_ == l.at_ + 8 * ck then { d with data := overlay d.data l.data l.mask } else d
    let s := { s with mem := { s.mem with done := s.mem.done.map put } }
    let wait := fun (r : MLine) => if met r then { r with data := overlay r.data l.data l.mask, waits := true } else r
    let s := s.modEngine e (fun x => { x with rq := if whole then x.rq.filter (fun r => !met r) else x.rq.map wait })
    let served : List MDone := (x.rq.filter met).map (fun r =>
      { port := r.port, dpa := r.dpa, write := false, status := 0, data := w.data, at_ := l.at_ + 8 * ck })
    if whole then { s with mem := { s.mem with done := served ++ s.mem.done } } else s

/-- MEM_LINE_ACCEPT (R352 to R355): an engine accepts the next waiting line of one direction; a write merges or is queued, a
read is forwarded, waits, or is queued. During a drain every port waits (R348). -/
def execMemLineAccept (e : Fin 64) (write : Bool) (s : State) : Host.Outcome State Fault Refusal := s.awake <|
  match s.pickPort e write with
  | none => .next s
  | some p => if s.mem.pendMasks.isSome then .next s else match (s.mport p).wait with
    | [] => .next s
    | l :: rest =>
      let x := s.engine e
      let ck := s.ckOf e
      let t := alignUp (max s.now (if write then x.readyW else x.readyR)) ck
      let s := s.advance t
      let s := s.bump (R.memPortLines p)
      let s := if l.at_ < t then s.bumpBy (R.memPortStall p) ((t - l.at_) / 64) else s
      let s := s.modMport p (fun x => { x with wait := rest })
      let rr := if p < 8 ∨ (12 ≤ p ∧ p < 16) then x.rr else p
      let l := { l with at_ := t }
      if s.lineStatus l.dpa ≠ 0 then .next ((s.linePoison p l.dpa write 3).lineDone l 2 [])
      else
      let s := s.wakeChan (chanOfEngine e)
      if write then
        let merge := x.wq.any (fun w => w.dpa == l.dpa)
        .next ((s.modEngine e (fun x => { x with rr := rr, readyW := t + ck, wq := if merge then mergeWrite l x.wq else x.wq ++ [l] })).writeFirst e ck l)
      else
        let s := s.modEngine e (fun x => { x with rr := rr, readyR := t + ck })
        let d := s.readLine l.dpa
        match x.wq.find? (fun w => w.dpa == l.dpa) with
        | none => .next (s.modEngine e (fun x => { x with rq := x.rq ++ [{ l with data := d }] }))
        | some w =>
          if w.mask % 2 ^ 64 = 2 ^ 64 - 1 then
            .next { s with mem := { s.mem with done := { port := p, dpa := l.dpa, write := false, status := 0, data := d, at_ := t + 8 * ck } :: s.mem.done } }
          else .next (s.modEngine e (fun x => { x with rq := x.rq ++ [{ l with data := d, waits := true }] }))

/-! ### Scheduling (R356, R357) -/

/-- CK_MEM that a line has waited. -/
def MLine.age (l : MLine) (t ck : Nat) : Nat := (t - l.at_) / ck

/-- The row key of a place in its engine. -/
def Place.bankKey (p : Place) : Nat := p.sid * 16 + p.bank

/-- A line's row is open (R350). -/
def State.rowOpen (s : State) (e : Nat) (l : MLine) : Bool :=
  let p := s.place l.dpa
  match (s.engine e).rows.find? (fun r => r.1 == p.bankKey) with
  | some (_, row, at_) => row == p.row && decide (s.now ≤ at_ + 128 * s.ckOf e)
  | none => false

/-- A read that no queued write of its line holds back (R355): a write entry that issues frees those that wait for it. -/
def Engine.readyRead (x : Engine) (l : MLine) : Bool := !l.waits || !x.wq.any (fun w => w.dpa == l.dpa)

/-- The request that the mode's rules choose among those present (R357 items 3 and 4), oldest first. -/
def State.chooseLine (s : State) (e : Nat) (high : MLine → Bool) (ls : List MLine) : Option MLine :=
  let ck := s.ckOf e
  let top := fun (l : MLine) => high l || decide (4096 ≤ l.age s.now ck)
  let cs := if ls.any high then ls.filter top else ls
  match cs with
  | [] => none
  | o :: _ => if 1024 ≤ o.age s.now ck then some o
    else match cs.find? (s.rowOpen e) with
      | some l => some l
      | none => some o

/-- READ or WRITE mode at this CK_MEM (R357 item 2). -/
def State.engineMode (s : State) (e : Nat) : Bool :=
  let x := s.engine e
  let ck := s.ckOf e
  let old := x.wq.any (fun l => decide (l.port < 8) && decide (256 ≤ l.age s.now ck))
  let toW := decide (40 ≤ x.wq.length) || old || (x.rq.isEmpty && !x.wq.isEmpty)
  let toR := (decide (x.wq.length ≤ 16) && !old) || (x.wq.isEmpty && !x.rq.isEmpty)
  if x.writing then toW || !toR else toW

/-- A detection against a row (R375 to R378). -/
def State.rowDetect (s : State) (e key row port : Nat) : State :=
  let bank := key % 16
  let path := pathBank (e / 32) (e / 2 % 16) (e % 2) bank
  let s := s.modEngine e (fun x => { x with acts := Assoc.put (0, 0) x.acts (key * 16384 + row) (0, 0) })
  let s := (s.bump R.memRdCount).cairnRecord 0x106 port path
  if s.is9620 then s
  else
    let s := s.bucketTo port s.now
    (s.modMport port (fun x => { x with penalty := some (alignUp s.now 128 + max 1 (s.rf R.memRdPenalty 0 24) * 131072) })).raise 150

/-- The tracker's threshold T (R375). -/
def State.rdThr (s : State) : Nat := max 1024 (s.rf R.memRdCtrl 5 16)

/-- An activate of a line's row (R375, R376, R378): counted for a port other than an acquisition writer; on the SLW-9620 it
draws a refresh of the neighbours, with a free value for the bank's LFSR (log entry 7). -/
def State.activate (s : State) (e : Nat) (l : MLine) : State :=
  let p := s.place l.dpa
  if l.port < 8 ∨ ¬ bit (s.reg R.memRdCtrl) 0 then s
  else
    let key := p.bankKey * 16384 + p.row
    let n := (Assoc.get (0, 0) (s.engine e).acts key).1 + 1
    let s := s.modEngine e (fun x => { x with acts := Assoc.put (0, 0) x.acts key (n, l.port) })
    let s := if s.is9620 then
        let k := max 6 (min 12 (s.rf R.memRdCtrl 1 4))
        let (f, s) := s.free
        if f.toNat % 2 ^ k = 0 then
          let (g, s) := s.free
          let edge := decide (p.row = 0) || decide (p.row = 16383)
          s.bumpBy R.memNbrRefCount (if s.mem.adjLoaded then g.toNat % 5 else if edge then 1 else 2)
        else s
      else s
    if s.rdThr + 64 ≤ n then s.rowDetect e p.bankKey p.row l.port else s

/-- What an access leaves of its row (R350). -/
def State.closeRow (s : State) (e : Nat) (l : MLine) : State :=
  let p := s.place l.dpa
  let same := fun (m : MLine) => let q := s.place m.dpa; q.bankKey == p.bankKey && q.row == p.row
  let keep := if l.hint = 0 then true else if l.hint = 1 then false else (s.engine e).rq.any same || (s.engine e).wq.any same
  s.modEngine e (fun x => { x with rows :=
    let r := x.rows.filter (fun r => r.1 ≠ p.bankKey)
    if keep then (p.bankKey, p.row, s.now) :: r else r })

/-- Bytes of a write entry reach the stack. -/
def State.storeLine (s : State) (l : MLine) : State :=
  let loc := (s.place l.dpa).loc
  (List.range 64).foldl (fun s i => if l.mask.testBit i then s.setLoc (loc + i) (l.data.getD i 0) else s) s

/-- A read of the stack meets ECC: a corrected error counts (R370). -/
def State.eccCorrected (s : State) : State := (s.bump R.memEccCorrCount).raise 149

/-- The reads of a line that wait for its write entry go to the stack once it has issued: each takes the line as it is then (R355, R362),
and no later write (R353). -/
def State.freeReads (s : State) (e a : Nat) : State :=
  let d := s.readLine a
  s.modEngine e (fun x => { x with rq := x.rq.map (fun r => if r.dpa == a && r.waits then { r with data := d, waits := false } else r) })

/-- A write entry issues (R356, R369, R371): a partial one as read, merge and write, whose read part comes to `rd`. -/
def State.issueWrite (s : State) (e : Nat) (l : MLine) (rd : Nat) : State :=
  let s := s.modEngine e (fun x => { x with wq := x.wq.filter (fun w => w.dpa ≠ l.dpa) })
  let part := decide (l.mask % 2 ^ 64 ≠ 2 ^ 64 - 1)
  if part ∧ 2 ≤ rd then ((s.freeReads e l.dpa).linePoison l.port l.dpa true (if rd = 2 then 1 else 0)).lineDone l 2 []
  else
    let s := if part ∧ rd = 1 then s.eccCorrected else s
    let s := (s.storeLine l).freeReads e l.dpa
    s.modEngine e (fun x => { x with unacked := (l :: x.unacked).take 32 })

/-- A read issues to the stack. -/
def State.issueRead (s : State) (e : Nat) (l : MLine) : State :=
  let l' := if l.waits then { l with data := s.readLine l.dpa, waits := false } else l
  s.modEngine e (fun x => { x with rq := x.rq.erase l, fly := x.fly ++ [l'] })

/-- Ticks after which a command of a stack's channel is acknowledged (R366). -/
def State.ackTime (s : State) (st : Nat) : Nat := (Config.alertLatency (s.stack st).rate + 8) * s.ckMem st

/-- The first elapsed tick from t on at which fewer than 32 commands of a channel are unacknowledged (R366). -/
def State.mortarFree (s : State) (c t : Nat) : Nat :=
  match (s.hchan c).mortar[31]? with
  | none => t
  | some x => max t (x + s.ackTime (c / 16))

/-- A channel has issued a command at elapsed tick t (R366). -/
def HChan.issued (h : HChan) (t : Nat) : HChan := { h with mortar := (t :: h.mortar).take 32 }

/-- MEM_COMMAND_ISSUE (R350, R356, R357): in the next CK_MEM the engine issues the request that its mode and the scheduling
rules choose; in READ with no read that can issue, it issues a write (log entry 15). A held, fenced or sleeping channel issues none, nor
one of which 32 commands are unacknowledged (R366, R368, R373, R381). -/
def execMemCommandIssue (e : Fin 64) (rd : Fin 4) (s : State) : Host.Outcome State Fault Refusal := s.awake <|
  let h := s.hchan (chanOfEngine e)
  if h.held || h.fenced || h.sr != 0 then .next s
  else
    let ck := s.ckOf e
    let t := alignUp (s.mortarFree (chanOfEngine e) (max s.now (s.engine e).readyC)) ck
    let s1 := s.advance t
    let x := s1.engine e
    let w := s1.engineMode e
    let ready := x.rq.filter (fun l => decide (12 ≤ l.port) && decide (l.port < 16) && x.readyRead l)
    let by_ := if ready.any (fun l => decide (512 ≤ l.age t ck)) && x.lcBy.isNone then some t else x.lcBy
    let lcs := ready.filter (fun l => by_.any (fun b => decide (l.at_ ≤ b)))
    let reads := x.rq.filter x.readyRead
    let pick : Option MLine :=
      if w then
        (if lcs ≠ [] then s1.chooseLine e (fun _ => true) lcs else s1.chooseLine e (fun l => decide (l.port < 8)) x.wq)
      else match s1.chooseLine e (fun l => decide (12 ≤ l.port) && decide (l.port < 16)) reads with
        | some l => some l
        | none => s1.chooseLine e (fun l => decide (l.port < 8)) x.wq
    match pick with
    | none => .next s
    | some l =>
      let s := if s1.rowOpen e l then s1 else s1.activate e l
      let s := s.modEngine e (fun x => { x with writing := w, readyC := t + ck, lcBy := if w && lcs != [] then by_ else none })
      let s := s.closeRow e l
      let s := s.modHchan (chanOfEngine e) (fun h => { h.issued t with idleSince := t })
      .next (if l.write then s.issueWrite e l rd else s.issueRead e l)

/-- A line read by a requester's own command, with what the stack returns (R370): 0 clean, 1 corrected, 2 a third parity
error, 3 uncorrectable. Answers its bytes and its status. -/
def State.readOut (s : State) (port a out : Nat) : List Byte × Nat × State :=
  let r := s.getLine port a
  if r.2.1 ≠ 0 then r
  else if out = 0 then r
  else if out = 1 then (r.1, 0, r.2.2.eccCorrected)
  else ((List.range 64).map (Config.lostByte s.freeCtr), 2,
    { r.2.2.linePoison port a false (if out = 2 then 1 else 0) with freeCtr := s.freeCtr + 1 })

/-- MEM_READ_RETURN (R370): the oldest read in flight returns; a parity error reissues it up to two times. -/
def execMemReadReturn (e : Fin 64) (out : Fin 4) (s : State) : Host.Outcome State Fault Refusal := s.awake <|
  if (s.hchan (chanOfEngine e)).fenced then .next s
  else match (s.engine e).fly with
  | [] => .next s
  | l :: r =>
    let pop := s.modEngine e (fun x => { x with fly := r })
    match out with
    | 0 => .next (pop.lineDone l 0 l.data)
    | 1 => .next (pop.eccCorrected.lineDone l 0 l.data)
    | 2 =>
      if l.tries < 2 then .next (s.modEngine e (fun x => { x with fly := { l with tries := l.tries + 1 } :: r }))
      else .next ((pop.linePoison l.port l.dpa false 1).lineDone l 2 [])
    | 3 => .next ((pop.linePoison l.port l.dpa false 0).lineDone l 2 [])

/-! ### Replay and fences (15 R366 to R369) -/

/-- Every line of an engine's queues completes POISON (R368). -/
def State.poisonQueues (s : State) (e : Nat) : State :=
  let x := s.engine e
  let s := (x.rq ++ x.fly ++ x.wq).foldl (fun s l => (s.linePoison l.port l.dpa l.write 3).lineDone l 2 []) s
  s.modEngine e (fun x => { x with rq := [], wq := [], fly := [], unacked := [], rows := [] })

/-- MEM_FENCE (R368): the channel is fenced, its lines complete POISON and its contents become undefined. -/
def State.fence (s : State) (c : Nat) : State :=
  let path := pathHc (c / 16) (c % 16)
  let s := s.holdEnd c (fun h => { h with attempt := 0, failed := false, fenced := true, rateHold := false, unfencing := false, sr := 0, mortar := [] })
  let s := [2 * c, 2 * c + 1].foldl (fun s e => (s.poisonQueues e).loseEngine e) s
  (s.cairnRecord 0x105 0 path).raise 148

/-- MEM_AERR (R366, R367): the first AERR starts a replay, and one for a command of an attempt fails that attempt. -/
def execMemAerr (c : Fin 32) (s : State) : Host.Outcome State Fault Refusal := s.awake <|
  let h := s.hchan c
  if h.fenced && !h.unfencing || decide (s.nStacks ≤ c.val / 16) then .next s
  else
    let s := s.bump R.memAerrCount
    if h.attempt = 0 then
      let s := s.holdFrom c (fun h => { h with attempt := 1, failed := false })
      .next ((s.bump R.memReplayCount).raise 145)
    else .next (s.modHchan c (fun h => { h with failed := true }))

/-- MEM_REPLAY_ATTEMPT_END (R366, R367, R390): an attempt of `dur` CK_MEM, at most 500, ends: traffic resumes, a second
attempt starts, or the channel is fenced. A re-initialisation or a sweep's step that met the replay restarts; the commands that it reissued
are acknowledged anew. -/
def execMemReplayAttemptEnd (c : Fin 32) (dur : BitVec 9) (s : State) : Host.Outcome State Fault Refusal := s.awake <|
  let h := s.hchan c
  if h.attempt = 0 ∨ s.nStacks ≤ c.val / 16 then .next s
  else
    let ck := s.ckMem (c / 16)
    let s := s.advance (s.now + min 500 dur.toNat * ck)
    if h.failed = false then
      let s := { s with mem := { s.mem with holds := (c.val, true, h.heldFrom, s.now) :: s.mem.holds } }
      let s := if h.sweepHold then { s with mem := { s.mem with sweep := s.mem.sweep.map (fun w => { w with at_ := s.now }) } } else s
      let ack := s.ackTime (c / 16)
      .next (s.holdEnd c (fun h => { h with
        attempt := 0, unfenceBy := if h.unfencing then s.now + 2000 * ck else h.unfenceBy
        mortar := (h.mortar.filter (fun x => decide (h.heldFrom < x + ack))).map (fun _ => s.now) }))
    else if h.attempt = 1 then .next ((s.modHchan c (fun h => { h with attempt := 2, failed := false })).bump R.memReplayCount)
    else
      let s := { s with mem := { s.mem with holds := (c.val, true, h.heldFrom, s.now) :: s.mem.holds } }
      .next (s.fence c)

/-- A re-initialisation starts at the boundary now (R368). -/
def State.unfenceStart (s : State) (c : Nat) : State :=
  if (s.hchan c).fenced then
    s.holdFrom c (fun h => { h with unfencing := true, unfenceBy := s.now + 2000 * s.ckMem (c / 16) })
  else s

/-- MEM_UNFENCE_DONE (R368, R390): the parity check ends, after a rate change or replay that met it; the channel serves
again with its contents undefined, or stays fenced. -/
def execMemUnfenceDone (c : Fin 32) (ok : Bool) (s : State) : Host.Outcome State Fault Refusal := s.awake <|
  let h := s.hchan c
  if h.unfencing ∧ h.attempt = 0 ∧ h.rateHold = false ∧ (s.stack (c / 16)).rateBy = none ∧ s.rateWaits (c / 16) = false then
    let s := s.advance h.unfenceBy
    if ok then .next (s.holdEnd c (fun h => { h with unfencing := false, fenced := false }))
    else .next ((s.holdEnd c (fun h => { h with unfencing := false })).raise 148)
  else .next s

/-- MEM_DERR (R369): the stack reports write data parity for a write not yet acknowledged; after two reissues that also met
it, the write completes POISON and the line's content is undefined. -/
def execMemDerr (e : Fin 64) (i : Fin 32) (s : State) : Host.Outcome State Fault Refusal := s.awake <|
  match (s.engine e).unacked[i.val]? with
  | none => .next s
  | some l =>
    let s := (s.bump R.memDerrCount).raise 146
    if l.tries < 2 then .next (s.modEngine e (fun x => { x with unacked := modAt x.unacked i (fun l => { l with tries := l.tries + 1 }) }))
    else
      let s := s.modEngine e (fun x => { x with unacked := x.unacked.eraseIdx i })
      let loc := (s.place l.dpa).loc
      let s := (List.range 64).foldl (fun s j => s.setLoc (loc + j) (Config.lostByte s.freeCtr (loc + j))) s
      let s := { s with freeCtr := s.freeCtr + 1 }
      .next ((s.linePoison l.port l.dpa true 2).lineDone l 2 [])

/-! ### Row disturbance, refresh, self-refresh (15 R375 to R381) -/

/-- MEM_ROW_DISTURB (R375): a row with at least T - 256 activates in this window is detected. -/
def execMemRowDisturb (e : Fin 64) (sid : Fin 3) (bank : Fin 16) (row : BitVec 14) (s : State) : Host.Outcome State Fault Refusal := s.awake <|
  let key := sid.val * 16 + bank.val
  let a := Assoc.get (0, 0) (s.engine e).acts (key * 16384 + row.toNat)
  if bit (s.reg R.memRdCtrl) 0 ∧ a.1 ≠ 0 ∧ s.rdThr ≤ a.1 + 256 then .next (s.rowDetect e key row.toNat a.2) else .next s

/-- MEM_RD_PENALTY_END (R377): the penalty ends; under hot throttling the port stays throttled (R390). -/
def execMemRdPenaltyEnd (p : Fin 19) (s : State) : Host.Outcome State Fault Refusal := s.awake <|
  match (s.mport p).penalty with
  | some t =>
    let s := s.advance t
    .next ((s.bucketTo p s.now).modMport p (fun x => { x with penalty := none }))
  | none => .next s

/-- MEM_RD_WINDOW (R375): a window of 32 ms over the multiplier ends, and every count restarts. -/
def execMemRdWindow (st : Fin 2) (s : State) : Host.Outcome State Fault Refusal := s.awake <|
  let x := s.stack st
  let s := s.advance (x.winStart + 2560000000 / 2 ^ x.mult)
  let s := (List.range 32).foldl (fun s i => s.modEngine (st * 32 + i) (fun x => { x with acts := [] })) s
  .next (s.modStack st (fun x => { x with winStart := s.now }))

/-- The multiplier that a reading asks for (R379), as a power of two. -/
def multFor (t : Int) : Nat := if t > 120 then 3 else if t > 105 then 2 else if t > 85 then 1 else 0

/-- The multiplier after a reading (R379): a rise applies at once, a fall only 3 °C below the threshold left. -/
def multNext (old minM : Nat) (t : Int) : Nat := max minM (max (multFor t) (min old (multFor (t + 3))))

/-- A stack's multiplier changes (R379): ports other than the acquisition writers are throttled while a stack is at x8. A channel in
replay or in a rate change takes it when it is no longer held (R390). -/
def State.setMult (s : State) (st m : Nat) : State :=
  if (s.stack st).mult = m then s
  else
    let s := s.bucketsTo s.now
    let s := s.modStack st (fun x => { x with mult := m })
    let s := (List.range 16).foldl (fun s c => s.modHchan (st * 16 + c) (fun h => if h.attempt ≠ 0 || h.rateHold then h else { h with mult := m })) s
    let s := { s with mem := { s.mem with hot := s.mem.stackCtl.toList.any (fun x => decide (x.mult = 3)) } }
    s.raise 151

/-- A temperature reading of a stack short of the forced RETAIN (R379): `temp` is in °C + 64. -/
def State.tempReading (s : State) (st temp : Nat) : State :=
  let t : Int := (temp : Int) - 64
  let s := s.modStack st (fun x => { x with temp := temp, lastRead := some s.now })
  let s := s.setMult st (multNext (s.stack st).mult (s.rf R.memRefCtrl 1 2) t)
  if 125 ≤ t then s.raise 152 else s

/-- MEM_REFRESH_DUE (R350, R380): a refresh goes ahead of requests and closes the rows of its bank, or of every bank; the idle timer
stands still in its CK_MEM (R381). -/
def execMemRefreshDue (e : Fin 64) (bank : Fin 16) (s : State) : Host.Outcome State Fault Refusal := s.awake <|
  let h := s.hchan (chanOfEngine e)
  if h.held || h.fenced || h.sr != 0 then .next s
  else
    let ck := s.ckOf e
    let t := alignUp (s.mortarFree (chanOfEngine e) (max s.now (s.engine e).readyC)) ck
    let pb := bit (s.reg R.memRefCtrl) 0
    let s := (s.advance t).modHchan (chanOfEngine e) (fun h => { h.issued t with idleSince := h.idleSince + ck })
    .next (s.modEngine e (fun x => { x with readyC := t + ck, rows := if pb then x.rows.filter (fun r => r.1 % 16 ≠ bank.val) else [] }))

/-- Idle time that sends a channel into self-refresh, in ticks (R381, `MEM_SR_CTRL`). -/
def State.srIdle (s : State) : Nat := max 1 (min 1000000 (s.rf R.memSrCtrl 1 20)) * 80000

/-- MEM_SR_ENTRY (R381): a channel whose queues have been empty for the idle time enters self-refresh. -/
def execMemSrEntry (c : Fin 32) (s : State) : Host.Outcome State Fault Refusal := s.awake <|
  let h := s.hchan c
  let idle := [2 * c.val, 2 * c.val + 1].all (fun e => let x := s.engine e; x.rq.isEmpty && x.wq.isEmpty && x.fly.isEmpty)
  if bit (s.reg R.memSrCtrl) 0 && idle && !h.held && !h.fenced && h.sr == 0 && decide (c.val / 16 < s.nStacks) then
    let s := s.advance (h.idleSince + s.srIdle)
    let s := [2 * c.val, 2 * c.val + 1].foldl (fun s e => s.modEngine e (fun x => { x with rows := [] })) s
    .next (s.modHchan c (fun h => { h with sr := 1 }))
  else .next s

/-- MEM_SR_EXIT_DONE (R381): `dt` ticks, at most 450 ns, after the acceptance that woke it, the channel serves again. -/
def execMemSrExitDone (c : Fin 32) (dt : BitVec 16) (s : State) : Host.Outcome State Fault Refusal := s.awake <|
  let h := s.hchan c
  if h.sr = 2 then
    let s := s.advance (h.srWake + min 36000 dt.toNat)
    .next (s.modHchan c (fun h => { h with sr := 0, idleSince := s.now }))
  else .next s

/-! ### Boundaries -/

/-- What a commit at elapsed boundary b does to the memory subsystem (R348, R358, R362, R368, R379, R386): `masks` are the
words staged to the masks, `unfence` the word staged to `MEM_UNFENCE`, `paid` the units handed over for each stack. -/
def State.memCommit (old s : State) (masks : List (W32 × W32)) (unfence : W32) (paid : Nat → Nat × Nat) : State :=
  let s := (List.range 19).foldl (fun s p =>
    let s := s.modMport p (fun x => { x with v := min x.v (s.bucketCap p) })
    if old.unregulated p && !s.unregulated p then s.bucketFill p else s) s
  let minM := s.rf R.memRefCtrl 1 2
  let s := (List.range s.nStacks).foldl (fun s st => s.setMult st (max minM (s.stack st).mult)) s
  let s := (List.range 2).foldl (fun s st => s.modStack st (fun x => { x with paid := (x.paid.1 + (paid st).1, x.paid.2 + (paid st).2) })) s
  let drain := s.mem.pendMasks.isSome || decide (masks.map (·.1) ≠ s.mem.good)
  let s := if drain then { s with mem := { s.mem with pendMasks := some masks } }
    else { s with mem := { s.mem with masks := masks, good := masks.map (·.1) } }
  let s := (List.range s.nStacks).foldl State.rateGo s
  (List.range 32).foldl (fun s c => if bit unfence c then s.unfenceStart c else s) s

end Sys2Proof.Machine
end

