-- ==== Sys2Proof/Machine/Events.lean ====
section
/-! DEFINITION. MSI-X messages and the event queue (22_events.md R544 to R546; 16 R395): how a vector's message leaves, or
its pending bit is set, and the fabric's own timed work. -/

namespace Sys2Proof.Machine

/-- A function by number. -/
def State.pfn (s : State) (f : Nat) : PcieFn := Assoc.get PcieFn.reset s.link.fns f

/-- The state with a function changed. -/
def State.modFn (s : State) (f : Nat) (g : PcieFn → PcieFn) : State :=
  { s with link := { s.link with fns := Assoc.put PcieFn.reset s.link.fns f (g (s.pfn f)) } }

/-- A function may issue requests (R400, R545): Bus Master Enable is 1 and it is not in D3hot. -/
def State.busMaster (s : State) (f : Nat) : Bool := (s.pfn f).bme && !(s.pfn f).d3

/-- Word i of an MSI-X table entry; at reset its mask bit is 1. -/
def State.msixWord (s : State) (f v i : Nat) : W32 := Assoc.get (if i = 3 then 1 else 0) s.link.msix (f * 8192 + v * 4 + i)

/-- The message of a vector is sent, or its pending bit is set while it is masked (R412, R545). -/
def State.msixMessage (s : State) (f v : Nat) : State :=
  if ¬ (s.pfn f).msixEn then s
  else if (s.pfn f).msixMask || bit (s.msixWord f v 3) 0 then
    let k := f * 2048 + v
    if s.link.pba.contains k then s else { s with link := { s.link with pba := k :: s.link.pba } }
  else
    let s := s.hostWrite (join (s.msixWord f v 0) (s.msixWord f v 1)) (leBytes 4 (s.msixWord f v 2).toNat)
    { s with evt := { s.evt with sent := (f, v) :: s.evt.sent } }

/-- A host write of word i of an MSI-X table entry; a vector that is unmasked with its pending bit set sends its message, as
the standard gives. -/
def State.msixWrite (s : State) (f v i : Nat) (w : W32) : State :=
  let w := if i = 3 then w &&& 1 else w
  let s := { s with link := { s.link with msix := Assoc.put (if i = 3 then 1 else 0) s.link.msix (f * 8192 + v * 4 + i) w } }
  let k := f * 2048 + v
  if s.link.pba.contains k ∧ (s.pfn f).msixEn ∧ ¬ (s.pfn f).msixMask ∧ ¬ bit (s.msixWord f v 3) 0 then
    ({ s with link := { s.link with pba := s.link.pba.erase k } }).msixMessage f v
  else s

/-- Vectors whose overflow bits are set are queued in ascending order while there is room (R545). -/
def State.evtRefill (s : State) : State :=
  (List.range 2048).foldl (fun s v =>
    let a := R.evtOvfVec (v / 32)
    if bit (s.reg a) (v % 32) ∧ s.evt.queue.length < 256 then
      let s := s.setReg a (s.reg a &&& ~~~ (BitVec.ofNat 32 (2 ^ (v % 32))))
      { s with evt := { s.evt with queue := s.evt.queue ++ [v] } }
    else s) s

/-- EVT_MSIX_SEND (R545, R546): at the first boundary after it has reached the head, the head of the event queue leaves, while the link is in L0 and the PF
may send. -/
def execEvtMsixSend (s : State) : Host.Outcome State Fault Refusal := s.clocked <|
  match s.evt.queue with
  | [] => .next s
  | v :: r =>
    if (s.pfn 0).msixEn ∧ s.busMaster 0 ∧ s.link.up ∧ ¬ s.link.l1 then
      let b := max s.boundary (s.evt.headAt + 128)
      let s := s.advance b
      .next ((({ s with evt := { s.evt with queue := r, headAt := b } }).evtRefill).msixMessage 0 v)
    else .next s

/-- EVT_COAL_TIMEOUT (R544): the time limit of a source with occurrences counted passes, and a request is made. -/
def execEvtCoalTimeout (src : Fin 256) (s : State) : Host.Outcome State Fault Refusal := s.clocked <|
  let k := Assoc.get ⟨0, 0⟩ s.evt.coal src.val
  let w := s.reg (R.evtMsixRoute src)
  let t := fld w 20 12
  if k.c ≠ 0 ∧ t ≠ 0 ∧ ¬ s.evtOff src then
    let s := s.advance (alignUp (k.t1 + t * 8192) 128)
    .next (({ s with evt := { s.evt with coal := Assoc.put ⟨0, 0⟩ s.evt.coal src.val ⟨0, 0⟩ } }).evtRequest (fld w 0 11) s.boundary)
  else .next s

/-- The host writes a word of `EVT_MASK` (R543, R544): a masked source's count is 0, and a source unmasked with its status
bit 1 makes a request at the next boundary. -/
def State.maskWrite (s : State) (k : Nat) (w : W32) : State :=
  let old := s.reg (R.evtMask k)
  let st := s.reg (R.evtStatus k)
  let s := s.setReg (R.evtMask k) w
  let b := boundaryAfter s.now
  (List.range 32).foldl (fun s i =>
    let src := k * 32 + i
    if bit w i then { s with evt := { s.evt with coal := Assoc.put ⟨0, 0⟩ s.evt.coal src ⟨0, 0⟩ } }
    else if bit old i ∧ bit st i ∧ bit (s.reg (R.evtMsixRoute src)) 11 then
      s.evtRequest (fld (s.reg (R.evtMsixRoute src)) 0 11) b
    else s) s

/-- The host writes a source's MSI-X route (R544, R552): a disabled source's count is 0; the next boundary judges a count kept against the
new limits. -/
def State.routeWrite (s : State) (src : Nat) (w : W32) : State :=
  let s := s.setReg (R.evtMsixRoute src) w
  let k := Assoc.get ⟨0, 0⟩ s.evt.coal src
  let b := s.boundary
  let none_ : State := { s with evt := { s.evt with coal := Assoc.put ⟨0, 0⟩ s.evt.coal src ⟨0, 0⟩ } }
  if s.evtOff src then none_
  else if k.c ≠ 0 ∧ (max 1 (fld w 12 8) ≤ k.c ∨ (fld w 20 12 ≠ 0 ∧ k.t1 + fld w 20 12 * 8192 ≤ b)) then none_.evtRequest (fld w 0 11) b
  else s

/-- EVT_MASK_WRITE (R543, R544). -/
def execEvtMaskWrite (k : Fin 8) (w : W32) (s : State) : Host.Outcome State Fault Refusal := s.clocked <| .next (s.maskWrite k w)

/-- A source is wake-pending (R551): its status bit is 1, its mask bit 0 and its MSI-X route enabled. -/
def State.wakePending (s : State) : Bool :=
  (List.range 256).any (fun src => bit (s.reg (R.evtStatus (src / 32))) (src % 32) && !bit (s.reg (R.evtMask (src / 32))) (src % 32) &&
    bit (s.reg (R.evtMsixRoute src)) 11)

/-- WAKE_N is driven low (21 R524): a source is wake-pending while the link is in L1 or down. -/
def State.wakeLow (s : State) : Bool := (s.link.l1 || !s.link.up) && s.wakePending

/-- WAKE (21 R524): WAKE_N follows the wake-pending condition. -/
def execWake (s : State) : Host.Outcome State Fault Refusal := s.clocked <|
  .next { s with evt := { s.evt with wakeN := s.wakeLow } }

/-- ASPM_L1 (21 R524, 22 R551): the link enters or leaves L1; queued vectors leave in L0. -/
def execAspmL1 (enter : Bool) (s : State) : Host.Outcome State Fault Refusal := s.clocked <|
  if s.link.up then
    let s := { s with link := { s.link with l1 := enter } }
    .next { s with evt := { s.evt with wakeN := s.wakeLow } }
  else .next s

/-- What PERST#, a hot reset, link loss and a PF FLR clear in the fabric (R553). -/
def State.evtHostReset (s : State) : State :=
  let s := s.resetRegs (fun a => decide (0x100010000 ≤ a) && (decide (a < 0x100010040) ||
    (decide (0x100010110 ≤ a) && decide (a < 0x100010128)) || (decide (0x100011000 ≤ a) && decide (a < 0x100011400)) ||
    (decide (0x100013000 ≤ a) && decide (a < 0x100013100)) || a == R.evtQueueOvf))
  { s with evt := { s.evt with coal := [], queue := [] } }

end Sys2Proof.Machine
end

