-- ==== Sys2Proof/Machine/Tap.lean ====
section
/-! DEFINITION. Readout taps (16_host_link.md R401 to R418): contexts, sources, records, the destination ring in host memory,
interrupts, ownership and teardown. The order in which taps are served is the order of the commands; deficits account
for it (R413, log entry 1). -/

namespace Sys2Proof.Machine

/-! ### Parts -/

/-- A tap by number. -/
def State.tapOf (s : State) (t : Nat) : Tap := Assoc.get Tap.reset s.tap.taps t

/-- The state with a tap replaced. -/
def State.setTap (s : State) (t : Nat) (x : Tap) : State := { s with tap := { s.tap with taps := Assoc.put Tap.reset s.tap.taps t x } }

/-- The state with a tap changed. -/
def State.modTap (s : State) (t : Nat) (f : Tap → Tap) : State := s.setTap t (f (s.tapOf t))

/-- The owner of a tap (R415). -/
def State.tapOwner (s : State) (t : Nat) : Nat := Assoc.get 0 s.tap.owner t

/-- Word i of a tap's context. -/
def Tap.w (x : Tap) (i : Nat) : W32 := x.ctx.getD i 0

/-- Context fields (`TAP_CTX_DATA`). -/
def Tap.kind (x : Tap) : Nat := fld (x.w 0) 0 3
/-- The source number. -/
def Tap.src (x : Tap) : Nat := fld (x.w 0) 4 4
/-- Ring exponent k. -/
def Tap.ringExp (x : Tap) : Nat := fld (x.w 0) 17 5
/-- Fragment exponent f. -/
def Tap.fragExp (x : Tap) : Nat := fld (x.w 0) 22 5
/-- A 64-bit context value. -/
def Tap.w64 (x : Tap) (i : Nat) : Nat := join (x.w i) (x.w (i + 1))

/-- A tap works: it is RUNNING, or DRAINING, and its function may issue requests, outside RETAIN (R400, R418). -/
def State.tapWorks (s : State) (t : Nat) : Bool :=
  let x := s.tapOf t
  (x.state == 1 || (x.state == 2 && !x.abort)) && s.busMaster (s.tapOwner t) && s.mode.mode != 0 && s.link.up

/-- `TAP_STATUSt.state` as read: a RUNNING tap whose function may not issue reads PAUSED. -/
def State.tapState (s : State) (t : Nat) : Nat :=
  let x := s.tapOf t
  if x.state = 1 ∧ (¬ s.busMaster (s.tapOwner t) ∨ s.mode.mode = 0) then 3 else x.state

/-! ### Bandwidth (R414) -/

/-- R_T in 1/64 GB/s (R414). -/
def State.tapRate (s : State) : Nat :=
  let sum := (s.tap.taps.filter (fun e => s.tapState e.1 == 1)).foldl (fun n e =>
    let r := min 16384 (fld (e.2.w 12) 0 15)
    n + (if r = 0 then 121 * 64 else 5 * r)) 0
  let cap := if s.unregulated 10 then 121 * 64 else 5 * min 16384 (s.rf (R.memReg 10) 0 15)
  let r := min sum cap
  if s.mode.mode = 3 then min r (max 1 (s.rf R.modeCtrl 0 8) * 64) else r

/-- The scheduler's BANDWIDTH entry follows R_T (R414): a rise beyond what is covered asks for an entry, a fall returns
units. -/
def State.tapBandwidth (s : State) : State :=
  let r := s.tapRate
  if s.tap.covered < r then
    let was := s.tap.wait
    let s := if s.tap.wait ∧ s.tap.asked = r then s
      else ({ s with tap := { s.tap with wait := true, asked := r } }).askPermit 19 9 (s.bandwidthUnits r) none
    if was then s else s.raise 167
  else
    let s := if s.tap.wait then s.dropPermit 19 9 else s
    let cov := max 2048 (min s.tap.covered r)
    ({ s with tap := { s.tap with wait := false, covered := cov } }).bandwidthFall 19 (s.bandwidthUnits cov)

/-- The rate to which all taps together are limited, in 1/64 GB/s (R414): the covered rate until the grant, and the ceiling of BURST. -/
def State.tapLimit (s : State) : Option Nat :=
  let burst := max 1 (s.rf R.modeCtrl 0 8) * 64
  if s.tap.wait then some (if s.mode.mode = 3 then min s.tap.covered burst else s.tap.covered)
  else if s.mode.mode = 3 then some burst
  else none

/-- The next line read of the taps waits for its turn at the rate that limits them all: 64 bytes at c/64 GB/s take 327,680 / c ticks. -/
def State.tapTurn (s : State) : State :=
  match s.tapLimit with
  | none => s
  | some c =>
    let s := s.advance s.tap.lineAt
    { s with tap := { s.tap with lineAt := s.now + ceilDiv 327680 c } }

/-- One line that a tap reads: zero bytes for POISON (R411), with its status, through the TAP port (R401). -/
def State.tapLine (s : State) (a out : Nat) : List Byte × Nat × State :=
  let r := s.readOut 10 a out
  (if r.2.1 = 2 then List.replicate 64 0 else r.1, r.2.1, r.2.2)

/-! ### Records in the host's ring (R402 to R405, R412) -/

/-- The bytes that a record of `payload` takes, and the PAD before it (R402). -/
def Tap.needs (x : Tap) (payload : Nat) : Nat × Nat :=
  let size := 2 ^ x.ringExp
  let toEnd := size - x.p % size
  let rec_ := 64 + payload
  (rec_, if toEnd < rec_ then toEnd else 0)

/-- The ring has room for a record of `payload` bytes (R402). -/
def Tap.room (x : Tap) (payload : Nat) : Bool :=
  let n := x.needs payload
  decide (n.1 + n.2 ≤ 2 ^ x.ringExp - (x.p - x.c) % 2 ^ 32)

/-- A record's header (R405). -/
def recHeader (t typ : Nat) (last poison addrErr overrun : Bool) (payload seq : Nat) (words : List W32) : List W32 :=
  [pack [(0, typ), (8, b2n last), (9, b2n poison), (10, b2n addrErr), (11, b2n overrun), (16, t)], loW payload, loW seq, hiW seq] ++ words

/-- Deficits of a tap and its function pay for bytes written to the host (R413): visits add quanta while they are short. -/
def State.payDeficit (s : State) (t n : Nat) : State :=
  let f := s.tapOwner t
  let pay := fun (d q : Nat) => d + ceilDiv (n - d) q * q - n
  let s := s.modTap t (fun x => { x with deficit := pay x.deficit (max 1 (fld (x.w 0) 9 8) * 4096) })
  let d := Assoc.get 0 s.tap.fnDeficit f
  let q := max 1 (s.rf (R.tapFnWeight f) 0 8) * 4096
  { s with tap := { s.tap with fnDeficit := Assoc.put 0 s.tap.fnDeficit f (pay d q) } }

/-- One record, with a PAD record before it where it would wrap, is written to the ring and P is written back (R402, R403);
the count of records for the interrupt rises (R412). `last` of a record that is no part of an item is stated nowhere: a
free value (log entry 7). -/
def State.putRecord (s : State) (t typ : Nat) (last : Option Bool) (poison addrErr overrun : Bool) (words : List W32) (payload : List Byte) : State :=
  let x := s.tapOf t
  let size := 2 ^ x.ringExp
  let base := x.w64 2
  let n := x.needs payload.length
  let hdr := fun (ws : List W32) => ws.flatMap (fun w => leBytes 4 w.toNat)
  let (f, s) := s.free
  let s := if n.2 = 0 then s
    else s.hostWrite (base + x.p % size) (hdr (recHeader t 0x0F (f.getLsbD 0) false false false (n.2 - 64) x.seq (List.replicate 12 0)))
  let seq := if n.2 = 0 then x.seq else x.seq + 1
  let p := x.p + n.2
  let l := last.getD (f.getLsbD 1)
  let s := s.hostWrite (base + p % size) (hdr (recHeader t typ l poison addrErr overrun payload.length seq words) ++ payload)
  let p := p + n.1
  let s := s.hostWrite (x.w64 4) (leBytes 8 p)
  let s := s.modTap t (fun x => { x with p := p, seq := (seq + 1) % 2 ^ 64, recs := x.recs + 1, recAt := if x.recs = 0 then s.now else x.recAt })
  let s := s.payDeficit t (64 + payload.length)
  let x := s.tapOf t
  if bit (x.w 0) 8 ∧ max 1 (fld (x.w 13) 11 8) ≤ x.recs then
    (s.modTap t (fun x => { x with recs := 0 })).msixMessage (s.tapOwner t) (fld (x.w 13) 0 11)
  else s

/-- TAP_IRQ_TIME (R412): `irq_time` has passed since the first record not yet notified. -/
def execTapIrqTime (t : BitVec 12) (s : State) : Host.Outcome State Fault Refusal := s.awake <|
  let x := s.tapOf t.toNat
  let k := fld (x.w 13) 19 13
  if bit (x.w 0) 8 ∧ k ≠ 0 ∧ x.recs ≠ 0 then
    let s := s.advance (x.recAt + k * 8192)
    .next ((s.modTap t.toNat (fun x => { x with recs := 0 })).msixMessage (s.tapOwner t.toNat) (fld (x.w 13) 0 11))
  else .next s

/-! ### Items -/

/-- Spans of `len` bytes of a ring from count `a`, the last marked when a part ends there. -/
def ringSpans (base size a len : Nat) (ends : Bool) : List (Nat × Nat × Bool) :=
  if size = 0 ∨ len = 0 then []
  else
    let off := a % size
    if off + len ≤ size then [(base + off, len, ends)]
    else [(base + off, size - off, false), (base, len - (size - off), ends)]

/-- A record without payload waits to be written: SEGMENT_LOST or SKIP (R405). -/
def noticeItem (typ : Nat) (words : List W32) (next now : Nat) : TapItem :=
  { spans := [], buf := [], off := 0, total := 0, typ := typ, words := words, poison := false, addrErr := false, spill := (false, false),
    holds := false, next := next, since := now }

/-- Words 4 to 15 of a SEGMENT_LOST record. -/
def lostWords (seq p reason : Nat) : List W32 := [loW seq, hiW seq, loW p, loW reason] ++ List.replicate 8 0

/-- Words 4 to 15 of a SKIP record (R409). -/
def skipWords (a b kind : Nat) : List W32 := [loW a, hiW a, loW b, hiW b, loW kind] ++ List.replicate 7 0

/-- The pin of a tap on an entry is dropped, and its hold on a slot. -/
def State.tapDrop (s : State) (t : Nat) : State :=
  let s := { s with record := { s.record with tapPins := s.record.tapPins.filter (fun x => x.1 ≠ t) } }
  let x := s.tapOf t
  if x.kind = 2 then s.churnUnhold x.src t else s

/-- The tap holds a pin or a hold (`TAP_STATUSt.pin`). -/
def State.tapPin (s : State) (t : Nat) : Bool :=
  s.record.tapPins.any (fun x => x.1 == t) || ((s.tapOf t).kind == 2 && (s.tapOf t).item.any (·.holds))

/-- TAP_SEGMENT_TAKE (R407): a SEGMENTS tap takes entry s once it is sealed: the checks, the filters, the pin, the item. -/
def execTapSegmentTake (tb : BitVec 12) (s : State) : Host.Outcome State Fault Refusal := s.awake <|
  let t := tb.toNat
  let x := s.tapOf t
  let p := x.src
  if x.kind ≠ 0 ∨ x.state ≠ 1 ∨ ¬ s.tapWorks t ∨ x.item.isSome then .next s
  else if x.skip.isSome then
    .next (s.modTap t (fun x => { x with item := some (noticeItem 4 (skipWords (x.skip.getD 0) 0 0) 0 s.now), skip := none }))
  else if s.reg64 (R.dirSealed p) ≤ x.pos then .next s
  else
    let s := s.advance s.boundary
    let seq := x.pos
    let rd := s.tapTurn.tapLine (s.slotAddr p seq) 0
    let s := rd.2.2
    let bs := rd.1
    let e := wordsOf bs
    let w := fun i => e.getD i 0
    let sl := w 14
    let lost := fun (r : Nat) (s : State) =>
      s.modTap t (fun x => { x with item := some (noticeItem 2 (lostWords seq p r) (seq + 1) s.now) })
    let twins := twinOk (e.take 6) && twinOk ((e.drop 6).take 4) && twinOk (e.drop 14)
    if w 15 == ~~~ sl ∧ fld sl 4 28 ≠ seq % 2 ^ 28 then .next (lost 5 s)
    else if w 15 == ~~~ sl ∧ fld sl 0 4 = 10 then .next (lost 1 s)
    else if ¬ twins then .next (lost 2 (s.twinMismatch (pathBlk 3)))
    else
      let isFrame := bit (w 12) 2
      let rings := fld (w 12) 24 8 &&& fld (x.w 1) 0 8
      let frame := (w 13).toNat
      let out := ¬ bit (x.w 1) (if isFrame then 9 else 8) ∨ rings = 0 ∨
        (bit (x.w 1) 10 ∧ (frame < (x.w 10).toNat ∨ (x.w 11).toNat < frame))
      let goOn := fun (s : State) =>
        s.modTap t (fun x => { x with pos := seq + 1, state := if x.w64 8 = seq then 0 else x.state })
      if out then
        .next ((goOn (s.modTap t (fun x => { x with ctx := modAt x.ctx 15 (fun w => setFld w 0 24 (min (fld w 0 24 + 1) 0xFFFFFF)) }))).tapBandwidth)
      else match (s.dir p).segs.find? (fun g => g.seq == seq) with
        | none => .next (lost 3 s)
        | some g =>
          if g.lost || !s.windowIntact g then .next (lost 3 s)
          else
            let fmt := (List.range 8).find? (fun n => rings.testBit n)
            let n0 := fmt.getD 0
            let cb := chunkBytes (s.ringFormat n0)
            let q := chunkOutputs (s.ringFormat n0)
            let outs := (w 10).toNat + (w 11).toNat
            let chunks := ceilDiv outs q
            let data := alignUp (chunks * cb) 64
            let flags := alignUp chunks 64
            let spans := (bitsOf 8 rings).flatMap (fun n =>
              ringSpans (s.ringBase n) (s.ringSize n) g.aS (chunks * cb) true ++
              ringSpans (s.flagBase n) (s.flagSize n) (g.aS / cb) chunks true)
            let total := 64 + (bitsOf 8 rings).length * (data + flags)
            let words := [loW seq, hiW seq, pack [(0, p), (8, rings)], loW outs, 0, 0, loW total, hiW total, loW data, loW flags, 0, 0]
            let s := { s with record := { s.record with tapPins := (t, p, seq) :: s.record.tapPins } }
            let i : TapItem :=
              { spans := spans, buf := bs, off := 0, total := total, typ := 1, words := words, poison := false, addrErr := false,
                spill := (false, false), holds := true, next := seq + 1, since := s.now }
            .next (s.modTap t (fun x => { x with item := some i }))

/-- TAP_CHURN_TAKE (R410): a CHURN tap holds a newly published slot and reads the parts it names; a slot whose seal fails is
skipped. -/
def execTapChurnTake (tb : BitVec 12) (s : State) : Host.Outcome State Fault Refusal := s.awake <|
  let t := tb.toNat
  let x := s.tapOf t
  let n := x.src
  let seq := (s.reg (R.churnSnapSeq n)).toNat
  if x.kind ≠ 2 ∨ x.state ≠ 1 ∨ ¬ s.tapWorks t ∨ x.item.isSome then .next s
  else match (s.ch n).published with
    | none => .next s
    | some slot =>
      if seq = x.pos then .next s
      else
        let s := s.advance s.boundary
        let base := s.pageBase n + slot * 2 ^ 24
        let rd := s.tapTurn.tapLine base 0
        let s := rd.2.2
        let sl := (wordsOf rd.1).drop 14
        let ok := sl.getD 1 0 == ~~~ (sl.getD 0 0) && fld (sl.getD 0 0) 0 4 == 5 && fld (sl.getD 0 0) 4 28 == seq % 2 ^ 28
        if ¬ ok then .next (s.modTap t (fun x => { x with pos := seq }))
        else
          let parts := fld (x.w 1) 11 5
          let all : List (Nat × Nat) := [(0, 64), (0x1000, 0x4000), (0x5000, 0x2000), (0x100000, 0x400000), (0x500000, 0x800000)]
          let spans := (all.zipIdx.filter (fun e => parts.testBit e.2)).map (fun e => (base + e.1.1, e.1.2, true))
          let total := spans.foldl (fun m e => m + e.2.1) 0
          if spans = [] then .next (s.modTap t (fun x => { x with pos := seq }))
          else
            let words := [loW n, loW seq, loW parts, 0, 0, 0, loW total, hiW total, 0, 0, 0, 0]
            let s := s.churnHold n slot t
            let i : TapItem :=
              { spans := spans, buf := [], off := 0, total := total, typ := 5, words := words, poison := false, addrErr := false,
                spill := (false, false), holds := true, next := seq, since := s.now }
            .next (s.modTap t (fun x => { x with item := some i }))

/-- The source of a STREAM, TIMER or SENSOR tap: base, size, unit bytes, write count. -/
def State.tapSource (s : State) (x : Tap) : Nat × Nat × Nat × Nat :=
  if x.kind = 1 then (s.ringBase x.src, s.ringSize x.src, chunkBytes (s.ringFormat x.src), s.reg64 (R.recWrCount x.src))
  else if x.kind = 3 then (s.reg64 R.tmrMemBase / 65536 * 65536, s.rf R.tmrMemSize 0 16 * 65536, 16, s.reg64 R.tmrMemWr)
  else (s.reg64 R.sensMemBase / 65536 * 65536, s.rf R.sensMemSize 0 16 * 65536, 16, s.reg64 R.sensMemWr)

/-- The record of ring n that holds count `a`: start count, end where it has ended, number, start tick (R408). -/
def State.recordAt (s : State) (n a : Nat) : Nat × Option Nat × Nat × Nat :=
  let x := s.ring n
  let c0 := s.reg64 (R.recStartCount n)
  if c0 ≤ a then (c0, if x.run.isSome then none else some x.w, x.records, s.reg64 (R.recStartTick n))
  else match x.hist.find? (fun h => decide (h.1 ≤ a)) with
    | some h => (h.1, some h.2.1, h.2.2.1, h.2.2.2)
    | none => (a, none, x.records, s.reg64 (R.recStartTick n))

/-- The start of the record after the one that holds `a`, for a tap that has reached its end (R408). -/
def State.nextRecord (s : State) (n a : Nat) : Nat :=
  match (s.recordAt n a).2.1 with
  | some e => if e ≤ a then
      let starts := (s.reg64 (R.recStartCount n) :: (s.ring n).hist.map (·.1)).filter (fun c => decide (a ≤ c))
      starts.foldl (fun m c => if m = 0 ∨ c < m then c else m) 0 |> fun m => if m = 0 then a else m
    else a
  | none => a

/-- The SKIP of a tap whose next count `a` has been overrun (R408, R409). -/
def State.tapOverrun (s : State) (x : Tap) (a : Nat) : Option TapItem :=
  let k := x.kind
  let (_, size, u, wr) := s.tapSource x
  if (k = 1 ∧ a + size < wr) ∨ (k ≠ 1 ∧ a + size ≤ wr) then
    let r := if k = 1 then alignUp (wr - size + 2097152) u else alignUp (wr - size / 2) 16
    some (noticeItem 4 (skipWords a r (if k = 1 then 1 else if k = 3 then 3 else 5)) r s.now)
  else none

/-- What a STREAM, TIMER or SENSOR tap delivers next (R408, R409): a SKIP, or a record of units that are ready. `force` says
that its flush time has passed. -/
def State.streamItem (s : State) (t : Nat) (force : Bool) : Option TapItem :=
  let x := s.tapOf t
  let k := x.kind
  let (base, size, u, wr) := s.tapSource x
  let a := if k = 1 then s.nextRecord x.src x.pos else x.pos
  if x.skip.isSome then
    some (noticeItem 4 (skipWords (x.skip.getD 0) 0 (if k = 1 then 2 else if k = 3 then 4 else 6)) 0 s.now)
  else if size = 0 then none
  else match s.tapOverrun x a with
  | some i => some i
  | none =>
    let rec_ := s.recordAt x.src a
    let top := if k = 1 then (match rec_.2.1 with | some e => min e wr | none => wr) else wr
    let ended : Bool := k == 1 && (match rec_.2.1 with | some e => decide (e ≤ wr) | none => false)
    let max_ := if k = 1 then 2 ^ x.fragExp / (u + 1) else 2 ^ x.fragExp / 16
    let fit := fun n => if k = 1 then decide (alignUp (n * u + n) 64 ≤ 2 ^ x.fragExp) else true
    let want := min (max 1 (fld (x.w 14) 0 16)) max_
    let want := if fit want then want else want - 1
    let have_ := (top - a) / u
    let n := min want have_
    if n = 0 ∨ (n < want ∧ ¬ force ∧ ¬ ended) then none
    else
      let len := n * u
      let spans := if k = 1 then ringSpans base size a len false ++ ringSpans (s.flagBase x.src) (s.flagSize x.src) (a / u) n true
        else ringSpans base size a len true
      let total := if k = 1 then alignUp (len + n) 64 else alignUp len 64
      let words := if k = 1 then
          [loW a, hiW a, loW x.src, loW rec_.2.2.1, loW rec_.2.2.2, hiW rec_.2.2.2, loW rec_.1, hiW rec_.1, loW n, loW u, 0, 0]
        else [loW a, hiW a, loW n] ++ List.replicate 9 0
      some { spans := spans, buf := [], off := 0, total := total, typ := if k = 1 then 3 else if k = 3 then 6 else 7, words := words,
             poison := false, addrErr := false, spill := (false, false), holds := false, next := a + len, since := s.now }

/-- TAP_STREAM_FLUSH (R408): the flush time has passed since the first unit, accepted at count `first`, and the tap delivers
what it holds. -/
def execTapStreamFlush (tb : BitVec 12) (first : W64) (s : State) : Host.Outcome State Fault Refusal := s.awake <|
  let t := tb.toNat
  let x := s.tapOf t
  let fl := fld (x.w 14) 16 16
  if x.kind = 0 ∨ x.kind = 2 ∨ x.state ≠ 1 ∨ ¬ s.tapWorks t ∨ x.item.isSome ∨ fl = 0 then .next s
  else
    let s := s.advance (s.elapsedOf first.toNat + fl * 8192)
    match s.streamItem t true with
    | some i => .next (s.modTap t (fun x => { x with item := some i, skip := none }))
    | none => .next s

/-! ### Reading and writing -/

/-- The payload of the record under way. -/
def TapItem.payload (x : Tap) (i : TapItem) : Nat := min (2 ^ x.fragExp) (i.total - i.off)

/-- TAP_LINE_RETURN (R402, R408, R411, R413): the tap's next line read returns; a STREAM, TIMER or SENSOR tap first gathers
its next record. Its reads wait while its record has no room. -/
def execTapLineReturn (tb : BitVec 12) (out : Fin 4) (s : State) : Host.Outcome State Fault Refusal := s.awake <|
  let t := tb.toNat
  if ¬ s.tapWorks t then .next s
  else
    let x := s.tapOf t
    let s := if x.item.isNone ∧ x.kind ≠ 0 ∧ x.kind ≠ 2 ∧ x.state = 1 then
        match s.streamItem t false with
        | some i => s.modTap t (fun x => { x with item := some i, skip := none })
        | none => s
      else s
    let x := s.tapOf t
    match x.item with
    | none => .next s
    | some i => match i.spans with
      | [] => .next s
      | (a, len, ends) :: r =>
        if ¬ x.room (i.payload x) ∨ i.payload x ≤ i.buf.length then .next s
        else
          let rate := min 16384 (fld (x.w 12) 0 15)
          let cap := max 1 (fld (x.w 12) 15 12) * 1024
          let have_ := min cap (x.v + rate * (s.now / 64 - x.vAt / 64))
          let s := if rate = 0 ∨ 1024 ≤ have_ then s else s.advance ((s.now / 64 + ceilDiv (1024 - have_) rate) * 64)
          let have_ := min cap (x.v + rate * (s.now / 64 - x.vAt / 64))
          let s := s.tapTurn
          let (bs, st, s) := s.tapLine (a / 64 * 64) out
          let n := min len (64 - a % 64)
          let got := (bs.drop (a % 64)).take n
          let buf := i.buf ++ got
          let buf := if n = len ∧ ends then buf ++ List.replicate (alignUp (i.off + buf.length) 64 - (i.off + buf.length)) 0 else buf
          let past := decide (i.payload x < buf.length)
          let i : TapItem := { i with
            buf := buf
            spans := if n = len then r else (a + n, len - n, ends) :: r
            poison := i.poison || st == 2
            addrErr := i.addrErr || st == 1
            spill := if past then (st == 2, st == 1) else (false, false)
            since := s.now }
          .next (s.modTap t (fun x => { x with item := some i, v := have_ - 1024, vAt := s.now }))

/-- The tap goes on after an item (R407 step 5). -/
def State.tapNext (s : State) (t next : Nat) : State :=
  let x := s.tapOf t
  let lastTaken := decide (x.kind = 0) && decide (x.w64 8 = x.pos) && decide (x.pos < next)
  (s.modTap t (fun x => { x with item := none, pos := next, deficit := 0, state := if lastTaken then 0 else x.state })).tapBandwidth

/-- The SKIP that takes the place of a gathered record whose source has overrun it (R408, R409). -/
def State.tapStale (s : State) (x : Tap) (i : TapItem) : Option TapItem :=
  if i.typ = 3 ∨ i.typ = 6 ∨ i.typ = 7 then s.tapOverrun x (join (i.words.getD 0 0) (i.words.getD 1 0)) else none

/-- TAP_RECORD_DONE (R402, R403, R407, R408): the record under way, gathered and with room, is written, unless it has been overrun. A SEGMENT item whose pin was
revoked completes it with `overrun` and goes on to SEGMENT_LOST. -/
def execTapRecordDone (tb : BitVec 12) (s : State) : Host.Outcome State Fault Refusal := s.awake <|
  let t := tb.toNat
  let x := s.tapOf t
  match x.item with
  | none => .next s
  | some i =>
    let n := i.payload x
    if ¬ s.tapWorks t ∨ ¬ x.room n ∨ i.buf.length < n ∨ (i.holds ∧ i.off = i.total) then .next s
    else match s.tapStale x i with
    | some k => .next (s.modTap t (fun x => { x with item := some k }))
    | none =>
      let done := decide (i.off + n = i.total)
      let gone := i.typ == 1 && i.holds && !s.record.tapPins.any (fun e => e.1 == t)
      let ws := if i.typ = 1 then modAt (modAt i.words 4 (fun _ => loW i.off)) 5 (fun _ => hiW i.off)
        else if i.typ = 5 then modAt (modAt i.words 4 (fun _ => loW i.off)) 5 (fun _ => hiW i.off) else i.words
      let s := s.putRecord t i.typ (if i.typ = 1 ∨ i.typ = 5 then some done else none) i.poison i.addrErr gone ws (i.buf.take n)
      let s := if i.typ = 2 ∨ i.typ = 4 then
          (s.modTap t (fun x => { x with lost := min (x.lost + 1) 0xFFFFFF })).raise 166 else s
      if gone then
        .next (s.modTap t (fun x => { x with item := some (noticeItem 2 (lostWords x.pos x.src 4) (x.pos + 1) s.now) }))
      else if done then
        if i.holds then .next (s.modTap t (fun x => { x with item := some { i with buf := [], off := i.total } }))
        else .next (s.tapNext t i.next)
      else
        let i : TapItem := { i with buf := i.buf.drop n, off := i.off + n, poison := i.spill.1, addrErr := i.spill.2, spill := (false, false) }
        .next (s.modTap t (fun x => { x with item := some i }))

/-- TAP_ITEM_DONE (R407, R410): the last line of an item has returned, and its pin or hold is dropped. -/
def execTapItemDone (tb : BitVec 12) (s : State) : Host.Outcome State Fault Refusal := s.awake <|
  let t := tb.toNat
  match (s.tapOf t).item with
  | some i =>
    if i.holds ∧ i.spans = [] then
      let gone := i.typ == 1 && !s.record.tapPins.any (fun e => e.1 == t)
      if gone ∧ i.off < i.total then .next s
      else
        let s := s.tapDrop t
        if i.off = i.total then .next (s.tapNext t i.next)
        else .next (s.modTap t (fun x => { x with item := some { i with holds := false } }))
    else .next s
  | none => .next s

/-- TAP_LINE_TIMEOUT (R373, R411): a line read runs past `TAP_TIMEOUT`, not counting the time its channel is held. -/
def execTapLineTimeout (tb : BitVec 12) (s : State) : Host.Outcome State Fault Refusal := s.awake <|
  let t := tb.toNat
  match (s.tapOf t).item with
  | some i => match i.spans with
    | (a, _, _) :: _ =>
      if s.tapWorks t then
        let c := chanOfEngine (s.place a).engine
        let s := s.advance (s.timerEnd c i.since (max 8000 (s.rf R.tapTimeout 0 24) * 128))
        let s := (s.tapDrop t).modTap t (fun x => { x with item := none, state := 4, cause := 1, deficit := 0 })
        .next (s.tapBandwidth.raise 165)
      else .next s
    | [] => .next s
  | none => .next s

/-! ### Contexts, doorbells, owners (R404, R415 to R417) -/

/-- A function's context port. -/
def State.tapPort (s : State) (f : Nat) : TapPort := Assoc.get TapPort.reset s.tap.ports f

/-- The state with a context port changed. -/
def State.modPort (s : State) (f : Nat) (g : TapPort → TapPort) : State :=
  { s with tap := { s.tap with ports := Assoc.put TapPort.reset s.tap.ports f (g (s.tapPort f)) } }

/-- A context operation of function f, refused unless it owns the tap (R416): 1 NOT_OWNER. -/
def State.tapCmd (s : State) (f : Nat) (op : Nat → State → Nat × State) : State :=
  let t := (s.tapPort f).sel
  let r := if s.tapOwner t ≠ f then (1, s) else op t s
  r.2.modPort f (fun p => { p with status := r.1 })

/-- TAP_CTX_READ (R416). -/
def execTapCtxRead (f : Fin 64) (s : State) : Host.Outcome State Fault Refusal := s.awake <|
  .next (s.tapCmd f (fun t s => (0, s.modPort f (fun p => { p with data := (s.tapOf t).ctx }))))

/-- The bits of word i of the context image that are no reserved field (00 R12, R420); word 15 is read-only. -/
def ctxMask (i : Nat) : W32 := if i = 0 then 0x7FFFFFF else if i = 1 then 0xFFFF else if i = 12 then 0x7FFFFFF else 0xFFFFFFFF

/-- TAP_CTX_WRITE (R416): into a DISABLED tap; word 15's `skipped` is kept. -/
def execTapCtxWrite (f : Fin 64) (s : State) : Host.Outcome State Fault Refusal := s.awake <|
  .next (s.tapCmd f (fun t s =>
    if (s.tapOf t).state ≠ 0 then (2, s)
    else (0, s.modTap t (fun x => { x with ctx := modAt (s.tapPort f).data 15 (fun _ => x.w 15) }))))

/-- The table size of a function's vectors (R395). -/
def tableSize (f : Nat) : Nat := if f = 0 then 2048 else 32

/-- The checks of ENABLE (R416). -/
def State.tapConfigOk (s : State) (t f : Nat) : Bool :=
  let x := s.tapOf t
  let src := x.src
  let n := s.inputs
  decide (x.kind ≤ 4) &&
    (if x.kind = 0 then decide (src < 4) else if x.kind = 1 ∨ x.kind = 2 then decide (src < n) else decide (src = 0)) &&
    decide (12 ≤ x.ringExp) && decide (x.ringExp ≤ 31) && decide (12 ≤ x.fragExp) && decide (x.fragExp ≤ 22) &&
    decide (x.fragExp + 1 ≤ x.ringExp) && decide (x.w64 2 % 4096 = 0) && decide (x.w64 4 % 8 = 0) &&
    decide (fld (x.w 13) 0 11 < tableSize f)

/-- TAP_ENABLE (R404, R407, R408, R410, R416): the tap starts at the next boundary. -/
def execTapEnable (f : Fin 64) (s : State) : Host.Outcome State Fault Refusal := s.awake <|
  .next (s.tapCmd f (fun t s =>
    let x := s.tapOf t
    if x.state ≠ 0 then (2, s)
    else if ¬ s.tapConfigOk t f then (3, s)
    else
      let s := s.advance (boundaryAfter s.now)
      let src := s.tapSource x
      let pos := if x.kind = 0 then (if bit (x.w 0) 3 then x.w64 6 else s.reg64 (R.dirCreated x.src))
        else if x.kind = 2 then 0
        else if bit (x.w 0) 3 then x.w64 6 / src.2.2.1 * src.2.2.1 else src.2.2.2
      let s := s.modTap t (fun x => { x with
        state := 1, cause := 0, lost := 0, p := 0, c := 0, db := 0, seq := 0, pos := pos, skip := none, item := none, abort := false, recs := 0,
        v := max 1 (fld (x.w 12) 15 12) * 1024, vAt := s.now, deficit := 0,
        ctx := modAt x.ctx 15 (fun w => setFld w 0 24 0) })
      (0, s.tapBandwidth)))

/-- An item in flight ends up to the end of the record under way (R417, R418). -/
def Tap.trim (x : Tap) : Tap :=
  match x.item with
  | some i => if i.buf.length = 0 ∨ ¬ x.room (i.payload x) ∨ (i.typ = 1 ∧ i.off = 0 ∧ i.buf.length ≤ 64) then { x with item := none }
    else { x with item := some { i with total := i.off + i.payload x } }
  | none => x

/-- TAP_DISABLE (R417): a RUNNING tap drains; an ERROR tap becomes DISABLED. -/
def execTapDisable (f : Fin 64) (s : State) : Host.Outcome State Fault Refusal := s.awake <|
  .next (s.tapCmd f (fun t s =>
    let x := s.tapOf t
    if x.state = 4 then (0, s.modTap t (fun x => { x with state := 0 }))
    else if x.state = 1 then
      let s := s.modTap t (fun x => { x.trim with state := 2, abort := false })
      let s := if (s.tapOf t).item = none then s.tapDrop t else s
      (0, s.tapBandwidth)
    else (0, s)))

/-- An immediate stop of a tap (R417, R418). -/
def State.tapAbortNow (s : State) (t : Nat) : State :=
  let x := s.tapOf t
  if x.state = 4 then s.modTap t (fun x => { x with state := 0 })
  else if x.state = 0 then s
  else ((s.tapDrop t).modTap t (fun x => { x with state := 2, abort := true, item := none, deficit := 0 })).tapBandwidth

/-- TAP_ABORT (R417). -/
def execTapAbort (f : Fin 64) (s : State) : Host.Outcome State Fault Refusal := s.awake <|
  .next (s.tapCmd f (fun t s => (0, s.tapAbortNow t)))

/-- TAP_STOP_DONE (R417): a stop completes; a graceful one once its record is written, with P written back. -/
def execTapStopDone (tb : BitVec 12) (s : State) : Host.Outcome State Fault Refusal := s.clocked <|
  let t := tb.toNat
  let x := s.tapOf t
  if x.state ≠ 2 then .next s
  else if x.abort then .next (s.modTap t (fun x => { x with state := 0, abort := false }))
  else if x.item.any (fun i => decide (i.off < i.total)) then .next s
  else
    let s := if s.busMaster (s.tapOwner t) then s.hostWrite (x.w64 4) (leBytes 8 x.p) else s
    .next ((s.tapDrop t).modTap t (fun x => { x with state := 0, item := none, deficit := 0 }))

/-- TAP_DOORBELL (R404, R415): the low 32 bits of C, from the function that owns the tap. -/
def execTapDoorbell (f : Fin 64) (tb : BitVec 12) (w : W32) (s : State) : Host.Outcome State Fault Refusal := s.awake <|
  let t := tb.toNat
  if s.tapOwner t ≠ f.val then .next s
  else
    let x := s.tapOf t
    let left := (x.p + 2 ^ 32 - w.toNat) % 2 ^ 32
    if w.toNat % 64 ≠ 0 ∨ x.p < left then .next (s.modTap t (fun x => { x with dbErr := true }))
    else .next (s.modTap t (fun x => { x with db := w, c := x.p - left }))

/-- TAP_OWNER_WRITE (R415): of a DISABLED tap only. -/
def execTapOwnerWrite (tb : BitVec 12) (w : Byte) (s : State) : Host.Outcome State Fault Refusal := s.awake <|
  if (s.tapOf tb.toNat).state ≠ 0 then .next s
  else .next { s with tap := { s.tap with owner := Assoc.put 0 s.tap.owner tb.toNat (w.toNat % 64) } }

/-- `TAP_STATUSt` (R420). -/
def State.tapStatus (s : State) (t : Nat) : W32 :=
  let x := s.tapOf t
  let waiting := x.state = 1 ∧ x.item.any (fun i => !x.room (i.payload x))
  pack [(0, s.tapState t), (3, x.cause), (5, b2n (s.tapPin t)), (6, b2n (decide waiting)), (7, b2n x.dbErr), (8, x.lost)]

/-- `TAP_SCHED_STATUS` (R420). -/
def State.tapSched (s : State) : W32 :=
  pack [(0, (s.tap.taps.filter (fun e => s.tapState e.1 == 1)).length), (13, b2n s.tap.wait), (14, s.tap.covered / 64)]

/-- Every tap of a function is aborted and its context cleared (R400). -/
def State.tapFnReset (s : State) (f : Nat) : State :=
  s.tap.taps.foldl (fun s e => if s.tapOwner e.1 = f then ((s.tapAbortNow e.1).tapDrop e.1).setTap e.1 Tap.reset else s) s

end Sys2Proof.Machine
end

