-- ==== Sys2Proof/Machine/Dma.lean ====
section
/-! DEFINITION. Bulk DMA (17_bulk_dma.md): sets, elements and bursts, starting, completion and fence, bus errors, chaining, and
DSTART (12 R333). -/

namespace Sys2Proof.Machine

/-! ### Parts -/

/-- A DMA channel by number. -/
def State.dchan (s : State) (c : Nat) : DmaChan := vget s.dma.chans c DmaChan.reset

/-- The state with a DMA channel changed. -/
def State.modDma (s : State) (c : Nat) (f : DmaChan → DmaChan) : State := { s with dma := { s.dma with chans := vmod s.dma.chans c f } }

/-- Word i of the set in force. -/
def DmaChan.w (x : DmaChan) (i : Nat) : W32 := x.set.getD i 0
/-- A field of word 4. -/
def DmaChan.f4 (x : DmaChan) (lo len : Nat) : Nat := fld (x.w 4) lo len
/-- Element size. -/
def DmaChan.esize (x : DmaChan) : Nat := x.f4 0 13
/-- A loop count (R423): 0 means 2^24. -/
def DmaChan.count (x : DmaChan) (i : Nat) : Nat := let n := fld (x.w (5 + i)) 0 24; if n = 0 then 2 ^ 24 else n
/-- The number of elements of the set (R425). -/
def DmaChan.total (x : DmaChan) : Nat := x.count 0 * x.count 1 * x.count 2
/-- Loop indices of an element. -/
def DmaChan.idx (x : DmaChan) (k : Nat) : Nat × Nat × Nat := (k % x.count 0, k / x.count 0 % x.count 1, k / x.count 0 / x.count 1)

/-- Address of element k on one side (R425), modulo 2^64: base at word b, steps from word st. -/
def DmaChan.addr (x : DmaChan) (b st k : Nat) : Nat :=
  let i := x.idx k
  let step := fun (j n : Nat) => (x.w (st + j)).toInt * (n : Int)
  (((join (x.w b) (x.w (b + 1)) : Nat) : Int) + step 0 i.1 + step 1 i.2.1 + step 2 i.2.2) % 2 ^ 64 |>.toNat

/-- Source and destination address of element k. -/
def DmaChan.srcAddr (x : DmaChan) (k : Nat) : Nat := x.addr 0 8 k
/-- The destination address. -/
def DmaChan.dstAddr (x : DmaChan) (k : Nat) : Nat := x.addr 2 11 k
/-- The spaces of the set: 0 DPA, 1 HOST, 2 SMEM. -/
def DmaChan.srcSpace (x : DmaChan) : Nat := x.f4 13 2
/-- The destination space. -/
def DmaChan.dstSpace (x : DmaChan) : Nat := x.f4 15 2

/-- The control plane owns the channel (R421). -/
def State.dmaOwned (s : State) (c : Nat) : Bool := bit s.dma.owner c

/-- The port of a channel's DPA lines (R421). -/
def State.dmaPort (s : State) (c : Nat) : Nat := if s.dmaOwned c then 16 else 11

/-- Host requests of every channel wait (R439). -/
def State.hostPaused (s : State) : Bool := !(s.busMaster 0 && s.link.up)

/-- A byte range fails its space's check (R425). -/
def spaceBad (space a n : Nat) : Bool :=
  if space = 0 then decide (2 ^ 40 < a + n) else if space = 2 then decide (0x40000 < a + n) else false

/-- Offset of the first byte of a range that fails its space's check (R425, R433): the beat that it begins. -/
def badOff (space a : Nat) : Nat := if space = 0 then 2 ^ 40 - a else 0x40000 - a

/-! ### Permit (R429) -/

/-- Rate of the set in 1/64 GB/s. -/
def DmaChan.rate (x : DmaChan) : Nat := (let r := x.f4 25 7; if r = 0 then 32 else r) * 64

/-- The channel's BANDWIDTH entry for the set in force: kept if it covers it, else asked for. -/
def State.dmaPermit (s : State) (c : Nat) : State :=
  let u := s.bandwidthUnits (s.dchan c).rate
  if (s.dchan c).rate ≤ 2048 ∨ u.le (Assoc.get Units.zero s.permits.bw (32 + c)) then s
  else
    let s := (s.dropPermit (32 + c) 9).bandwidthFall (32 + c) Units.zero
    (s.modDma c (fun x => { x with permitWait := true })).askPermit (32 + c) 9 u none

/-- The channel's units leave (R429, R304). -/
def State.dmaRelease (s : State) (c : Nat) : State :=
  ((s.dropPermit (32 + c) 9).bandwidthFall (32 + c) Units.zero).modDma c (fun x => { x with permitWait := false })

/-- The rate at which the channel moves now, in GB/s (R426, R429; 20 R494). -/
def State.dmaRate (s : State) (c : Nat) : Nat :=
  let x := s.dchan c
  if x.permitWait ∨ s.throttle then min 32 (x.rate / 64) else x.rate / 64

/-! ### Errors (R432, R433) -/

/-- A bus error (R433) of burst `b`: latched if it is the set's first; the channel halts. `at_` is the offset of the beat in
the burst. -/
def State.dmaError (s : State) (c : Nat) (b : Burst) (side cause at_ : Nat) : State :=
  let x := s.dchan c
  if bit x.errInfo 25 then
    s.modDma c (fun x => { x with errInfo := setFld x.errInfo 17 8 (min (fld x.errInfo 17 8 + 1) 255) })
  else
    let i := x.idx b.idx
    let a := (if side = 0 then b.src else b.dst) + at_
    let s := s.modDma c (fun x => { x with
      errAddr := BitVec.ofNat 64 a
      errInfo := pack [(0, side), (2, cause), (5, b.off + at_), (25, 1)]
      errIdx := [loW i.1, loW i.2.1, loW i.2.2]
      failIdx := b.idx
      failOff := b.off
      state := if x.remain = 0 then 5 else 4 })
    (s.dmaRelease c).raise (176 + c)

/-- Offset in a burst of the first DPA line that completes with a bad status, and its cause (R432). -/
def State.badBeat (s : State) (a n : Nat) : Option (Nat × Nat) :=
  ((List.range ((a % 64 + n + 63) / 64)).map (fun i => ((a / 64 + i) * 64, if i = 0 then 0 else (a / 64 + i) * 64 - a))).findSome?
    (fun e => match s.lineStatus e.1 with
      | 0 => none
      | 1 => some (e.2, 1)
      | _ => some (e.2, 2))

/-! ### Issue (R425 to R427) -/

/-- The next burst of a set, if any is left (R426). -/
def DmaChan.nextBurst (x : DmaChan) (now : Nat) : Option Burst :=
  if x.total ≤ x.next then none
  else
    let a := x.srcAddr x.next + x.nextOff
    let len := min (x.esize - x.nextOff) (512 - a % 512)
    some { idx := x.next, off := x.nextOff, len := len, src := a % 2 ^ 64, dst := (x.dstAddr x.next + x.nextOff) % 2 ^ 64, data := none, issued := now }

/-- The channel past a burst. -/
def DmaChan.past (x : DmaChan) (b : Burst) : DmaChan :=
  let done := decide (b.off + b.len = x.esize)
  let x := { x with next := if done then b.idx + 1 else b.idx, nextOff := if done then 0 else b.off + b.len, flight := x.flight ++ [b] }
  { x with remain := x.total - x.next }

/-- A RUNNING channel issues bursts: at most 16 in flight, as its token bucket allows; with none in flight it waits for its
tokens (R426). A burst that fails its address check is not issued (R425). `n` bounds the bursts. -/
def State.dmaIssue (s : State) (c : Nat) : Nat → State
  | 0 => s
  | n + 1 =>
    let x := s.dchan c
    if x.state ≠ 2 ∨ 16 ≤ x.flight.length ∨ (x.srcSpace = 1 ∧ s.hostPaused) then s
    else match x.nextBurst s.now with
      | none => s
      | some b =>
        if spaceBad x.srcSpace b.src b.len then s.dmaError c b 0 1 (badOff x.srcSpace b.src)
        else
          let r := s.dmaRate c
          let have_ := min (16 * 512 * 80) (x.v + r * (s.now - x.vAt))
          let need := b.len * 80
          if have_ < need ∧ x.flight ≠ [] then s
          else
            let t := s.now + (if have_ < need then ceilDiv (need - have_) r else 0)
            let s := s.advance t
            let have_ := min (16 * 512 * 80) (x.v + r * (t - x.vAt))
            (s.modDma c (fun x => { x.past { b with issued := t } with v := have_ - need, vAt := t })).dmaIssue c n

/-! ### Sets (R423, R424, R428, R436, R437) -/

/-- The check of a set (R424). -/
def DmaChan.setOk (x : DmaChan) (owned : Bool) : Bool :=
  let smem := fun (space a : Nat) (st : Nat) =>
    space != 2 || (decide (a % 4 = 0) && decide (x.esize % 4 = 0) && (List.range 3).all (fun j => decide ((x.w (st + j)).toNat % 4 = 0)))
  decide (1 ≤ x.esize) && decide (x.esize ≤ 4096) && x.srcSpace != 3 && x.dstSpace != 3 && x.f4 17 2 != 3 &&
    (List.range 3).all (fun i => fld (x.w (5 + i)) 24 8 == 0) &&
    (owned || (x.srcSpace != 2 && x.dstSpace != 2 && x.f4 17 2 != 2)) &&
    smem x.srcSpace (x.w 0).toNat 8 && smem x.dstSpace (x.w 2).toNat 11 &&
    (!bit (x.w 4) 19 || decide ((x.w 14).toNat % 64 = 0))

/-- A set load starts (R436). -/
def State.dmaLoad (s : State) (c a space : Nat) : State :=
  s.modDma c (fun x => { x with state := 1, cur := BitVec.ofNat 64 a, curSpace := space, seen := x.doorbell, load := some (a, space, false, s.now) })

/-- A set is begun (R424, R437): an end marker re-reads once if a doorbell is new, else ends the chain; a set that fails its
check stops the channel; else it runs. -/
def State.dmaBegin (s : State) (c : Nat) (set : List W32) : State :=
  let v := min (16 * 512 * 80) ((s.dchan c).v + s.dmaRate c * (s.now - (s.dchan c).vAt))
  let s := s.modDma c (fun x => { x with set := set, load := none, v := v, vAt := s.now })
  let x := s.dchan c
  if bit (x.w 4) 20 then
    if x.doorbell ≠ x.seen then
      s.modDma c (fun x => { x with state := 1, seen := x.doorbell, load := some (x.cur.toNat, x.curSpace, true, s.now) })
    else ((s.modDma c (fun x => { x with state := 6 })).dmaRelease c).raise (176 + c)
  else if ¬ x.setOk (s.dmaOwned c) then
    ((s.modDma c (fun x => { x with state := 0, result := 3 })).dmaRelease c).raise (176 + c)
  else
    let s := s.modDma c (fun x => { x with state := 2, next := 0, nextOff := 0, flight := [], remain := x.total })
    (s.dmaPermit c).dmaIssue c 17

/-- GO (R428). -/
def State.dmaGoAct (s : State) (c : Nat) : State :=
  let x := s.dchan c
  if x.state = 0 then
    let s := s.modDma c (fun x => { x with seen := x.doorbell, errInfo := setFld x.errInfo 25 1 0 })
    if s.dmaOwned c then s.dmaLoad c (0x3F800 + 64 * c) 2 else s.dmaBegin c x.set
  else if x.state = 1 ∨ x.state = 2 ∨ x.state = 3 then s.modDma c (fun x => { x with doorbell := x.doorbell + 1 })
  else if x.state = 6 then s.dmaLoad c x.cur.toNat x.curSpace
  else s.modDma c (fun x => { x with cmdErr := true })

/-- RESUME or SKIP (R434): from the failing burst, or the element after it; an error in a set load retries the load. -/
def State.dmaRestart (s : State) (c : Nat) (skip : Bool) : State :=
  let x := s.dchan c
  if x.state = 4 ∨ x.state = 5 then
    let link := bit x.errInfo 1
    let s := s.modDma c (fun x => { x with errInfo := setFld x.errInfo 25 1 0 })
    if link then s.dmaLoad c x.cur.toNat x.curSpace
    else
      let k := if skip then x.failIdx + 1 else x.failIdx
      let s := s.modDma c (fun x => { x with
        state := 2, next := k, nextOff := if skip then 0 else x.failOff, remain := x.total - k,
        flight := x.flight.filter (fun b => decide (b.idx < x.failIdx) || (decide (b.idx = x.failIdx) && decide (b.off < x.failOff))) })
      (s.dmaPermit c).dmaIssue c 17
  else s.modDma c (fun x => { x with cmdErr := true })

/-- ABORT (R434). -/
def State.dmaAbortAct (s : State) (c : Nat) : State :=
  let x := s.dchan c
  if x.state = 0 ∨ x.state = 7 then s.modDma c (fun x => { x with cmdErr := true })
  else s.modDma c (fun x => { x with state := 7, load := none })

/-- DMA_DOORBELL (R421, R437, R438): the host writes the count of a channel it owns; in CHAIN_END the channel reloads. -/
def execDmaDoorbell (c : Fin 32) (w : W32) (s : State) : Host.Outcome State Fault Refusal := s.awake <|
  if s.dmaOwned c then .next s
  else
    let s := s.modDma c (fun x => { x with doorbell := w })
    .next (if (s.dchan c).state = 6 then s.dmaLoad c (s.dchan c).cur.toNat (s.dchan c).curSpace else s)

/-- DMA_OWNER_WRITE (R422): only IDLE and CHAIN_END channels change. -/
def execDmaOwnerWrite (w : W32) (s : State) : Host.Outcome State Fault Refusal := s.awake <|
  let m := (List.range 32).foldl (fun m c => if (s.dchan c).state = 0 ∨ (s.dchan c).state = 6 then m + 2 ^ c else m) 0
  let m : W32 := BitVec.ofNat 32 m
  .next { s with dma := { s.dma with owner := (s.dma.owner &&& ~~~ m) ||| (w &&& m) } }

/-- The cause that a returned beat carries (R432): 2 POISON, 3 HOST_UR, 4 HOST_CA. -/
def outCause (out : Nat) : Nat := if out = 2 ∨ out = 3 ∨ out = 4 then 2 else if out = 5 then 3 else if out = 6 then 4 else 0

/-- DMA_SET_LOAD_DONE (R436, R437): the load of a set ends; words of a host load are operands. -/
def execDmaSetLoadDone (c : Fin 32) (out : Fin 7) (words : List W32) (s : State) : Host.Outcome State Fault Refusal := s.awake <|
  let x := s.dchan c
  match x.load with
  | none => .next s
  | some (a, space, _, _) =>
    if x.state ≠ 1 ∨ (space = 1 ∧ s.hostPaused) then .next s
    else
      let fail := fun (cause : Nat) (s : State) =>
        let s := s.modDma c (fun x => { x with
          load := none, state := 4, errAddr := BitVec.ofNat 64 a, errIdx := [0, 0, 0],
          errInfo := pack [(1, 1), (2, cause), (25, 1)] })
        (s.dmaRelease c).raise (176 + c)
      if spaceBad space a 64 then .next (fail 1 s)
      else if space = 0 then
        let (bs, st, s) := s.readOut (s.dmaPort c) (a / 64 * 64) (out.val % 4)
        if st = 0 then .next (s.dmaBegin c (wordsOf bs)) else .next (fail st s)
      else if space = 2 then let r := s.smemFetch a 64; .next (r.2.dmaBegin c (wordsOf r.1))
      else if outCause out ≠ 0 then .next (fail (outCause out) s)
      else .next (s.dmaBegin c ((words ++ List.replicate 16 0).take 16))

/-! ### Returns and writes (R426, R430 to R433) -/

/-- The oldest burst's writes are issued once its data are in, and those of the bursts after it in turn (R426); a write
that fails is a write-side error. `n` bounds the bursts. -/
def State.dmaWrites (s : State) (c : Nat) : Nat → State
  | 0 => s
  | n + 1 =>
    let x := s.dchan c
    match x.flight with
    | [] => s
    | b :: r =>
      let dead := bit x.errInfo 25 && (decide (x.failIdx < b.idx) || (decide (x.failIdx = b.idx) && decide (x.failOff ≤ b.off)))
      match b.data with
      | none => s
      | some bs =>
        if dead then (s.modDma c (fun x => { x with flight := r })).dmaWrites c n
        else if spaceBad x.dstSpace b.dst b.len then (s.modDma c (fun x => { x with flight := r })).dmaError c b 1 1 (badOff x.dstSpace b.dst)
        else if x.dstSpace = 1 then
          if s.hostPaused then s else ((s.modDma c (fun x => { x with flight := r })).hostWrite b.dst bs).dmaWrites c n
        else if x.dstSpace = 2 then
          let s := s.modDma c (fun x => { x with flight := r })
          ((s.smemHost b.dst b.len true).smemPut b.dst bs).dmaWrites c n
        else
          let bad := s.badBeat b.dst b.len
          let s := (s.modDma c (fun x => { x with flight := r })).memPut (s.dmaPort c) b.dst bs
          match bad with
          | some e => s.dmaError c b 1 e.2 e.1
          | none => s.dmaWrites c n

/-- Lines of a DPA burst read in turn, with what the stack returns for each: bytes, and the first bad beat with its cause. -/
def State.dmaReadLines (s : State) (c a : Nat) : Nat → Nat → List (Fin 7) → List Byte × Option (Nat × Nat) × State
  | 0, _, _ => ([], none, s)
  | n + 1, k, outs =>
    let la := (a / 64 + k) * 64
    let (bs, st, s) := s.readOut (s.dmaPort c) la ((outs.head?.getD 0).val % 4)
    let r := s.dmaReadLines c a n (k + 1) (outs.drop 1)
    (bs ++ r.1, if st = 0 then r.2.1 else some (la - a, st), r.2.2)

/-- DMA_BURST_RETURN (R426, R433): the data of burst i in flight return, and writes issue in order. -/
def execDmaBurstReturn (c : Fin 32) (i : Fin 16) (outs : List (Fin 7)) (data : List Byte) (s : State) : Host.Outcome State Fault Refusal := s.awake <|
  let x := s.dchan c
  match x.flight[i.val]? with
  | none => .next s
  | some b =>
    if b.data.isSome ∨ x.state = 7 then .next s
    else
      let r : List Byte × Option (Nat × Nat) × State :=
        if x.srcSpace = 0 then
          let n := (b.src % 64 + b.len + 63) / 64
          let r := s.dmaReadLines c b.src n 0 outs
          ((r.1.drop (b.src % 64)).take b.len, r.2.1, r.2.2)
        else if x.srcSpace = 2 then let r := s.smemFetch b.src b.len; (r.1, none, r.2)
        else
          let e := outs.findSome? (fun (o : Fin 7) => if outCause o = 0 then none else some (outCause o))
          ((data ++ List.replicate b.len 0).take b.len, e.map (fun k => (0, k)), s)
      match r.2.1 with
      | some e => .next ((r.2.2.dmaError c b 0 e.2 e.1).modDma c (fun x => { x with flight := x.flight.eraseIdx i }))
      | none =>
        let s := r.2.2.modDma c (fun x => { x with flight := modAt x.flight i (fun b => { b with data := some r.1 }) })
        .next ((s.dmaWrites c 16).dmaIssue c 17)

/-- DMA_BURST_TIMEOUT (R373, R431, R432): a burst's data, or the fence read, are not received within `DMA_TIMEOUT`, not
counting the time the channel of its line is held; it does not run for a host request not yet issued (R439). -/
def execDmaBurstTimeout (c : Fin 32) (i : Fin 16) (s : State) : Host.Outcome State Fault Refusal := s.awake <|
  let x := s.dchan c
  let len := max 8000 (s.rf R.dmaTimeout 0 24) * 128
  let past := fun (space a t : Nat) => if space = 0 then s.timerEnd (chanOfEngine (s.place a).engine) t len else t + len
  if s.hostPaused ∧ ((x.state = 3 ∧ x.dstSpace = 1) ∨ (x.state = 1 ∧ x.load.any (fun l => l.2.1 == 1))) then .next s
  else if x.state = 3 then
    let k := x.total - 1
    let last := x.esize - 1
    let b : Burst := { idx := k, off := 0, len := x.esize, src := x.srcAddr k, dst := x.dstAddr k, data := none, issued := x.fenceAt }
    let s := s.advance (past x.dstSpace (x.dstAddr k + last) x.fenceAt)
    .next (s.dmaError c b 1 5 (if x.dstSpace = 0 then (x.dstAddr k + last) / 64 * 64 - x.dstAddr k else last / 4 * 4))
  else match x.load, x.flight[i.val]? with
  | some (a, space, _, t), _ =>
    let s := s.advance (past space a t)
    let s := s.modDma c (fun x => { x with
      load := none, state := 4, errAddr := BitVec.ofNat 64 a, errIdx := [0, 0, 0],
      errInfo := pack [(1, 1), (2, 5), (25, 1)] })
    .next ((s.dmaRelease c).raise (176 + c))
  | none, some b =>
    if x.state = 2 ∧ b.data.isNone then
      let s := s.advance (past x.srcSpace b.src b.issued)
      .next (s.dmaError c b 0 5 0)
    else .next s
  | none, none => .next s

/-- A set is done (R430, R436): its result, its event, then the next set or the end of the chain. -/
def State.dmaFinish (s : State) (c : Nat) : State :=
  let x := s.dchan c
  let s := s.modDma c (fun x => { x with result := 1 })
  let s := if bit (x.w 4) 22 then s.raise (176 + c) else s
  if bit (x.w 4) 19 then s.dmaLoad c (join (x.w 14) (x.w 15)) (x.f4 17 2)
  else (s.modDma c (fun x => { x with state := 0 })).dmaRelease c

/-- DMA_SET_COMPLETE (R430, R431): every write of the set has left the engine; with `fence` the channel reads its
destination first. -/
def execDmaSetComplete (c : Fin 32) (s : State) : Host.Outcome State Fault Refusal := s.awake <|
  let x := s.dchan c
  if x.state = 2 ∧ x.flight = [] ∧ x.total ≤ x.next then
    if bit (x.w 4) 21 then .next (s.modDma c (fun x => { x with state := 3, fenceAt := s.now }))
    else .next (s.dmaFinish c)
  else .next s

/-- DMA_FENCE_DONE (R431): the fence read returns; one of SMEM takes the host window's turn (R426). -/
def execDmaFenceDone (c : Fin 32) (s : State) : Host.Outcome State Fault Refusal := s.awake <|
  let x := s.dchan c
  if x.state = 3 then
    let a := (x.dstAddr (x.total - 1) + x.esize - 1) / 4 * 4
    .next ((if x.dstSpace = 2 then s.smemHost a 4 false else s).dmaFinish c)
  else .next s

/-- Every outstanding request of an aborting channel has ended (R434). -/
def State.dmaStopped (s : State) (c : Nat) : State :=
  if (s.dchan c).state = 7 then
    let s := s.modDma c (fun x => { x with state := 0, result := 2, flight := [], load := none })
    (s.dmaRelease c).raise (176 + c)
  else s

/-- DMA_STOP_DONE (R434). -/
def execDmaStopDone (c : Fin 32) (s : State) : Host.Outcome State Fault Refusal := s.awake <| .next (s.dmaStopped c)

/-- `DMA_STATUSc` (R441). -/
def State.dmaStatus (s : State) (c : Nat) : W32 :=
  let x := s.dchan c
  let host := (x.state = 1 ∧ x.load.any (fun l => l.2.1 == 1)) ∨ ((x.state = 2 ∨ x.state = 3) ∧ (x.srcSpace = 1 ∨ x.dstSpace = 1))
  pack [(0, x.state), (3, x.result), (5, b2n (decide host && s.hostPaused)), (6, b2n x.permitWait), (7, b2n x.cmdErr), (8, x.flight.length)]

/-- Every channel that `p` chooses is aborted (R439). -/
def State.dmaAbortAll (s : State) (p : Nat → Bool) : State :=
  (List.range 32).foldl (fun s c => if p c ∧ (s.dchan c).state ≠ 0 ∧ (s.dchan c).state ≠ 7 then s.dmaAbortAct c else s) s

/-- Host-owned channels are aborted and reset, and their BANDWIDTH entries released (R439). -/
def State.dmaHostReset (s : State) : State :=
  (List.range 32).foldl (fun s c =>
    if s.dmaOwned c then s
    else
      let s := s.dmaRelease c
      let s := if (s.dchan c).state = 0 then s else s.raise (176 + c)
      s.modDma c (fun _ => DmaChan.reset)) s

end Sys2Proof.Machine
end

