-- ==== Sys2Proof/Machine/HostLink.lean ====
section
/-! DEFINITION. The host link (16_host_link.md R395 to R400; R419): readiness, configuration requests, resets of functions
and of the link, and BAR2. Offsets and bit places of configuration space are the standard's (log entry 16). -/

namespace Sys2Proof.Machine

/-- The state with the link changed. -/
def State.modLink (s : State) (f : Link → Link) : State := { s with link := f s.link }

/-- Function f exists: the PF, or a VF while VF Enable is 1. -/
def State.fnExists (s : State) (f : Nat) : Bool := f == 0 || s.link.vfEnable

/-- What a host reset of the whole link's functions clears (R400, R439, R531, R553): taps, owners, configuration spaces,
MSI-X tables, BAR2, PTM registers, `MODE_HOST_REQ`, the fabric's host side, and host-owned DMA channels. A slot 0 request
runs on and its answer is discarded. -/
def State.hostReset (s : State) : State :=
  let s := (List.range 64).foldl (fun s f => s.tapFnReset f) s
  let s := s.tapBandwidth
  let s := { s with tap := { s.tap with owner := [], ports := [], fnDeficit := [] } }
  let s := s.modLink (fun l => { l with fns := [], vfEnable := false, bar2Exp := 28, cfg := [], msix := [], pba := [] })
  let s := { s with ptm := { s.ptm with cfgEnable := false, dialog := false } }
  let s := s.resetRegs (fun a => (decide (0x100000100 ≤ a) && decide (a < 0x100000120)) || a == R.bar2WinBase || a == R.bar2WinBase + 4 ||
    a == R.modeHostReq || (decide (0x100050000 ≤ a) && decide (a < 0x100051000)))
  let s := { s with mgt := { s.mgt with slots := vmod s.mgt.slots 0 (fun x => { x with drop := x.full }) } }
  s.evtHostReset.dmaHostReset

/-- PERST_ASSERT (R399, R400): PERST#, a hot reset or link loss. -/
def execPerstAssert (s : State) : Host.Outcome State Fault Refusal :=
  let s := s.hostReset
  let s := s.modLink (fun l => { l with
    perst := true, width := 0, rate := 0, flit := false, up := false, l1 := false, ready := false, downs := min (l.downs + 1) 0xFFFF })
  .next (s.raise 161)

/-- PERST_RELEASE (R399): the 120 ms run from here. -/
def execPerstRelease (s : State) : Host.Outcome State Fault Refusal :=
  if s.link.perst then .next (s.modLink (fun l => { l with perst := false, released := s.now })) else .next s

/-- CONFIG_READY (R399): 120 ms after the release. -/
def execConfigReady (s : State) : Host.Outcome State Fault Refusal := s.clocked <|
  if s.link.perst ∨ s.link.ready then .next s
  else .next ((s.advance (s.link.released + 9600000000)).modLink (fun l => { l with ready := true }))

/-- HOST_LINK_UP (R395, R419): the link reaches L0 with 1, 2, 4, 8 or 16 lanes at a rate code; FLIT mode at 64 GT/s. -/
def execHostLinkUp (lanes : Fin 5) (rate : Fin 6) (s : State) : Host.Outcome State Fault Refusal := s.clocked <|
  if s.link.perst then .next s
  else .next ((s.modLink (fun l => { l with
    width := 2 ^ lanes.val, rate := rate.val + 1, flit := decide (rate.val = 5), up := true, l1 := false })).raise 160)

/-- Index of a configuration register among the stored words. -/
def configIx : ConfigReg → Nat
  | .id => 0 | .command => 1 | .classRev => 2 | .subsystem => 3 | .power => 4 | .msix => 5 | .devCtl => 6 | .sriov => 7 | .ptm => 8
  | .bar0 => 9 | .bar2 => 10 | .bar2Size => 11 | .serialLo => 12 | .serialHi => 13 | .aerCorr => 14 | .aerUncorr => 15

/-- A stored configuration word. -/
def State.cfgWord (s : State) (f : Nat) (r : ConfigReg) : W32 := Assoc.get 0 s.link.cfg (f * 16 + configIx r)

/-- The state with a stored configuration word. -/
def State.setCfg (s : State) (f : Nat) (r : ConfigReg) (w : W32) : State :=
  s.modLink (fun l => { l with cfg := Assoc.put 0 l.cfg (f * 16 + configIx r) w })

/-- Reading a configuration register (R395 to R397). -/
def State.cfgRead (s : State) (f : Nat) (r : ConfigReg) : W32 :=
  let x := s.pfn f
  match r with
  | .id => pack [(0, 0x1D8A), (16, (if s.is9620 then 0x9620 else 0x9640) + (if f = 0 then 0 else 1))]
  | .command => pack [(1, b2n x.mse), (2, b2n x.bme)]
  | .classRev => pack [(0, Config.stepping.toNat), (8, 0x118000)]
  | .subsystem => pack [(0, 0x1D8A), (16, fld (s.mgt.cold.getD 0 0) 0 16)]
  | .power => pack [(0, if x.d3 then 3 else 0)]
  | .msix => pack [(16, tableSize f - 1), (30, b2n x.msixMask), (31, b2n x.msixEn)]
  | .devCtl => (s.cfgWord f r) &&& 0xFFFF
  | .sriov => if f = 0 then pack [(0, b2n s.link.vfEnable)] else 0
  | .ptm => if f = 0 then pack [(0, b2n s.ptm.cfgEnable)] else 0
  | .bar0 => ((s.cfgWord f r) &&& (if f = 0 then 0xFC000000 else 0xFFFF0000)) ||| 4
  | .bar2 => if f = 0 then ((s.cfgWord f r) &&& (if s.link.bar2Exp < 32 then BitVec.ofNat 32 (2 ^ 32 - 2 ^ s.link.bar2Exp) else 0)) ||| 0xC else 0
  | .bar2Size => if f = 0 then pack [(8, s.link.bar2Exp - 20)] else 0
  | .serialLo => if f = 0 then Config.serial 0 else 0
  | .serialHi => if f = 0 then Config.serial 1 else 0
  | .aerCorr => s.cfgWord f r
  | .aerUncorr => s.cfgWord f r

/-- A function level reset of VF f starts (R400): its taps are aborted and their contexts cleared, its MSI-X table is reset,
and requests to it are retried for at most 1 ms. -/
def State.vfReset (s : State) (f : Nat) (flr : Option Nat) : State :=
  let s := (s.tapFnReset f).tapBandwidth
  let s := s.modFn f (fun _ => { PcieFn.reset with flr := flr })
  s.modLink (fun l => { l with
    msix := l.msix.filter (fun e => e.1 / 8192 ≠ f), pba := l.pba.filter (fun k => k / 2048 ≠ f), cfg := l.cfg.filter (fun e => e.1 / 16 ≠ f) })

/-- VF Enable is cleared (R400): as an FLR of every VF. -/
def State.vfsOff (s : State) : State :=
  let s := (List.range 63).foldl (fun s i => s.vfReset (i + 1) none) s
  s.modLink (fun l => { l with vfEnable := false })

/-- Writing a configuration register (R395, R397, R400; 03 R89). -/
def State.cfgWrite (s : State) (f : Nat) (r : ConfigReg) (w : W32) : State :=
  match r with
  | .command => s.modFn f (fun x => { x with mse := bit w 1, bme := bit w 2 })
  | .power => if fld w 0 2 = 0 ∨ fld w 0 2 = 3 then s.modFn f (fun x => { x with d3 := bit w 0 }) else s
  | .msix =>
    let s := s.modFn f (fun x => { x with msixMask := bit w 30, msixEn := bit w 31 })
    if bit w 31 && !bit w 30 then
      (s.link.pba.filter (fun k => k / 2048 = f)).foldl (fun s k => s.msixWrite f (k % 2048) 3 (s.msixWord f (k % 2048) 3)) s
    else s
  | .devCtl => (s.modFn f (fun x => { x with relaxed := bit w 4 })).setCfg f r (w &&& 0x7FFF)
  | .sriov => if f ≠ 0 then s else if bit w 0 then s.modLink (fun l => { l with vfEnable := true }) else if s.link.vfEnable then s.vfsOff else s
  | .ptm => if f = 0 then { s with ptm := { s.ptm with cfgEnable := bit w 0 } } else s
  | .bar0 => s.setCfg f r w
  | .bar2 => if f = 0 then s.setCfg f r w else s
  | .bar2Size => if f = 0 ∧ 8 ≤ fld w 8 6 ∧ fld w 8 6 ≤ 16 then s.modLink (fun l => { l with bar2Exp := 20 + fld w 8 6 }) else s
  | .aerCorr => s.setCfg f r (s.cfgWord f r &&& ~~~ w)
  | .aerUncorr => s.setCfg f r (s.cfgWord f r &&& ~~~ w)
  | .id | .classRev | .subsystem | .serialLo | .serialHi => s

/-- CONFIG_REQUEST (R399, R400): Request Retry Status before readiness and during an FLR of the function; Unsupported
Request where no function answers. -/
def execConfigRequest (f : Fin 64) (r : ConfigReg) (write : Bool) (w : W32) (s : State) : Host.Outcome State Fault Refusal := s.clocked <|
  let reply := fun (s : State) (st : Nat) (d : W32) => s.modLink (fun l => { l with reply := (st, d) })
  if ¬ s.link.up then .next s
  else if ¬ s.link.ready ∨ (s.pfn f).flr.isSome then .next (reply s 1 0)
  else if ¬ s.fnExists f then .next (reply s 2 0)
  else if write then .next (reply (s.cfgWrite f r w) 0 0)
  else .next (reply s 0 (s.cfgRead f r))

/-- PF_FLR (R400): as PERST#, except that the link stays up; every VF disappears. -/
def execPfFlr (s : State) : Host.Outcome State Fault Refusal := s.clocked <|
  if s.link.up ∧ (s.pfn 0).flr.isNone then
    .next ((s.hostReset.modFn 0 (fun x => { x with flr := some (s.now + 800000000) })).raise 162)
  else .next s

/-- VF_FLR (R400). -/
def execVfFlr (v : Fin 64) (s : State) : Host.Outcome State Fault Refusal := s.clocked <|
  if s.link.up ∧ v.val ≠ 0 ∧ s.link.vfEnable ∧ (s.pfn v).flr.isNone then .next ((s.vfReset v (some (s.now + 80000000))).raise 162)
  else .next s

/-- FLR_DONE (R400): the reset of function f ends after `dt` ticks, at most 10 ms for the PF and 1 ms for a VF. -/
def execFlrDone (f : Fin 64) (dt : W32) (s : State) : Host.Outcome State Fault Refusal := s.clocked <|
  match (s.pfn f).flr with
  | some d => .next ((s.advance (min d (s.now + dt.toNat))).modFn f (fun x => { x with flr := none }))
  | none => .next s

/-- VF_ENABLE_CLEAR (R400). -/
def execVfEnableClear (s : State) : Host.Outcome State Fault Refusal := s.clocked <| if s.link.vfEnable then .next s.vfsOff else .next s

/-- BUS_MASTER_CHANGE (R400): taps of the function pause or go on; `TAP_STATUSt` and every sender follow these bits. -/
def execBusMasterChange (f : Fin 64) (bme d3 : Bool) (s : State) : Host.Outcome State Fault Refusal := s.clocked <|
  if s.fnExists f then .next ((s.modFn f (fun x => { x with bme := bme, d3 := d3 })).tapBandwidth) else .next s

/-- AER_ERROR (R395, R419): the PF logs an error of bit k. -/
def execAerError (correctable : Bool) (k : Fin 32) (s : State) : Host.Outcome State Fault Refusal := s.clocked <|
  let r : ConfigReg := if correctable then .aerCorr else .aerUncorr
  .next ((s.setCfg 0 r (s.cfgWord 0 r ||| BitVec.ofNat 32 (2 ^ k.val))).raise (if correctable then 163 else 164))

/-- `HOST_LINK_STATUS` (R420). -/
def State.linkStatus (s : State) : W32 :=
  pack [(0, s.link.width), (5, s.link.rate), (8, b2n s.link.flit), (9, b2n s.link.up), (16, s.link.downs)]

/-- DPA of BAR2 offset 0: bits of the base below the BAR2 size are ignored (R398). -/
def State.bar2Base (s : State) : Nat := s.reg64 R.bar2WinBase / 2 ^ s.link.bar2Exp * 2 ^ s.link.bar2Exp

/-- Lines of a BAR2 read in turn, with what the stack returns for each: bytes, and whether one completed POISON. -/
def State.bar2Lines (s : State) (a : Nat) : Nat → List (Fin 4) → List Byte × Bool × State
  | 0, _ => ([], false, s)
  | n + 1, outs =>
    let r := if s.mode.mode = 0 then (List.replicate 64 0xFF, 0, s.addrErr 17 a false) else s.readOut 17 a (outs.headD 0).val
    let t := State.bar2Lines r.2.2 (a + 64) n (outs.drop 1)
    (r.1 ++ t.1, (r.2.1 == 2) || t.2.1, t.2.2)

/-- BAR2_ACCESS (R398; 21 R524): a write of `wr` or a read of `n` bytes at an offset of the window. -/
def execBar2Access (off : BitVec 36) (wr : Option (List Byte)) (n : BitVec 13) (outs : List (Fin 4)) (s : State) :
    Host.Outcome State Fault Refusal := s.clocked <|
  if ¬ s.link.up then .next s
  else if ¬ (s.pfn 0).mse ∨ (s.pfn 0).d3 ∨ (s.pfn 0).flr.isSome ∨ 2 ^ s.link.bar2Exp ≤ off.toNat then
    match wr with
    | some _ => .next s
    | none => .next (s.modLink (fun l => { l with bar2 := ([], false, true) }))
  else
    let a := s.bar2Base + off.toNat
    match wr with
    | some bs => if s.mode.mode = 0 then .next (s.addrErr 17 (a / 64 * 64) true) else .next (s.memPut 17 a bs)
    | none =>
      let r := s.bar2Lines (a / 64 * 64) (ceilDiv (a % 64 + n.toNat) 64) outs
      let s := r.2.2.modLink (fun l => { l with bar2 := ((r.1.drop (a % 64)).take n.toNat, r.2.1, false) })
      .next (if r.2.1 then s.raise 168 else s)

end Sys2Proof.Machine
end

