-- ==== Sys2Proof/Machine/Display.lean ====
section
/-! DEFINITION. The display (18_display.md): the timing and its frame starts, flips, layers and their fetches, composition,
the link's state and DP_HPD. -/

namespace Sys2Proof.Machine

/-- The state with the display changed. -/
def State.modDsp (s : State) (f : Dsp → Dsp) : State := { s with dsp := f s.dsp }

/-- A layer. -/
def State.layer (s : State) (l : Nat) : DspLayer := vget s.dsp.layers l DspLayer.reset

/-- The state with a layer changed. -/
def State.modLayer (s : State) (l : Nat) (f : DspLayer → DspLayer) : State := s.modDsp (fun d => { d with layers := vmod d.layers l f })

/-! ### Timing (R446, R447) -/

/-- A timing as its five registers hold it. -/
structure Timing where
  hactive : Nat
  htotal : Nat
  hsyncStart : Nat
  hsyncWidth : Nat
  vactive : Nat
  vtotal : Nat
  vsyncStart : Nat
  vsyncWidth : Nat
  pclkM : Nat
  pclkN : Nat
  deriving DecidableEq, Repr

/-- The timing of five register words. -/
def timingOf (w : Nat → W32) : Timing where
  hactive := fld (w 0) 0 12
  htotal := fld (w 0) 16 14
  hsyncStart := fld (w 1) 0 14
  hsyncWidth := fld (w 1) 16 10
  vactive := fld (w 2) 0 12
  vtotal := fld (w 2) 16 13
  vsyncStart := fld (w 3) 0 13
  vsyncWidth := fld (w 3) 16 8
  pclkM := fld (w 4) 0 16
  pclkN := fld (w 4) 16 12

/-- The timing in force. -/
def State.timing (s : State) : Timing := timingOf (fun i => s.reg (R.dspTimM i))

/-- The checks of R447. -/
def Timing.valid (t : Timing) : Bool :=
  decide (64 ≤ t.hactive) && decide (t.hactive ≤ 3840) && decide (t.hactive % 2 = 0) && decide (t.hactive + 32 ≤ t.htotal) && decide (t.htotal ≤ 8192) &&
  decide (1 ≤ t.vactive) && decide (t.vactive ≤ 2160) && decide (t.vactive + 3 ≤ t.vtotal) && decide (t.vtotal ≤ 4096) &&
  decide (t.hsyncStart + t.hsyncWidth ≤ t.htotal - t.hactive) && decide (t.vsyncStart + t.vsyncWidth ≤ t.vtotal - t.vactive) &&
  decide (t.pclkN ≠ 0) && decide (t.pclkM ≤ 6 * t.pclkN)

/-- Rate of a lane in Mbit/s (R442). -/
def laneRate (rate : Nat) : Nat := if rate = 0 then 1620 else if rate = 1 then 2700 else if rate = 2 then 5400 else 8100

/-- The link is able to carry a timing (R444): 30 f_pix at most 0.97 x 0.8 of the lanes' rate. -/
def Timing.carried (t : Timing) (lanes rate : Nat) : Bool := decide (3000000 * t.pclkM ≤ 776 * 2 ^ lanes * laneRate rate * t.pclkN)

/-- Mvid and Nvid of the Main Stream Attribute packets at a rate (R446). -/
def Timing.msa (t : Timing) (rate : Nat) : Nat × Nat := (100 * t.pclkM, laneRate rate / 10 * t.pclkN)

/-- Horizontal sync is under way at pixel x of a line (R447). -/
def Timing.hsync (t : Timing) (x : Nat) : Bool := decide (t.hactive + t.hsyncStart ≤ x) && decide (x < t.hactive + t.hsyncStart + t.hsyncWidth)

/-- Vertical sync is under way in line y of a frame (R447). -/
def Timing.vsync (t : Timing) (y : Nat) : Bool := decide (t.vsyncStart ≤ y) && decide (y < t.vsyncStart + t.vsyncWidth)

/-- The levels of the two syncs at pixel x of frame line y: high while under way, or low with negative polarity (R447). -/
def State.syncLevels (s : State) (x y : Nat) : Bool × Bool :=
  (s.timing.hsync x != bit (s.reg (R.dspTimM 1)) 31, s.timing.vsync y != bit (s.reg (R.dspTimM 3)) 31)

/-- The link PLL runs (R446): while `DSP_CTRL.enable` is 1, whatever the link's state. -/
def State.linkPll (s : State) : Bool := bit (s.reg R.dspCtrl) 0

/-- Length of one pixel as a fraction of ticks: 800 n / m (R446). -/
def Timing.pixels (t : Timing) (k : Nat) : Nat × Nat := (k * 800 * t.pclkN, t.pclkM)

/-- Sum of two fractions in lowest terms. -/
def addFrac (a b : Nat × Nat) : Nat × Nat :=
  let n := a.1 * b.2 + b.1 * a.2
  let d := a.2 * b.2
  let g := max 1 (Nat.gcd n d)
  (n / g, d / g)

/-- The instant of frame line `y` of the running frame, as a fraction of elapsed ticks. -/
def State.lineAt (s : State) (y : Nat) : Nat × Nat :=
  if y = 0 then (s.dsp.startNum, s.dsp.startDen) else addFrac (s.dsp.startNum, s.dsp.startDen) (s.timing.pixels (y * s.timing.htotal))

/-- The frame start that comes next. -/
def State.nextFrame (s : State) : Nat × Nat :=
  if s.dsp.first then (s.dsp.startNum, s.dsp.startDen) else s.lineAt s.timing.vtotal

/-- The first CK_DP boundary at or after an instant (R448). -/
def boundaryOf (x : Nat × Nat) : Nat := ceilDiv x.1 (x.2 * 128) * 128

/-! ### Layers (R450, R451) -/

/-- A layer's settings. -/
structure LSet where
  enable : Bool
  format : Nat
  alpha : Nat
  keyEn : Bool
  zh : Nat
  zv : Nat
  follow : Bool
  followIn : Nat
  keyLo : Nat
  keyHi : Nat
  cb : Nat
  cr : Nat
  px : Int
  py : Int
  width : Nat
  height : Nat
  pitch : Nat
  ybase : Nat
  cbase : Nat
  /-- `format`, `zoom_h` and `zoom_v` hold no reserved value. -/
  codesOk : Bool
  deriving DecidableEq, Repr

/-- The settings of layer l that registers hold. -/
def layerSettings (l : Nat) (w : Nat → W32) : LSet where
  enable := bit (w 0) 0
  format := fld (w 0) 1 3
  alpha := fld (w 0) 4 8
  keyEn := bit (w 0) 12
  zh := 2 ^ fld (w 0) 13 2
  zv := 2 ^ fld (w 0) 15 2
  follow := bit (w 0) 17 && l == 1
  followIn := fld (w 0) 18 3
  keyLo := fld (w 1) 0 10
  keyHi := fld (w 1) 16 10
  cb := fld (w 2) 0 10
  cr := fld (w 2) 16 10
  px := sextInt 14 (fld (w 3) 0 14)
  py := sextInt 14 (fld (w 3) 16 14)
  width := fld (w 4) 0 12
  height := fld (w 4) 16 12
  pitch := fld (w 5) 0 18
  ybase := join (w 6) (w 7) % 2 ^ 40
  cbase := join (w 8) (w 9) % 2 ^ 40
  codesOk := decide (fld (w 0) 1 3 ≤ 5) && decide (fld (w 0) 13 2 ≠ 3) && decide (fld (w 0) 15 2 ≠ 3)

/-- The settings in force of a layer; L1 in follow shows the held slot's image (R452). -/
def State.lset (s : State) (l : Nat) : LSet :=
  let x := layerSettings l (fun i => s.reg (R.dspLayerM l (4 * i)))
  match (s.layer l).slot with
  | some (a, eight) => { x with
      ybase := a + 0x500000, cbase := a + 0x900000, width := 2048, height := 1024, format := if eight then 0 else 1
      pitch := if eight then 2048 else 4096 }
  | none => x

/-- Bytes of a luma or chroma sample. -/
def LSet.sampleSize (x : LSet) : Nat := if x.format % 2 = 1 then 2 else 1

/-- The settings are fit (R451). -/
def LSet.fit (x : LSet) : Bool :=
  x.codesOk && decide (x.ybase % 64 = 0) && decide (x.cbase % 64 = 0) && decide (x.pitch % 64 = 0) && decide (x.width * x.sampleSize ≤ x.pitch) &&
  decide (16 ≤ x.width) && decide (x.width ≤ 3840) && decide (1 ≤ x.height) && decide (x.height ≤ 2160) &&
  (decide (4 ≤ x.format) || decide (x.width % 2 = 0)) && (decide (2 ≤ x.format) || decide (x.height % 2 = 0))

/-- Active line at which source line r is first needed (R455). -/
def LSet.lineY (x : LSet) (r : Nat) : Int := x.py + r * x.zv

/-- The first source line from r on that the active area shows, if one does. -/
def State.nextLine (s : State) (x : LSet) (r : Nat) : Option Nat :=
  let r := if x.lineY r + x.zv ≤ 0 then ((-x.py) / x.zv).toNat else r
  let cols := decide (x.px < (s.timing.hactive : Nat)) && decide (0 < x.px + x.width * x.zh)
  if cols ∧ r < x.height ∧ x.lineY r < (s.timing.vactive : Nat) then some r else none

/-! ### Composition (R453, R454) -/

/-- One component blended over the result so far. -/
def blend (a layer under : Nat) : Nat := (a * layer + (256 - a) * under + 128) / 256

/-- A layer's sample blended over a pixel (R453). -/
def LSet.over (x : LSet) (l u : Nat × Nat × Nat) : Nat × Nat × Nat :=
  let a := if x.keyEn && decide (x.keyLo ≤ l.1) && decide (l.1 ≤ x.keyHi) then 0 else x.alpha + x.alpha / 128
  (blend a l.1 u.1, blend a l.2.1 u.2.1, blend a l.2.2 u.2.2)

/-- A component of R454, clamped. -/
def cscRow (c0 c1 c2 : Int) (y cb cr : Int) : Nat := (max 0 (min 1023 ((c0 * y + c1 * (cb - 512) + c2 * (cr - 512) + 2048) / 4096))).toNat

/-- The conversion of R454 under the five words of the matrix. -/
def cscConvert (w : Nat → W32) (p : Nat × Nat × Nat) : Nat × Nat × Nat :=
  let c := fun (i lo : Nat) => sextInt 16 (fld (w i) lo 16)
  let y : Int := (p.1 : Int) - (fld (w 4) 16 10 : Nat)
  (cscRow (c 0 0) (c 0 16) (c 1 0) y p.2.1 p.2.2, cscRow (c 1 16) (c 2 0) (c 2 16) y p.2.1 p.2.2, cscRow (c 3 0) (c 3 16) (c 4 0) y p.2.1 p.2.2)

/-- Sample i of a line of bytes, widened to 10 bits (R450). -/
def sampleAt (size : Nat) (bs : List Byte) (i : Nat) : Nat :=
  if size = 2 then ofBytes ((bs.drop (2 * i)).take 2) % 1024
  else let v := (bs.getD i 0).toNat; v * 4 + v / 64

/-- Chroma line of a luma line. -/
def LSet.chromaLine (x : LSet) (r : Nat) : Nat := if x.format < 2 then r / 2 else r

/-- The sample with which layer l covers display pixel (x, y), if it does (R451, R456). -/
def State.layerSample (s : State) (l x y : Nat) : Option (Nat × Nat × Nat) :=
  let st := s.lset l
  let du : Int := (x : Int) - st.px
  let dr : Int := (y : Int) - st.py
  let u := (du / st.zh).toNat
  let r := (dr / st.zv).toNat
  let shown := st.enable && (!st.follow || (s.layer l).slot.isSome) && !s.dsp.blank && decide (0 ≤ du) && decide (0 ≤ dr) && decide (u < st.width) &&
    decide (r < st.height) && (match (s.layer l).faultAt with | some f => decide (y < f) | none => true)
  if shown then
    match (s.layer l).luma.find? (fun e => e.1 == r) with
    | some e =>
      let yv := sampleAt st.sampleSize e.2 u
      if 4 ≤ st.format then some (yv, st.cb, st.cr)
      else match (s.layer l).chroma.find? (fun e => e.1 == st.chromaLine r) with
        | some c => some (yv, sampleAt st.sampleSize c.2 (u / 2 * 2), sampleAt st.sampleSize c.2 (u / 2 * 2 + 1))
        | none => none
    | none => none
  else none

/-- The RGB of active pixel (x, y) as the engine composes it from its line buffers (R449, R453, R454). -/
def State.pixel (s : State) (x y : Nat) : Nat × Nat × Nat :=
  if s.dsp.blank then (0, 0, 0)
  else
    let bg := s.reg (R.dspGlobM 0)
    let p := (upTo 4).foldl (fun (p : Nat × Nat × Nat) l => match s.layerSample l x y with
      | some v => (s.lset l).over v p
      | none => p) (fld bg 0 10, fld bg 10 10, fld bg 20 10)
    cscConvert (fun i => s.reg (R.dspGlobM (i + 1))) p

/-! ### The link (R443 to R445) -/

/-- The link takes a state; DSP_LINK asserts at each change (R463). -/
def State.dspLinkTo (s : State) (st : Nat) : State :=
  if s.dsp.link = st then s else (s.modDsp (fun d => { d with link := st })).raise 214

/-- `DSP_LINK_STATUS`. -/
def State.dspLinkStatus (s : State) : W32 := pack [(0, s.dsp.link), (3, s.dsp.lanes), (5, s.dsp.rate)]

/-- HPD_CONNECT (R445). -/
def execHpdConnect (s : State) : Host.Outcome State Fault Refusal := s.clocked <|
  if s.dsp.hpd then .next s else .next ((s.modDsp (fun d => { d with hpd := true })).raise 213)

/-- HPD_DISCONNECT (R445): an UP, UNFIT or TRAINING link is powered down. -/
def execHpdDisconnect (s : State) : Host.Outcome State Fault Refusal := s.clocked <|
  if s.dsp.hpd then
    let s := (s.modDsp (fun d => { d with hpd := false })).raise 213
    .next (if s.dsp.link = 1 ∨ s.dsp.link = 2 ∨ s.dsp.link = 4 then s.dspLinkTo 0 else s)
  else .next s

/-- IRQ_HPD (R445): a running Aselm reads the sink's link status; a trained link whose sink reports lost lock is LOST. -/
def execIrqHpd (lostLock : Bool) (s : State) : Host.Outcome State Fault Refusal := s.clocked <|
  if s.dsp.hpd then
    let s := (s.modDsp (fun d => { d with irqHpd := true })).raise 213
    .next (if lostLock ∧ s.mgt.state = 1 ∧ (s.dsp.link = 2 ∨ s.dsp.link = 4) then s.dspLinkTo 3 else s)
  else .next s

/-! ### Frames (R448, R449, R452, R458) -/

/-- The hold of a followed slot ends (R452). -/
def State.dspUnhold (s : State) : State :=
  match s.dsp.hold with
  | some n => (s.churnUnhold n 100).modDsp (fun d => { d with hold := none })
  | none => s

/-- The engine starts (R461): its first frame starts 64 CK_DP later. -/
def State.dspStart (s : State) : State :=
  s.modDsp (fun d => { d with running := true, first := true, startNum := s.boundary + 8192, startDen := 1 })

/-- The engine stops: holds are released (R461, R462). -/
def State.dspStop (s : State) : State :=
  s.dspUnhold.modDsp (fun d => { d with running := false, blank := false, layers := Vector.replicate 4 DspLayer.reset })

/-- DSP_ENABLE (R461): the host writes `DSP_CTRL.enable`. -/
def execDspEnable (on : Bool) (s : State) : Host.Outcome State Fault Refusal := s.awake <|
  let s := s.setReg R.dspCtrl (pack [(0, b2n on)])
  if on then .next (if s.dsp.running ∨ s.mode.mode = 0 then s else s.dspStart)
  else .next (if s.dsp.running ∧ s.dsp.first then s.dspStop else s)

/-- A pending timing is judged at a frame start (R449): applied, applied with a blank frame, or rejected. -/
def State.dspTiming (s : State) : State :=
  if ¬ s.dsp.apply then s.modDsp (fun d => { d with blank := false })
  else
    let t := timingOf (fun i => s.reg (R.dspTim i))
    let s := s.modDsp (fun d => { d with apply := false, blank := false })
    if ¬ t.valid ∨ (s.dsp.link = 2 ∧ ¬ t.carried s.dsp.lanes s.dsp.rate) then (s.modDsp (fun d => { d with status := 3 })).raise 212
    else
      let same := decide (t.pclkM = s.timing.pclkM) && decide (t.pclkN = s.timing.pclkN)
      let s := s.setRegs (R.dspTimM 0) ((upTo 5).map (fun i => s.reg (R.dspTim i)))
      let s := (s.modDsp (fun d => { d with status := 2, blank := !same })).raise 211
      if s.dsp.link = 4 ∧ t.carried s.dsp.lanes s.dsp.rate then s.dspLinkTo 2 else s

/-- `DSP_FAULT_INFO` records a layer, cause and active line. -/
def State.dspFaultInfo (s : State) (l cause line : Nat) : State :=
  s.setReg R.dspFaultInfo (pack [(0, l), (2, cause), (5, line % 4096), (17, 1)])

/-- Pending flips are taken up together (R458): fit layers and the global settings apply, unfit ones are refused. -/
def State.dspFlips (s : State) (kts : List W32) : State :=
  let f := s.dsp.flips
  if f = 0 then s
  else
    let s := (upTo 4).foldl (fun s l =>
      if f.testBit l then
        if (layerSettings l (fun i => s.reg (R.dspLayer l (4 * i)))).fit then
          s.setRegs (R.dspLayerM l 0) ((upTo 10).map (fun i => s.reg (R.dspLayer l (4 * i))))
        else (s.dspFaultInfo l 4 0).raise 215
      else s) s
    let s := if f.testBit 4 then s.setRegs (R.dspGlobM 0) ((upTo 6).map (fun i => s.reg (R.dspGlob i))) else s
    s.modDsp (fun d => { d with flips := 0, flipCount := d.flipCount + 1, flipKts := kts, flipDone := false })

/-- L1 in follow latches the published slot of its input and reads its header (R452): the slot is shown, or the frame
misses. An L1 that is not enabled reads no line, so its hold ends at once. -/
def State.dspFollow (s : State) : State :=
  let x := layerSettings 1 (fun i => s.reg (R.dspLayerM 1 (4 * i)))
  if ¬ (x.follow && !s.dsp.blank) then s.modDsp (fun d => { d with followMiss := false })
  else
    let n := x.followIn
    let miss := fun (s : State) => s.modDsp (fun d => { d with followMiss := true })
    match (vget s.churn n Churn.reset).published with
    | some slot =>
      if ¬ (bit (s.reg (R.churnSnapCtrl n)) 0 ∧ (vget s.churn n Churn.reset).pubValid = true) then miss s
      else
        let a := s.pageBase n + slot * 2 ^ 24
        let r := s.getLine 13 a
        let w := wordsOf r.1
        let sw := w.getD 14 0
        let good := r.2.1 == 0 && w.getD 15 0 == ~~~ sw && fld sw 0 4 == 5 && bit (w.getD 8 0) 5
        let s := r.2.2
        if good && !x.enable then s.modDsp (fun d => { d with followMiss := false })
        else if good then
          ((s.churnHold n slot 100).modDsp (fun d => { d with hold := some n, followMiss := false })).modLayer 1 (fun y =>
            { y with slot := some (a, bit (w.getD 8 0) 6) })
        else miss s
    | none => miss s

/-- The layers at the start of a frame: nothing faulted, and their first lines to read. -/
def State.dspLayersStart (s : State) : State :=
  let s := s.modDsp (fun d => { d with layers := Vector.replicate 4 DspLayer.reset })
  let s := s.dspFollow
  let s := (upTo 4).foldl (fun s l =>
    let x := s.lset l
    if x.enable && (!x.follow || (s.layer l).slot.isSome) && !s.dsp.blank then
      s.modLayer l (fun y => { y with next := s.nextLine x 0 })
    else s) s
  if (s.layer 1).next = none then s.dspUnhold else s

/-- DSP_FRAME_START (R448): a frame starts; or, with `enable` = 0, the last frame has completed (R461). -/
def execDspFrameStart (s : State) : Host.Outcome State Fault Refusal := s.awake <|
  if ¬ s.dsp.running ∨ s.nextFrame.2 = 0 then .next s
  else
    let x := s.nextFrame
    let b := boundaryOf x
    let s := s.advance b
    if ¬ bit (s.reg R.dspCtrl) 0 then .next s.dspStop
    else
      let kts := s.kts (s.countAt b) 0 false 9
      let s := s.dspUnhold.modDsp (fun d => { d with startNum := x.1, startDen := x.2, first := false, frames := d.frames + 1, vblankKts := kts })
      let s := (s.dspTiming).dspFlips kts
      .next ((s.dspLayersStart).raise 208)

/-- DSP_FLIP_REQ (R457). -/
def execDspFlipReq (bits : BitVec 5) (s : State) : Host.Outcome State Fault Refusal := s.awake <|
  .next (s.modDsp (fun d => { d with flips := d.flips ||| bits.toNat }))

/-- DSP_FLIP_CANCEL (R457). -/
def execDspFlipCancel (bits : BitVec 5) (s : State) : Host.Outcome State Fault Refusal := s.awake <|
  .next (s.modDsp (fun d => { d with flips := d.flips &&& (31 - bits.toNat) }))

/-- DSP_MODE_APPLY (R449): the shadow timing becomes pending. -/
def execDspModeApply (s : State) : Host.Outcome State Fault Refusal := s.awake <|
  .next (s.modDsp (fun d => { d with apply := true, status := 1 }))

/-- Lines of memory that a layer reads in turn, with what the stack returns for each: bytes, the first bad status, and the
operands left. -/
def State.dspRead (s : State) (port a : Nat) : Nat → List (Fin 4) → List Byte × Nat × List (Fin 4) × State
  | 0, outs => ([], 0, outs, s)
  | n + 1, outs =>
    let r := s.readOut port a (outs.headD 0).val
    let t := State.dspRead r.2.2 port (a + 64) n (outs.drop 1)
    (r.1 ++ t.1, if r.2.1 = 0 then t.2.1 else r.2.1, t.2.2)

/-- Cause code of a line's status: POISON 2, ADDR 3. -/
def dspCause (st : Nat) : Nat := if st = 1 then 3 else 2

/-- DSP_LINE_FETCH (R455, R456): the layer reads its next source line, luma and then chroma, three lines ahead of need. -/
def execDspLineFetch (l : Fin 4) (outs : List (Fin 4)) (s : State) : Host.Outcome State Fault Refusal := s.awake <|
  match (s.layer l).next with
  | none => .next s
  | some r =>
    let x := s.lset l
    let y := x.lineY r - 3
    let at_ := if y < 0 then (s.dsp.startNum, s.dsp.startDen) else s.lineAt (s.timing.vtotal - s.timing.vactive + y.toNat)
    let s := s.advance (if at_.2 = 0 then 0 else ceilDiv at_.1 at_.2)
    let n := ceilDiv (x.width * x.sampleSize) 64
    let ra := s.dspRead (12 + l.val) (x.ybase + r * x.pitch) n outs
    let c := x.chromaLine r
    let wantC := decide (x.format < 4) && (s.layer l).chroma.all (fun e => e.1 != c)
    let rc := if wantC then State.dspRead ra.2.2.2 (12 + l.val) (x.cbase + c * x.pitch) n ra.2.2.1 else ([], 0, [], ra.2.2.2)
    let st := if ra.2.1 = 0 then rc.2.1 else ra.2.1
    let nx := State.nextLine s x (r + 1)
    let s := rc.2.2.2.modLayer l (fun y => { y with
      next := nx
      luma := ((r, ra.1) :: y.luma).take 4
      chroma := if wantC then ((c, rc.1) :: y.chroma).take 4 else y.chroma
      bad := match y.bad with
        | some b => some b
        | none => if st = 0 then none else some (r, dspCause st) })
    .next (if l.val = 1 ∧ nx = none then s.dspUnhold else s)

/-- Layer l covers pixels of an active line whose data have not returned (R456): the source line is still to be read. -/
def State.unread (s : State) (l line : Nat) : Bool :=
  let x := s.lset l
  let d : Int := (line : Int) - x.py
  let r := (d / x.zv).toNat
  decide (0 ≤ d) && (s.layer l).next.any (fun k => decide (k ≤ r)) && decide (r < x.height)

/-- DSP_LAYER_FAULT (R456): the layer underruns on an active line, or the first pixel that uses a bad line is composed. -/
def execDspLayerFault (l : Fin 4) (underrun : Bool) (line : BitVec 12) (s : State) : Host.Outcome State Fault Refusal := s.awake <|
  let x := s.lset l
  let what : Option (Nat × Nat) := if underrun then (if s.unread l line.toNat then some (line.toNat, 1) else none) else (s.layer l).bad.map (fun b => ((x.lineY b.1).toNat, b.2))
  match what with
  | none => .next s
  | some w =>
    if ¬ s.dsp.running ∨ s.dsp.first ∨ s.dsp.blank ∨ (s.layer l).faultAt.isSome ∨ ¬ x.enable ∨ s.timing.vactive ≤ w.1 then .next s
    else
      let at_ := s.lineAt (s.timing.vtotal - s.timing.vactive + w.1)
      let s := s.advance (if at_.2 = 0 then 0 else ceilDiv at_.1 at_.2)
      let s := s.modLayer l (fun y => { y with next := none, faultAt := some w.1 })
      let s := if l.val = 1 then s.dspUnhold else s
      .next (((s.bump (R.dspFaultCount l)).dspFaultInfo l w.2 w.1).raise 210)

/-- DSP_FLIP_DONE (R459): after a counting frame start every line read of the frame before has returned. -/
def execDspFlipDone (s : State) : Host.Outcome State Fault Refusal := s.awake <|
  if s.dsp.flipDone then .next s else .next ((s.modDsp (fun d => { d with flipDone := true })).raise 209)

/-- `DSP_STATUS` (R464). -/
def State.dspStatus (s : State) : W32 :=
  pack ([(0, b2n (s.dsp.running && !s.dsp.first)), (1, b2n s.dsp.hpd), (2, b2n s.dsp.irqHpd), (3, b2n s.dsp.blank), (8, b2n s.dsp.followMiss),
    (9, b2n s.dsp.flipDone)] ++ (upTo 4).map (fun l => (4 + l, b2n (s.layer l).faultAt.isSome)))

/-- RETAIN entry (R462): the engine stops, and the link powers down. -/
def State.dspRetain (s : State) : State := s.dspStop.dspLinkTo 0

/-- RETAIN exit (R462): the engine restarts as if `enable` had just been set. -/
def State.dspResume (s : State) : State := if bit (s.reg R.dspCtrl) 0 then s.dspStart else s

end Sys2Proof.Machine
end

