-- ==== Sys2Proof/Machine/Sensor.lean ====
section
/-! DEFINITION. The sensor converter and the excitation outputs (19_sensor_converter.md). CK_SAR edges fall on multiples of
2,000 ticks (R465). -/

namespace Sys2Proof.Machine

/-- The state with the converter changed. -/
def State.modSens (s : State) (f : Sens → Sens) : State := { s with sens := f s.sens }

/-! ### Settings (R485) -/

/-- Mode: 0 OFF, 1 CONTINUOUS, 2 TRIGGERED; 3 acts as 0. -/
def State.sensMode (s : State) : Nat := s.rf R.sensSeqCtrl 0 2 % 3
/-- Index of the last entry of a pass. -/
def State.sensLast (s : State) : Nat := s.rf R.sensSeqCtrl 2 4
/-- Source code of entry e. -/
def State.entrySource (s : State) (e : Nat) : Nat := s.rf (R.sensEntry e) 0 6
/-- Sampling time in cycles, of a field value. -/
def sampOf (n : Nat) : Nat := max 2 (min 1024 n)
/-- Conversions of an entry's average (R470). -/
def State.entryAvg (s : State) (e : Nat) : Nat := 2 ^ min 8 (s.rf (R.sensEntry e) 20 4)

/-- SENS_ALERT with its cause (R484). -/
def State.sensAlert (s : State) (cause index : Nat) : State :=
  (s.setReg R.sensAlertInfo (pack [(0, cause), (3, index), (9, 1)])).raise 230

/-- A conversion that begins sampling at an edge (R465, R476). -/
def State.sensConv (s : State) (injected : Bool) (source gainExp samp avg : Nat) (toMem : Bool) (edge : Nat) : SConv :=
  let n := sampOf samp + (if s.sens.guard then s.rf R.sensSeqCtrl 15 11 else 0)
  { injected := injected, source := source, gainExp := gainExp, avg := avg, toMem := toMem, start := edge, hold := edge + 2000 * n, stop := edge + 2000 * (n + 18) }

/-! ### What runs next (R472 to R475, R480) -/

/-- The first entry from e to the last of the pass whose source is not reserved; each one passed over raises SENS_ALERT
(R469). `n` bounds the entries. -/
def State.sensEntryFrom (s : State) (e : Nat) : Nat → Option Nat × State
  | 0 => (none, s)
  | n + 1 =>
    if s.sensLast < e then (none, s)
    else if s.entrySource e < 48 then (some e, s)
    else (s.sensAlert 4 e).sensEntryFrom (e + 1) n

/-- A pass begins with entry 0, and takes the start that was latched. -/
def State.sensPass (s : State) : State :=
  s.modSens (fun x => { x with pass := true, entry := 0, done := 0, sum := 0, clamp := none, inj := false, latched := false })

/-- The sequence goes on at an edge: the entry in progress, or a new pass where the mode has one, or nothing. -/
def State.sensSeq (s : State) (edge : Nat) (full : Bool) : State :=
  let starts := !s.sens.pass && (s.sensMode == 1 || (s.sensMode == 2 && s.sens.latched))
  let s := if starts then s.sensPass else s
  if ¬ s.sens.pass then s.modSens (fun x => { x with phase := .idle })
  else
    let r := s.sensEntryFrom s.sens.entry 16
    let s := r.2
    match r.1 with
    | none => s.modSens (fun x => { x with pass := false, phase := .idle })
    | some e =>
      let w := s.reg (R.sensEntry e)
      if bit w 24 && full then s.modSens (fun x => { x with entry := e, phase := .memWait edge })
      else
        let c := s.sensConv false (fld w 0 6) (fld w 6 3) (fld w 9 11) (s.entryAvg e) (bit w 24) edge
        s.modSens (fun x => { x with entry := e, phase := .run c })

/-- At an edge the injection that has arrived goes first, else the sequence goes on. An injection of an entry with a reserved
source takes no time and writes no result (R469). -/
def State.sensRun (s : State) (edge : Nat) (full : Bool) : State :=
  match s.sens.slot with
  | some i =>
    if i.result.isNone ∧ i.edge ≤ edge then
      let e := s.rf R.sensInjCtrl 5 4
      let w := s.reg (R.sensEntry e)
      if i.mgt then
        let c := s.sensConv true i.source i.gainExp i.samp 1 false edge
        s.modSens (fun x => { x with phase := .run c })
      else if fld w 0 6 < 48 then
        let c := s.sensConv true (fld w 0 6) (fld w 6 3) (fld w 9 11) 1 (s.rf R.sensInjCtrl 9 1 == 1) edge
        s.modSens (fun x => { x with phase := .run c, slot := some { i with entry := e, source := fld w 0 6 } })
      else ((s.modSens (fun x => { x with slot := none })).sensAlert 4 e).sensSeq edge full
    else s.sensSeq edge full
  | none => s.sensSeq edge full

/-- Work that becomes due at an edge while no conversion runs: at once, or after the start-up delay of a converter that is
powered down (R473). -/
def State.sensWake (s : State) (edge : Nat) (full : Bool) : State :=
  match s.sens.phase with
  | .down => s.modSens (fun x => { x with phase := .starting (edge + 96000) })
  | .idle => s.sensRun edge full
  | _ => s

/-- Expected code of a reference check (R468). -/
def refCode (source : Nat) : Int := if source = 45 then 65536 else if source = 46 then -65536 else if source = 47 then 128000 else 0

/-- A written result of a reference check is judged (R469). -/
def State.sensRef (s : State) (source : Nat) (code : Int) : State :=
  if 44 ≤ source ∧ source < 48 ∧ 64 < (code - refCode source).natAbs then s.sensAlert 1 source else s

/-- The limits of R466: the code clamped, and the polarity of the clamp. -/
def clampCode (v : Int) : Int × Option Bool :=
  if 131071 < v then (131071, some true) else if v < -131072 then (-131072, some false) else (v, none)

/-- SENS_CONV_END (R465, R466, R470, R475, R478): the conversion ends, and what comes next begins at the same edge. -/
def execSensConvEnd (v : W32) (full : Bool) (s : State) : Host.Outcome State Fault Refusal := s.awake <|
  match s.sens.phase with
  | .run c =>
    let s := s.advance c.stop
    let k := clampCode v.toInt
    let due := alignUp (c.stop + 256) 128
    let unl := s.unlockedAt c.hold
    let s := s.modSens (fun x => { x with guard := k.2.isSome, lastEnd := c.stop })
    let s :=
      if c.injected then
        s.modSens (fun x => { x with
          inj := x.inj || (x.pass && decide (0 < x.done))
          slot := x.slot.map (fun i => if i.edge ≤ c.start then { i with result := some (k.1, k.2.isSome, c.hold, unl, due) } else i) })
      else
        let done := s.sens.done + 1
        let sum := s.sens.sum + k.1
        let clamp := if k.2.isSome then k.2 else s.sens.clamp
        if done < c.avg then s.modSens (fun x => { x with done := done, sum := sum, clamp := clamp })
        else
          let code : Int := match clamp with
            | some true => 131071
            | some false => -131072
            | none => (sum + (c.avg / 2 : Nat)) / (c.avg : Nat)
          let e := s.sens.entry
          let r := if s.sens.restart then (none, s) else s.sensEntryFrom (e + 1) 16
          let s := r.2
          let x : SRes :=
            { entry := e, code := code, ovr := clamp.isSome, inj := s.sens.inj, unlocked := unl, hold := c.hold, toMem := c.toMem
              source := c.source, due := due, last := r.1.isNone && !s.sens.restart }
          s.modSens (fun y => { y with
            results := y.results ++ [x], pass := r.1.isSome, entry := r.1.getD 0, done := 0, sum := 0, clamp := none, inj := false })
    let s := if s.sens.restart then s.modSens (fun x => { x with restart := false, pass := false }) else s
    .next (s.sensRun c.stop full)
  | _ => .next s

/-! ### Results (R470, R471, R477, R479) -/

/-- An entry of the memory ring (R479), where a ring is configured. -/
def State.sensStore (s : State) (entry : Nat) (code : Int) (ovr inj injected unl : Bool) (source prog hold : Nat) : State :=
  let size := s.rf R.sensMemSize 0 16 * 65536
  if size = 0 then s
  else
    let wr := s.reg64 R.sensMemWr
    let a := s.reg64 R.sensMemBase + wr % size
    let w1 := pack [(0, entry), (4, b2n ovr), (6, b2n inj), (7, b2n injected), (8, b2n unl), (9, source), (15, prog),
      (17, s.rf R.sensPassCount 0 15)]
    let k := s.stampAt hold
    let st := s.memStatus a 16
    let s := (s.memWords 16 a [BitVec.ofInt 32 code, w1, loW k, hiW k]).setReg64 R.sensMemWr (wr + 16)
    if st = 0 then s else s.sensAlert 3 0

/-- SENS_RESULT_WRITE (R470): the oldest result is written, delivered to cells and passed to memory; the last one of a pass
counts it (R472). -/
def execSensResultWrite (s : State) : Host.Outcome State Fault Refusal := s.awake <|
  match s.sens.results with
  | [] => .next s
  | r :: rest =>
    let s := (s.advance r.due).modSens (fun x => { x with results := rest })
    let s := s.setReg (R.sensRes r.entry) (BitVec.ofInt 32 r.code)
    let s := s.setReg (R.sensResStat r.entry) (pack [(0, b2n r.ovr), (2, b2n r.inj), (3, b2n r.unlocked), (4, s.rf R.sensPassCount 0 16)])
    let s := s.setReg64 (R.sensResTick r.entry) (s.stampAt r.hold)
    let s := s.sensorCells r.entry r.due r.code r.ovr
    let s := if r.toMem then s.sensStore r.entry r.code r.ovr r.inj false r.unlocked r.source 0 r.hold else s
    let s := s.sensRef r.source r.code
    let s := if r.ovr then s.raise 226 else s
    .next (if r.last then (s.bump R.sensPassCount).raise 224 else s)

/-- SENS_INJ_RESULT (R474, R477): the injected result is written and the slot freed; Aselm's goes to Aselm only. -/
def execSensInjResult (s : State) : Host.Outcome State Fault Refusal := s.awake <|
  match s.sens.slot with
  | some i => match i.result with
    | some (code, ovr, hold, unl, due) =>
      let s := (s.advance due).modSens (fun x => { x with slot := none })
      if i.mgt then .next (if 32 ≤ i.source ∧ i.source < 40 then s.railReading (i.source - 32) code else s)
      else
        let s := s.setReg R.sensInjRes (BitVec.ofInt 32 code)
        let s := s.setReg R.sensInjStat (pack [(0, b2n ovr), (1, 1), (2, i.prog), (4, (s.rf R.sensInjStat 4 16 + 1) % 65536)])
        let s := (s.setRegs (R.sensInjKts 0) i.kts).setReg64 R.sensInjHold (s.stampAt hold)
        let s := if s.rf R.sensInjCtrl 9 1 = 1 then s.sensStore i.entry code ovr false true unl i.source i.prog hold else s
        let s := s.sensRef i.source code
        let s := if ovr then s.raise 226 else s
        .next (s.raise 225)
    | none => .next s
  | none => .next s

/-! ### Starts and injections (R472 to R475) -/

/-- A start of a TRIGGERED sequence at elapsed tick t (R472): a pass begins, or the start is latched, or dropped. -/
def State.sensStart (s : State) (t : Nat) (full : Bool) : State :=
  if s.sensMode ≠ 2 then s
  else if s.sens.latched then (s.bump R.sensTrigDrop).raise 227
  else if s.sens.pass then s.modSens (fun x => { x with latched := true })
  else
    let s := (s.modSens (fun x => { x with latched := true })).sensWake (alignUp t 2000) full
    match s.sens.phase with
    | .starting _ => if s.sens.slot.isNone then s.sensPass else s
    | _ => s

/-- SENS_START_EVENT (R472): an occurrence of `trig_src` is a start. -/
def execSensStartEvent (full : Bool) (s : State) : Host.Outcome State Fault Refusal := s.awake <|
  let last := Assoc.get 0 s.evt.last (s.rf R.sensSeqCtrl 6 8)
  if s.sensMode = 2 ∧ s.sens.seen < last then
    let s := (s.advance (last - 1)).modSens (fun x => { x with seen := last })
    .next (s.sensStart (last - 1) full)
  else .next s

/-- SENS_POWER_DOWN (R473): the 80th edge after the last conversion ended. -/
def execSensPowerDown (s : State) : Host.Outcome State Fault Refusal := s.awake <|
  if s.sens.phase = .idle ∧ ¬ (s.rf R.sensSeqCtrl 14 1 = 1 ∧ s.sensMode ≠ 0) then
    .next ((s.advance (s.sens.lastEnd + 160000)).modSens (fun x => { x with phase := .down }))
  else .next s

/-- SENS_STARTUP_DONE (R473). -/
def execSensStartupDone (full : Bool) (s : State) : Host.Outcome State Fault Refusal := s.awake <|
  match s.sens.phase with
  | .starting r => .next ((s.advance r).sensRun r full)
  | _ => .next s

/-- SENS_MEM_WAIT_END (R480): room is free after a wait of so many cycles, and the conversion begins. -/
def execSensMemWaitEnd (cycles : BitVec 16) (s : State) : Host.Outcome State Fault Refusal := s.awake <|
  match s.sens.phase with
  | .memWait f =>
    let e := max (f + 2000 * cycles.toNat) (alignUp s.now 2000)
    .next (((s.advance e).bumpBy R.sensMemWait ((e - f) / 2000)).sensRun e false)
  | _ => .next s

/-- An injected conversion runs. -/
def SPhase.injecting : SPhase → Bool
  | .run c => c.injected
  | _ => false

/-- An accepted request acts at its edge (R475): a sampling phase is abandoned, and its entry's result will carry INJ where
sampling had begun (R471); a conversion finishes first. -/
def State.sensInjectAct (s : State) (edge : Nat) : State :=
  match s.sens.phase with
  | .run c =>
    if !c.injected && decide (edge < c.hold) then
      let began := decide (c.start < edge) || decide (0 < s.sens.done)
      let s := (s.modSens (fun x => { x with done := 0, sum := 0, clamp := none })).sensRun edge false
      s.modSens (fun x => { x with inj := x.inj || (x.pass && began && x.phase.injecting) })
    else s
  | .memWait f => (s.bumpBy R.sensMemWait ((edge - f) / 2000)).sensRun edge true
  | _ => s.sensWake edge false

/-- A request for the injection slot (R474): accepted, or dropped; at one edge Aselm's takes the slot from a trigger's. -/
def State.sensInject (s : State) (i : Inject) : State :=
  match s.sens.slot with
  | none => (s.modSens (fun x => { x with slot := some i })).sensInjectAct i.edge
  | some j =>
    let drop := (s.bump R.sensInjDrop).raise 228
    if i.mgt && !j.mgt && j.edge == i.edge && j.result.isNone then
      let s := drop.modSens (fun x => { x with slot := some i })
      match s.sens.phase with
      | .run c => if c.injected then s.sensRun c.start false else s
      | _ => s
    else drop

/-- A final trigger of program p at elapsed tick t requests an injection (R474), its KTS with `source` 8. -/
def State.sensTrigInject (s : State) (p : Nat) (kts : List W32) (t : Nat) : State :=
  let c := s.reg R.sensInjCtrl
  if bit c 0 && bit c (1 + p) && s.mode.mode != 0 then
    let k := [kts.getD 0 0, kts.getD 1 0, setFld (kts.getD 2 0) 18 4 8]
    let i : Inject := { mgt := false, source := s.entrySource (fld c 5 4), gainExp := 0, samp := 0, prog := p, kts := k, entry := fld c 5 4, edge := alignUp t 2000, result := none }
    s.sensInject i
  else s

/-- Aselm's injection request (R474). -/
def State.sensMgtAsk (s : State) (source gainExp samp : Nat) : State :=
  let i : Inject := { mgt := true, source := source, gainExp := gainExp, samp := samp, prog := 0, kts := [], entry := 0, edge := alignUp s.now 2000, result := none }
  s.sensInject i

/-- SENS_MGT_INJECT (R474): Aselm requests one conversion of a source that is not reserved. -/
def execSensMgtInject (source : BitVec 6) (gainExp : Fin 8) (samp : BitVec 11) (s : State) : Host.Outcome State Fault Refusal := s.awake <|
  if s.mgt.state = 1 ∧ s.mode.mode ≠ 0 ∧ source.toNat < 48 then .next (s.sensMgtAsk source.toNat gainExp.val samp.toNat) else .next s

/-! ### Excitation (R481, R482) -/

/-- An output. -/
def State.excOf (s : State) (k : Nat) : Exc := vget s.sens.exc k Exc.reset

/-- The state with an output changed. -/
def State.modExc (s : State) (k : Nat) (f : Exc → Exc) : State := s.modSens (fun x => { x with exc := vmod x.exc k f })

/-- Voltage at elapsed tick t: 10 V/ms is 1 mV in 8,000 ticks. -/
def Exc.mv (x : Exc) (t : Nat) : Nat :=
  let d := (t - x.since) / 8000
  if ¬ x.ramping then x.mvAt else if x.mvAt ≤ x.target then min x.target (x.mvAt + d) else max x.target (x.mvAt - d)

/-- An output slews to a setting from elapsed tick t. -/
def State.excSlew (s : State) (k mv t : Nat) : State :=
  s.modExc k (fun x => { x with on := true, ramping := x.mv t != mv, mvAt := x.mv t, target := mv, since := t })

/-- The output's `EXC_CTRLk` governs from elapsed tick t. -/
def State.excApply (old s : State) (k t : Nat) : State :=
  let was := bit (old.reg (R.excCtrl k)) 0
  let now := bit (s.reg (R.excCtrl k)) 0
  let mv := min 5000 (s.rf (R.excCtrl k) 1 13)
  if now ∧ (¬ was ∨ (s.excOf k).target ≠ mv) then s.excSlew k mv t
  else if was ∧ ¬ now then (s.excSlew k 0 t).modExc k (fun x => { x with ramping := true })
  else s

/-- EXC_RAMP_DONE (R481): the slew ends; a disabled output becomes high-impedance and its load falls (11 R304). -/
def execExcRampDone (k : Fin 4) (s : State) : Host.Outcome State Fault Refusal := s.awake <|
  let x := s.excOf k
  if ¬ x.ramping then .next s
  else
    let s := s.advance (x.since + 8000 * ((x.target - x.mvAt) + (x.mvAt - x.target)))
    let s := s.modExc k (fun x => { x with ramping := false, mvAt := x.target })
    if bit (s.reg (R.excCtrl k)) 0 then .next s
    else .next ((s.modExc k (fun x => { x with on := false, limit := false })).loadFall { Units.zero with conv := 1 })

/-- EXC_LIMIT (R482). -/
def execExcLimit (k : Fin 4) (s : State) : Host.Outcome State Fault Refusal := s.awake <|
  if (s.excOf k).on ∧ ¬ (s.excOf k).limit then .next ((s.modExc k (fun x => { x with limit := true })).raise 229) else .next s

/-- EXC_LIMIT_END (R482). -/
def execExcLimitEnd (k : Fin 4) (s : State) : Host.Outcome State Fault Refusal := s.awake <| .next (s.modExc k (fun x => { x with limit := false }))

/-- `EXC_STATUSk` (R485). -/
def State.excStatus (s : State) (k : Nat) : W32 :=
  let x := s.excOf k
  pack [(0, b2n x.on), (1, b2n x.ramping), (2, b2n x.limit), (3, x.mv s.now)]

/-! ### Changes, modes and resets (R478, R483) -/

/-- Every entry's STALE is set. -/
def State.sensStale (s : State) : State := (upTo 16).foldl (fun s e => s.setRf (R.sensResStat e) 1 1 1) s

/-- An idle or powered-down converter in CONTINUOUS begins at the first edge from b. -/
def State.sensKick (s : State) (b : Nat) : State := if s.sensMode = 1 then s.sensWake (alignUp b 2000) false else s

/-- What a commit at elapsed boundary b does here; `start`: SENS_CMD.start was staged. A change of the memory ring while
`mode` is not OFF is discarded (R479). -/
def State.sensCommit (old s : State) (b : Nat) (start : Bool) : State :=
  let ringChanged := decide (old.reg64 R.sensMemBase ≠ s.reg64 R.sensMemBase) || decide (old.reg R.sensMemSize ≠ s.reg R.sensMemSize)
  let s := if ringChanged then
      if old.sensMode ≠ 0 then ((s.setReg64 R.sensMemBase (old.reg64 R.sensMemBase)).setReg R.sensMemSize (old.reg R.sensMemSize)).sensAlert 2 0
      else (s.setReg64 R.sensMemWr 0).tapRestart 4 0
    else s
  let changed := decide (fld (old.reg R.sensSeqCtrl) 0 14 ≠ fld (s.reg R.sensSeqCtrl) 0 14) ||
    (upTo 16).any (fun e => decide (old.reg (R.sensEntry e) ≠ s.reg (R.sensEntry e)))
  let s := if changed then
      let s := s.sensStale.modSens (fun x => { x with latched := false, seen := max x.seen b })
      match s.sens.phase with
      | .run _ => s.modSens (fun x => { x with restart := true })
      | .starting _ => s.modSens (fun x => { x with pass := false })
      | .memWait f => ((s.bumpBy R.sensMemWait ((alignUp b 2000 - f) / 2000)).modSens (fun x => { x with pass := false, phase := .idle })).sensWake (alignUp b 2000) false
      | _ => (s.modSens (fun x => { x with pass := false })).sensKick b
    else s
  let s := if start then s.sensStart b false else s
  (upTo 4).foldl (fun s k => State.excApply old s k b) s

/-- `SENS_SEQ_STATUS` (R485). -/
def State.sensStatus (s : State) : W32 :=
  let x := s.sens
  let st := match x.phase with
    | .run _ => 4
    | .starting _ => 3
    | .memWait _ => 1
    | .idle => if s.sensMode = 0 then 0 else 1
    | .down => if s.sensMode = 0 then 0 else 2
  pack [(0, st), (3, x.entry), (7, b2n x.latched), (8, b2n x.slot.isSome), (9, b2n x.phase.injecting)]

/-- The pass and any injection end without results; in RETAIN the converter is powered down. -/
def State.sensEnd (s : State) (retain : Bool) : State :=
  s.modSens (fun x => { Sens.reset with
    phase := if retain || x.phase == .down then .down else .idle, guard := x.guard && retain
    exc := x.exc, lastEnd := s.now, seen := x.seen })

/-- Excitation outputs are disabled as if `enable` had been cleared. -/
def State.excOff (s : State) : State :=
  (upTo 4).foldl (fun s k =>
    let s := s.setRf (R.excCtrl k) 0 1 0
    if (s.excOf k).on then (s.excSlew k 0 s.now).modExc k (fun x => { x with ramping := true }) else s) s

/-- RETAIN entry (R483). -/
def State.sensRetain (s : State) : State := (s.sensEnd true).excOff

/-- RETAIN exit (R483): STALE is set, and a CONTINUOUS sequence begins at entry 0. -/
def State.sensResume (s : State) : State :=
  let s := s.sensStale.modSens (fun x => { x with seen := max x.seen s.now })
  s.sensKick s.now

/-- Datapath soft reset (R483): registers at their reset values but `SENS_ALERT_INFO`, outputs disabled, mode OFF. -/
def State.sensDpReset (s : State) : State :=
  let s := s.excOff.sensEnd false
  s.resetRegs (fun a => decide (0x600000 ≤ a) && decide (a < 0x601000) && a != R.sensAlertInfo)

/-- A management reset drops a pending management injection (R483). -/
def State.sensMgtReset (s : State) : State :=
  match s.sens.slot with
  | some i => if i.mgt then s.modSens (fun x => { x with slot := none }) else s
  | none => s

end Sys2Proof.Machine
end

