-- ==== Sys2Proof/Machine/MgtCal.lean ====
section
/-! DEFINITION. What Aselm runs on the data plane: the service of mailbox requests, table installs, foreground calibration,
eye sweeps and self-tests (20 R490, R491; 05 R144 to R149; 15 R387, R389). -/

namespace Sys2Proof.Machine

/-! ### Service (R26, R490, R491) -/

/-- The request that Aselm serves next: the first occupied slot, not yet taken, after the one served last (R26). -/
def State.nextSlot (s : State) : Option Nat :=
  ((List.range 17).map (fun i => (s.mgt.last + 1 + i) % 17)).find? (fun k => (s.mslot k).full && !(s.mslot k).running)

/-- Aselm serves requests, or, in RECOVERY, the boot ROM does (R508). -/
def State.mgtServes (s : State) : Bool := s.mgt.state == 1 || s.mgt.state == 3

/-- Commands that the boot ROM serves in RECOVERY: GET_INFO and the update commands (R508). -/
def inRecovery (cmd : Nat) : Bool := cmd == 0x01 || (decide (0x20 ≤ cmd) && decide (cmd ≤ 0x25))

/-- Bits of an argument word that the command's table leaves unused are 0 (R491). -/
def argOnly (w : W32) (mask : Nat) : Bool := w &&& ~~~ (BitVec.ofNat 32 mask) == 0

/-- What a command comes to: an answer, or work that goes on. -/
inductive MgtEnd where
  | done (s : State) (status : Nat) (ws : List W32)
  | runs (s : State)

/-- The command of a row is served (R491): it is the next slot's command; slots and arguments are checked in order; then
`body` gives what it comes to. -/
def State.serve (s : State) (cmd : Nat) (slot0 : Bool) (argsOk : MSlot → Bool) (body : State → MSlot → MgtEnd) : State :=
  if ¬ s.mgtServes then s
  else match s.nextSlot with
  | none => s
  | some k =>
    let x := s.mslot k
    if x.cmd ≠ cmd then s
    else
      let s := s.modMgt (fun m => { m with last := k })
      if slot0 ∧ k ≠ 0 then s.mgtAnswer k 4 []
      else if fld (x.arg 0) 8 8 ≠ 0 ∨ ¬ argsOk x then s.mgtAnswer k 3 []
      else if s.mgt.state = 3 ∧ ¬ inRecovery cmd then s.mgtAnswer k 11 []
      else
        let s := s.modSlot k (fun x => { x with running := true })
        match body s x with
        | .done s st ws => s.mgtAnswer k st ws
        | .runs s => s

/-- Command codes that R491 defines. -/
def mgtDefined (cmd : Nat) : Bool :=
  (decide (1 ≤ cmd) && decide (cmd ≤ 6)) || (decide (0x10 ≤ cmd) && decide (cmd ≤ 0x16)) || (decide (0x20 ≤ cmd) && decide (cmd ≤ 0x27))

/-- BAD_CMD (R491): the next request's command is undefined. -/
def execBadCmd (s : State) : Host.Outcome State Fault Refusal := s.clocked <|
  if ¬ s.mgtServes then .next s
  else match s.nextSlot with
  | none => .next s
  | some k => if mgtDefined (s.mslot k).cmd then .next s else .next ((s.modMgt (fun m => { m with last := k })).mgtAnswer k 2 [])

/-- The mode is RETAIN (21 R524). -/
def State.inRetain (s : State) : Bool := s.mode.mode == 0

/-! ### Aselm's memory port (R491) -/

/-- The first of `n` lines from a line address that does not complete OK. -/
def State.firstBad (s : State) (a n : Nat) : Option Nat := (List.range n).find? (fun i => s.lineStatus (a + 64 * i) != 0)

/-- Bytes that Aselm writes from DPA `a` through the MGT port, up to the first line that does not complete OK, which ends the
command; answers whether every line completed OK. -/
def State.mgtPut (s : State) (a : Nat) (bs : List Byte) : Bool × State :=
  match s.firstBad (a / 64 * 64) ((a % 64 + bs.length + 63) / 64) with
  | none => (true, s.memPut 18 a bs)
  | some i => (false, s.memPut 18 a (bs.take ((i + 1) * 64 - a % 64)))

/-- Lines that Aselm reads from a line address through the MGT port: their bytes, and the effects of each. -/
def State.mgtLines (s : State) : Nat → Nat → List Byte × State
  | 0, _ => ([], s)
  | k + 1, a =>
    let r := s.getLine 18 a
    let q := r.2.2.mgtLines k (a + 64)
    (r.1 ++ q.1, q.2)

/-- `n` bytes that Aselm reads from DPA `a`, up to the first line that does not complete OK: the bytes, or none. -/
def State.mgtGet (s : State) (a n : Nat) : Option (List Byte) × State :=
  let k := (a % 64 + n + 63) / 64
  match s.firstBad (a / 64 * 64) k with
  | none => let r := s.mgtLines k (a / 64 * 64); (some ((r.1.drop (a % 64)).take n), r.2)
  | some i => (none, (s.mgtLines (i + 1) (a / 64 * 64)).2)

/-! ### Table installs (01 R27, 05 R127, 06 R166, 08 R217) -/

/-- The factory table of a slice and full scale: offset, gain, skew. -/
def factoryTable (sl f : Nat) : W32 × W32 × W32 :=
  (Config.factory 0 ((sl * 2 + f) * 3), Config.factory 0 ((sl * 2 + f) * 3 + 1), Config.factory 0 ((sl * 2 + f) * 3 + 2))

/-- The table that an install gives a slice: the last saved one, else the factory's (R147). -/
def State.installTable (s : State) (sl f : Nat) : W32 × W32 × W32 :=
  match s.mgt.saved.find? (fun e => e.1 == sl && e.2.1 == f) with
  | some e => e.2.2
  | none => factoryTable sl f

/-- Coefficients of an input's default sets, full scale 0 then 1, spans 1, 2, 4 (R166). -/
def State.setEqs (s : State) (n : Nat) (c : Nat → W32) : State :=
  (upTo 6).foldl (fun s i =>
    let f := i / 3
    let span := i % 3
    let first := f * 81 + (if span = 0 then 0 else if span = 1 then 47 else 70)
    (upTo (eqTaps span)).foldl (fun s k => s.setReg (eqAddr n span f k) (c (first + k) &&& 0x3FFFF)) s) s

/-- The default equalisers that an install gives an input: those last saved, else the factory's. -/
def State.installEqs (s : State) (n : Nat) : State :=
  match s.mgt.savedEqs.find? (fun e => e.1 == n) with
  | some e => s.setEqs n (fun i => e.2.getD i 0)
  | none => s.setEqs n (fun i => Config.factory 2 (n * 162 + i))

/-- Both full scales' tables of the slices of input n are installed at elapsed boundary b (R27); `bad` names the slices whose new tables fail
their check (05 R127). -/
def State.installInput (s : State) (bad : BitVec 24) (n b : Nat) : State :=
  let s := (upTo 6).foldl (fun s i =>
    let sl := 3 * n + i / 2
    let t := s.installTable sl (i % 2)
    let s := s.newTable sl (bad.getLsbD sl) (i % 2) t.1 t.2.1 t.2.2 0 (s.countAt b)
    if bad.getLsbD sl then s else s.modSlice sl (fun x => { x with tablesLost := false })) s
  s.installEqs n

/-- The factory bin tables of the timer's units are installed (08 R216, R217). -/
def State.installBins (s : State) : State :=
  (upTo 10).foldl (fun s k => s.modUnit k (fun u => u.install ((upTo 512).map (fun i =>
    let t := Config.factory 1 (k * 512 + i) &&& 0x7FFFFF
    (t, ~~~ t))))) s

/-- TABLE_INSTALL (R27, R149, R491); `bad` names the slices whose new tables fail their check (05 R127). -/
def execTableInstall (bad : BitVec 24) (s : State) : Host.Outcome State Fault Refusal := s.clocked <|
  .next (s.serve 0x11 false (fun x => argOnly (x.arg 1) 0x1FF && decide (fld (x.arg 1) 0 8 < 2 ^ s.inputs)) (fun s x =>
    let mask := fld (x.arg 1) 0 8
    if s.mode.mode ≠ 1 ∧ s.mode.mode ≠ 5 then .done s 5 []
    else if s.fg.phase = 2 ∧ mask &&& s.fg.mask ≠ 0 then .done s 6 []
    else
      let b := s.boundary
      let s := ((bitsOf 8 mask).foldl (fun s n => s.installInput bad n b) (s.advance b)).reload b
      .done (if bit (x.arg 1) 8 then s.installBins else s) 0 []))

/-! ### Foreground calibration (R144 to R148) -/

/-- The mask extended to every input whose slices serve the same signal as a named input (R144). -/
def State.fgCovered (s : State) (mask : Nat) : Nat :=
  (upTo 8).foldl (fun m n => if (upTo 8).any (fun i => mask.testBit i && s.headOf i == s.headOf n) then m + 2 ^ n else m) 0

/-- FG_CAL (R144, R145): the request asks for its permit. -/
def execFgCal (s : State) : Host.Outcome State Fault Refusal := s.clocked <|
  .next (s.serve 0x10 false (fun x => argOnly (x.arg 1) 0x1FF && decide (fld (x.arg 1) 0 8 ≠ 0) && decide (fld (x.arg 1) 0 8 < 2 ^ s.inputs)) (fun s x =>
    let mask := s.fgCovered (fld (x.arg 1) 0 8)
    let ins := bitsOf 8 mask
    if s.mode.mode ≠ 5 then .done s 5 []
    else if s.fg.phase ≠ 0 ∨ ins.any (fun n => s.headOf n == n && (bit (s.reg R.recArm) n || s.churnOn n)) then .done s 6 []
    else
      let fg : FgCal :=
        { phase := 1, mask := mask, save := bit (x.arg 1) 8, todo := ins, step := 0, due := s.now + 8000000000, formed := [], eqs := []
          heads := ins.filter (fun n => s.headOf n == n) }
      .runs (({ s with fg := fg }).askPermit 17 6 { core := 20, conv := 16, hbm0 := 0, hbm1 := 0 } none)))

/-- FG_CAL_PERMIT_DENIED (R145): the permit is not granted within 100 ms. -/
def execFgCalPermitDenied (s : State) : Host.Outcome State Fault Refusal := s.clocked <|
  if s.fg.phase = 1 then
    let s := (s.advance s.fg.due).dropPermit 17 6
    .next (({ s with fg := FgCal.reset }).mgtAnswerCmd 0x10 7 [])
  else .next s

/-- Length of a step of an input in ms (R146). -/
def fgStepMs (step : Nat) : Nat := [200, 5, 300, 200, 120, 140, 10, 100].getD step 0

/-- FG_CAL_STEP_DONE (R146): a step ends and the next one, or the next input, begins. `vals` are what the step formed: in step
5 the coefficients of the input's default sets, in step 6 offset, gain and skew of its three slices in both full scales; `bad` names those
tables of step 6 that fail their check and are dropped (R127). -/
def execFgCalStepDone (vals : List W32) (bad : BitVec 6) (s : State) : Host.Outcome State Fault Refusal := s.awake <|
  if s.fg.phase ≠ 2 ∨ s.fg.step = 7 then .next s
  else
    let s := s.advance s.fg.due
    let g := s.fg
    let n := g.todo.headD 0
    let s := if g.step = 6 then ((upTo 6).filter bad.getLsbD).foldl (fun s i => s.calAlert (s.headOf n) 5 (3 * n + i / 2)) s else s
    let formed := if g.step = 6 then g.formed ++ ((upTo 6).filter (fun i => !bad.getLsbD i)).map (fun i =>
      (3 * n + i / 2, i % 2, vals.getD (3 * i) 0, vals.getD (3 * i + 1) 0, vals.getD (3 * i + 2) 0)) else g.formed
    let eqs := if g.step = 5 then g.eqs ++ [(n, vals)] else g.eqs
    let todo := if g.step = 6 then g.todo.drop 1 else g.todo
    let step := if g.step = 6 then (if todo = [] then 7 else 1) else g.step + 1
    let s := s.modMgt (fun m => { m with fgOpen := m.fgOpen.map (fun o => (o.1, min step 6)) })
    .next { s with fg := { g with formed := formed, eqs := eqs, todo := todo, step := step, due := g.due + fgStepMs step * 80000000 } }

/-- The permit of the foreground calibration is released (R147, R148). -/
def State.fgRelease (s : State) : State := (s.loadFall { core := 20, conv := 16, hbm0 := 0, hbm1 := 0 }).dropPermit 17 6

/-- FG_CAL_INSTALL (R147): the tables of all covered inputs become current together; the signals' schedule origins move. -/
def execFgCalInstall (s : State) : Host.Outcome State Fault Refusal := s.awake <|
  if s.fg.phase = 2 ∧ s.fg.step = 7 then
    let b := alignUp s.fg.due 128
    let s := s.advance b
    let g := s.fg
    let s := g.formed.foldl (fun s e => s.modSlice e.1 (fun x => { (x.install e.2.1 e.2.2.1 e.2.2.2.1 e.2.2.2.2 1 (s.countAt b)) with tablesLost := false })) s
    let s := g.eqs.foldl (fun s e => s.setEqs e.1 (fun i => e.2.getD i 0)) s
    let s := (g.heads.foldl (fun s h => if (s.inp h).running then s.setOrigin h b else s) s).reload b
    let s := if g.save then s.modMgt (fun m => { m with
        saved := g.formed ++ m.saved.filter (fun e => !g.formed.any (fun f => f.1 == e.1 && f.2.1 == e.2.1))
        savedEqs := g.eqs ++ m.savedEqs.filter (fun e => !g.eqs.any (fun f => f.1 == e.1)) }) else s
    let s := (({ s with fg := FgCal.reset }).fgRelease.cairnRecord 0x103 g.mask pathPkg).modMgt (fun m => { m with fgOpen := none })
    .next (s.mgtAnswerCmd 0x10 0 [BitVec.ofNat 32 g.mask])
  else .next s

/-- A running foreground calibration ends as ABORTED (R148): the tables formed are discarded, and the covered signals return
at the next vector boundary with two settle vectors. Aselm records it unless a restart or cold reset keeps it from it. -/
def State.fgAbort (s : State) (recorded : Bool) : State :=
  let g := s.fg
  if g.phase = 0 then s
  else if g.phase = 1 then (({ s with fg := FgCal.reset }).dropPermit 17 6).mgtAnswerCmd 0x10 8 [BitVec.ofNat 32 g.mask, 0]
  else
    let b := boundaryAfter s.now
    let s := g.heads.foldl (fun s h => s.modInput h (fun x =>
      let k := if x.next ≤ s.now + 32768 then (s.now + 32768 - x.next) / s.rotInterval h + 1 else 0
      { x with settleEnd := b + 256, next := x.next + k * s.rotInterval h })) s
    let s := ({ s with fg := FgCal.reset }).fgRelease
    let s := if recorded then (s.cairnRecord 0x104 (g.mask + min g.step 6 * 256) pathPkg).modMgt (fun m => { m with fgOpen := none }) else s
    s.mgtAnswerCmd 0x10 8 [BitVec.ofNat 32 g.mask, BitVec.ofNat 32 (min g.step 6)]

/-! ### Timer calibration (R218) -/

/-- TMR_CAL (R218, R491). -/
def execTmrCal (s : State) : Host.Outcome State Fault Refusal := s.clocked <|
  .next (s.serve 0x12 false (fun x => argOnly (x.arg 1) 0x3FF) (fun s x =>
    if s.tmr.cal.phase ≠ 0 then .done s 1 [s.tmrCalStatus]
    else
      let s := s.tmrCalAsk (fld (x.arg 1) 0 10) s.now true
      if s.tmr.cal.phase = 0 then .done s 20 [s.tmrCalStatus] else .runs s))

/-! ### Configured memory (01 R28; 05 R149; 15 R383) -/

/-- The configured regions (15 R383): code, base DPA and size in bytes, in ascending code. -/
def State.regions (s : State) : List (Nat × Nat × Nat) :=
  (upTo 8).filterMap (fun n => if s.ringSize n = 0 then none else some (n, s.ringBase n, s.ringSize n)) ++
  (upTo 8).filterMap (fun n => if s.ringSize n = 0 then none else some (8 + n, s.flagBase n, s.flagSize n)) ++
  (upTo 4).filterMap (fun p => if bit (s.reg (R.dirCtrl p)) 0 then some (16 + p, s.dirBase p, 2 ^ s.dirExp p * 64) else none) ++
  (upTo 8).filterMap (fun n => if bit (s.reg (R.churnSnapCtrl n)) 0 then some (20 + n, s.pageBase n, 2 ^ 25) else none) ++
  (if s.tmrDest.2 then [(28, s.reg64 R.tmrMemBase / 65536 * 65536, s.rf R.tmrMemSize 0 16 * 65536)] else [])

/-- Memory that a program or the host has configured as a ring, directory or churn page (R149): the regions of R383 and the
sensor ring, as DPA and length. -/
def State.mapped (s : State) : List (Nat × Nat) :=
  (s.reg64 R.sensMemBase / 65536 * 65536, s.rf R.sensMemSize 0 16 * 65536) :: s.regions.map (·.2)

/-- The bytes of a layer's image from its base on, as display buffers (18 R450). -/
def State.dspBuffers (s : State) : List (Nat × Nat) :=
  (upTo 4).flatMap (fun l =>
    let x := s.lset l
    if x.enable then [(x.ybase, x.pitch * x.height), (x.cbase, if x.format ≤ 1 then 0 else x.pitch * x.height)] else [])

/-- Some of n bytes from a DPA lies in a ring, directory, Churn page or display buffer (01 R28). -/
def State.configured (s : State) (a n : Nat) : Bool :=
  (s.mapped ++ s.dspBuffers).any (fun r => decide (a < r.1 + r.2) && decide (r.1 < a + n))

/-! ### Eye sweeps (15 R387) -/

/-- EYE_SWEEP (R387, R491): in SERVICE only; one sweep at a time. -/
def execEyeSweep (s : State) : Host.Outcome State Fault Refusal := s.clocked <|
  .next (s.serve 0x13 false (fun x => argOnly (x.arg 1) 0x7F && decide (fld (x.arg 1) 0 1 < s.nStacks)) (fun s x =>
    let w := x.arg 1
    if s.mode.mode ≠ 5 then .done s 5 []
    else if s.mem.sweep.isSome then .done s 6 []
    else
      let sw : Sweep :=
        { chan := fld w 0 1 * 16 + fld w 1 4, apply := bit w 5, save := bit w 6, steps := 0, inStep := false, at_ := s.now, found := [] }
      .runs { s with mem := { s.mem with sweep := some sw } }))

/-- The state with the sweep changed. -/
def State.modSweep (s : State) (f : Sweep → Sweep) : State := { s with mem := { s.mem with sweep := s.mem.sweep.map f } }

/-- EYE_SWEEP_STEP_START (R387): after at least 2 µs of service the next of at most 1,024 steps holds the channel. -/
def execEyeSweepStepStart (s : State) : Host.Outcome State Fault Refusal := s.awake <|
  match s.mem.sweep with
  | some w =>
    if w.inStep ∨ 1024 ≤ w.steps ∨ (s.hchan w.chan).held then .next s
    else
      let s := s.advance (if w.steps = 0 then w.at_ else w.at_ + 160000)
      .next ((s.holdFrom w.chan (fun h => { h with sweepHold := true })).modSweep (fun w => { w with inStep := true, at_ := s.now, steps := w.steps + 1 }))
  | none => .next s

/-- The centres that a sweep found become delays of the set of the rate in force: key and value of each. -/
def State.sweepCentres (s : State) (w : Sweep) : List (Nat × Nat) :=
  w.found.map (fun e => (((s.stack (w.chan / 16)).rate * 32 + w.chan) * 19 + e.1, (e.2.1 + e.2.2) / 2))

/-- Entries put into a table of delays. -/
def putDelays (old new : List (Nat × Nat)) : List (Nat × Nat) := new ++ old.filter (fun e => !new.any (fun f => f.1 == e.1))

/-- EYE_SWEEP_STEP_END (R387, R388): a step of at most 2 µs ends with the first and last passing setting of some delays; a rate change
that waited for it then aborts the sweep and starts; otherwise, with `end_`, the sweep ends, and its result is written at the DPA that
Aselm names, which lies in no configured memory (01 R28). -/
def execEyeSweepStepEnd (dt : BitVec 20) (found : List (Fin 19 × BitVec 7 × BitVec 7)) (end_ : Option (W64 × List Byte)) (s : State) :
    Host.Outcome State Fault Refusal := s.awake <|
  match s.mem.sweep with
  | some w =>
    if ¬ w.inStep ∨ (s.hchan w.chan).attempt ≠ 0 then .next s
    else
      let s := (s.advance (w.at_ + min 160000 dt.toNat)).holdEnd w.chan (fun h => { h with sweepHold := false })
      let got := found.map (fun (e : Fin 19 × BitVec 7 × BitVec 7) => (e.1.val, (e.2.1.toNat, e.2.2.toNat)))
      let w := { w with inStep := false, at_ := s.now, found := got ++ w.found.filter (fun e => !got.any (fun f => f.1 == e.1)) }
      if s.rateWaits (w.chan / 16) && s.mem.pendMasks.isNone then .next (({ s with mem := { s.mem with sweep := some w } }).rateGo (w.chan / 16))
      else
      match end_.filter (fun r => !s.configured r.1.toNat r.2.length) with
      | none => .next { s with mem := { s.mem with sweep := some w } }
      | some r =>
        let c := s.sweepCentres w
        let s := { s with mem := { s.mem with sweep := none, delays := if w.apply then putDelays s.mem.delays c else s.mem.delays } }
        let s := if w.save then s.modMgt (fun m => { m with flashDelays := putDelays m.flashDelays c }) else s
        let p := s.mgtPut r.1.toNat r.2
        .next (p.2.mgtAnswerCmd 0x13 (if p.1 then 0 else 16) (if p.1 then [loW r.1.toNat, hiW r.1.toNat] else []))
  | none => .next s

/-- A sweep is aborted (R387): the delays in force stay; a rate change that waited for its step starts. -/
def State.sweepAbort (s : State) : State :=
  match s.mem.sweep with
  | some w =>
    let s := if w.inStep then s.holdEnd w.chan (fun h => { h with sweepHold := false }) else s
    (({ s with mem := { s.mem with sweep := none } }).mgtAnswerCmd 0x13 8 []).rateGo (w.chan / 16)
  | none => s

/-! ### Self-tests (05 R149, 15 R389) -/

/-- Some line of a region lies in an engine of the mask. -/
def State.regionHits (s : State) (mask : Nat) (r : Nat × Nat) : Bool :=
  (List.range (r.2 / 64)).any (fun i => mask.testBit (s.place (r.1 + 64 * i)).engine)

/-- MEM_SELFTEST (R149, R389, R491). -/
def execMemSelftest (s : State) : Host.Outcome State Fault Refusal := s.clocked <|
  .next (s.serve 0x14 false (fun x => argOnly (x.arg 3) 1 && (!s.is9620 || x.arg 2 == 0)) (fun s x =>
    let mask := join (x.arg 1) (x.arg 2)
    if s.mode.mode ≠ 5 then .done s 5 []
    else if s.mem.testing ≠ 0 then .done s 6 []
    else if s.mapped.any (s.regionHits mask) then .done s 9 []
    else if mask = 0 then .done s 0 []
    else .runs { s with mem := { s.mem with testing := mask } }))

/-- The self-test ends: contents of the engines named are undefined (R389). -/
def State.selftestEnd (s : State) : State :=
  let m := s.mem.testing
  (bitsOf 64 m).foldl (fun s e => s.loseEngine e) { s with mem := { s.mem with testing := 0 } }

/-- The cell of an engine inside its stack, `die`(2 + s)`.hc`c`.pc`p`.bank`k`.cell`i (01 R33, R34). -/
def pathCell (e bank cell : Nat) : W64 := pathCode 1 (2 + e / 32) 0 0 4 (e / 2 % 16) 4 (e % 2) 4 bank cell

/-- Aselm repairs a lane of a channel (R389): the repair acts, is kept in flash, and names the channel by its path (01 R32). -/
def State.repairLane (s : State) (c lane : Nat) : State :=
  let r := (pathHc (c / 16) (c % 16), lane)
  let add := fun (l : List (W64 × Nat)) => if l.contains r then l else r :: l
  ({ s with mem := { s.mem with repairs := add s.mem.repairs } }).modMgt (fun m => { m with laneRepairs := add m.laneRepairs })

/-- MEM_SELFTEST_DONE (R389): pass or fail of each engine, and the path of the first failing cell: cell `cell` of bank `bank` of engine
`e`, of the lowest failing engine where `e` has not failed. `lane`: the lane that Aselm repairs, of failures that lie on one lane of one
channel, where the request allows it. -/
def execMemSelftestDone (pass : W64) (e : Fin 64) (bank : BitVec 4) (cell : BitVec 16) (lane : Option (BitVec 8)) (s : State) :
    Host.Outcome State Fault Refusal := s.awake <|
  let m := s.mem.testing
  if m = 0 then .next s
  else
    let p := m &&& pass.toNat
    let bad := (bitsOf 64 m).filter (fun i => !p.testBit i)
    let first := if bad.contains e.val then e.val else bad.headD 0
    let f : W64 := if p = m then 0 else pathCell first bank.toNat cell.toNat
    let allowed := (s.slotOf 0x14).any (fun k => bit ((s.mslot k).arg 3) 0)
    let s := match lane with
      | some l => if allowed && bad != [] && bad.all (fun i => i / 2 == first / 2) then s.repairLane (first / 2) l.toNat else s
      | none => s
    .next (s.selftestEnd.mgtAnswerCmd 0x14 (if p = m then 0 else 19) [loW p, hiW p, loW f.toNat, hiW f.toNat])

/-- A self-test is aborted. -/
def State.selftestAbort (s : State) : State := if s.mem.testing = 0 then s else s.selftestEnd.mgtAnswerCmd 0x14 8 []

/-- SEQ_SELFTEST (R149, R491): every core named is HALTED or FAULTED; the result is an operand. -/
def execSeqSelftest (pass : BitVec 16) (s : State) : Host.Outcome State Fault Refusal := s.clocked <|
  .next (s.serve 0x15 false (fun x => argOnly (x.arg 1) 0xFFFF) (fun s x =>
    let m := x.arg 1
    if s.inRetain then .done s 5 []
    else if (List.finRange 16).any (fun q => bit m q.val && (s.core q).run != .halted && (s.core q).run != .faulted) then .done s 10 []
    else
      let p := m &&& pass.setWidth 32
      .done s (if p = m then 0 else 19) [p]))

/-- DP_TRAIN (18 R443, R444): the link trains within the lanes and rate allowed, and ends UP, UNFIT or FAILED. -/
def execDpTrain (lanes rate : Fin 4) (pass : Bool) (s : State) : Host.Outcome State Fault Refusal := s.clocked <|
  .next (s.serve 0x16 false (fun x => argOnly (x.arg 1) 0xF && decide (fld (x.arg 1) 0 2 ≠ 3)) (fun s x =>
    if s.inRetain then .done s 11 []
    else
      let l := min lanes.val (fld (x.arg 1) 0 2)
      let r := min rate.val (fld (x.arg 1) 2 2)
      let s := (s.dspLinkTo 1).modDsp (fun d => { d with lanes := l, rate := r })
      let s := s.dspLinkTo (if ¬ pass then 5 else if s.timing.carried l r then 2 else 4)
      .done s (if pass then 0 else 19) [s.dspLinkStatus]))

end Sys2Proof.Machine
end

