-- ==== Sys2Proof/Machine/Aselm.lean ====
section
/-! DEFINITION. Aselm's flash: slot pointer, boot counter, VERIFIED records, Cairn ring, lifetime record; the update state; the
start of a management restart (20 R487, R489, R495 to R498, R505 to R511). -/

namespace Sys2Proof.Machine

/-! ### Flash (R489) -/

/-- A byte of the flash; an erased byte is 0xFF. -/
def Mgt.flashByte (m : Mgt) (a : Nat) : Byte := Assoc.get 0xFF m.flash a

/-- `n` bytes of the flash. -/
def Mgt.flashBytes (m : Mgt) (a n : Nat) : List Byte := (List.range n).map (fun i => m.flashByte (a + i))

/-- `n` words of the flash. -/
def Mgt.flashWords (m : Mgt) (a n : Nat) : List W32 := wordsOf (m.flashBytes a (4 * n))

/-- Bytes programmed into erased flash. -/
def flashPut (fl : List Host.Cell) (a : Nat) : List Byte → List Host.Cell
  | [] => fl
  | b :: r => flashPut (Assoc.put 0xFF fl a b) (a + 1) r

/-- The flash with `n` bytes erased. -/
def flashErase (fl : List Host.Cell) (a n : Nat) : List Host.Cell := fl.filter (fun c => decide (c.1 < a) || decide (a + n ≤ c.1))

/-- The state with words programmed. -/
def State.flashWords (s : State) (a : Nat) (ws : List W32) : State :=
  s.modMgt (fun m => { m with flash := flashPut m.flash a (ws.flatMap (fun w => leBytes 4 w.toNat)) })

/-- The state with a range erased. -/
def State.flashErase (s : State) (a n : Nat) : State := s.modMgt (fun m => { m with flash := Sys2Proof.Machine.flashErase m.flash a n })

/-- Offset of slot A or B (R489). -/
def slotBase (slot : Nat) : Nat := 0x1000000 + slot * 0x1000000

/-! ### Slot pointer and boot counter (R507, R508) -/

/-- The slot pointer: sequence number, active slot, flags, versions. -/
structure SlotPtr where
  seq : Nat
  slot : Nat
  prov : Bool
  incompat : Bool
  version : W32
  previous : W32

/-- A copy of the pointer, when it passes its check. -/
def Mgt.ptrCopy (m : Mgt) (k : Nat) : Option SlotPtr :=
  let ws := m.flashWords (k * 0x1000) 8
  if twinOk ws then
    let w := ws.getD 1 0
    let p : SlotPtr :=
      { seq := (ws.getD 0 0).toNat, slot := fld w 0 1, prov := bit w 1, incompat := bit w 2, version := ws.getD 2 0, previous := ws.getD 3 0 }
    some p
  else none

/-- The pointer in force; a flash without one runs slot A, confirmed (log entry 3). -/
def Mgt.ptr (m : Mgt) : SlotPtr :=
  match m.ptrCopy 0, m.ptrCopy 1 with
  | some a, some b => if a.seq < b.seq then b else a
  | some a, none => a
  | none, some b => b
  | none, none => { seq := 0, slot := 0, prov := false, incompat := false, version := 0, previous := 0 }

/-- The copy that a write replaces: one that fails its check, else that with the lower sequence number. -/
def Mgt.ptrOld (m : Mgt) : Nat :=
  match m.ptrCopy 0, m.ptrCopy 1 with
  | some a, some b => if a.seq < b.seq then 0 else 1
  | some _, none => 1
  | none, _ => 0

/-- The pointer is written with the next sequence number (R507). -/
def State.ptrWrite (s : State) (p : SlotPtr) : State :=
  let k := s.mgt.ptrOld
  let ws := twinWords [BitVec.ofNat 32 (s.mgt.ptr.seq + 1), pack [(0, p.slot), (1, b2n p.prov), (2, b2n p.incompat)], p.version, p.previous]
  (s.flashErase (k * 0x1000) 0x1000).flashWords (k * 0x1000) ws

/-- Twins of the boot counter that pass (R508). -/
def Mgt.bootCount (m : Mgt) : Nat := ((List.range 512).filter (fun i => twinOk (m.flashWords (0x2000 + 8 * i) 2))).length

/-- A count is appended to the boot counter. -/
def State.bootAppend (s : State) (n : Nat) : State :=
  match (List.range 512).find? (fun i => (s.mgt.flashWords (0x2000 + 8 * i) 2) == [0xFFFFFFFF, 0xFFFFFFFF]) with
  | some i => s.flashWords (0x2000 + 8 * i) (twinWords [BitVec.ofNat 32 n])
  | none => s

/-- The boot counter is erased. -/
def State.bootErase (s : State) : State := (s.flashErase 0x2000 0x1000).modMgt (fun m => { m with boots := 0 })

/-! ### Slots (R501, R505) -/

/-- Word at an offset of a slot. -/
def Mgt.slotWord (m : Mgt) (slot off : Nat) : W32 := (m.flashWords (slotBase slot + off) 1).getD 0 0

/-- The version of a slot's stored header, 0 if it holds none. -/
def Mgt.slotVersion (m : Mgt) (slot : Nat) : W32 := if m.slotWord slot 0 = 0x4F524C54 then m.slotWord slot 8 else 0

/-- The slot that does not hold the running image (R506). -/
def Mgt.staging (m : Mgt) : Nat := 1 - m.slot

/-- Offset of a slot's VERIFIED record (R505). -/
def verifiedAt (slot : Nat) : Nat := slotBase slot + 0xFFF000

/-- A slot holds a valid VERIFIED record. -/
def Mgt.verified (m : Mgt) (slot : Nat) : Bool := twinOk (m.flashWords (verifiedAt slot) 8)

/-! ### Lifetime (R495) -/

/-- Consumed life in ppm. -/
def Life.ppm (l : Life) : Nat :=
  let t (i : Nat) := l.bins.getD i 0
  let y := 40 * 31557600
  min 0xFFFFFFFF (max ((t 0 + t 1 + t 2 + t 3) * 1000000 / y) (max ((t 1 + t 2 + t 3) * 10000000 / (3 * y)) ((t 2 + t 3) * 20000000 / y)))

/-- Powered life in seconds. -/
def Life.seconds (l : Life) : Nat := l.bins.foldl (· + ·) 0

/-- The bin of a temperature in °C x 16. -/
def lifeBin (t : Int) : Nat := if t ≤ 1680 then 0 else if t ≤ 2000 then 1 else if t ≤ 2400 then 2 else 3

/-- The record is saved to the older of its copies. -/
def State.lifeSave (s : State) : State :=
  s.modMgt (fun m =>
    let a := m.lifeCopies.getD 0 (0, Life.reset)
    let b := m.lifeCopies.getD 1 (0, Life.reset)
    let n := max a.1 b.1 + 1
    { m with lifeCopies := if a.1 < b.1 then [(n, m.life), b] else [a, (n, m.life)] })

/-- The newer copy of the record. -/
def Mgt.lifeNewest (m : Mgt) : Life :=
  let a := m.lifeCopies.getD 0 (0, Life.reset)
  let b := m.lifeCopies.getD 1 (0, Life.reset)
  if a.1 < b.1 then b.2 else a.2

/-! ### Cairn (R496, R498) -/

/-- The words of an entry as it is written (R496). -/
def Mgt.cairnWords (m : Mgt) (r : CairnReq) : List W32 :=
  twinWords [pack [(0, r.code % 1024), (10, r.severity % 4), (12, m.boot % 16), (16, r.detail % 65536)], loW m.life.seconds,
    loW r.path.toNat, hiW r.path.toNat]

/-- An entry is written to the ring; the sector after the head stays erased. -/
def State.cairnPut (s : State) (r : CairnReq) : State :=
  let i := s.mgt.cairnNext
  let s := s.flashWords (0x300000 + 32 * i) (s.mgt.cairnWords r)
  let s := if i % 128 = 0 then s.flashErase (0x300000 + 4096 * ((i / 128 + 1) % 256)) 4096 else s
  s.modMgt (fun m => { m with cairnNext := (i + 1) % 32768 })

/-- The oldest queued entry is written, the always-on queue first; once there is room, the entries lost are recorded
(R497, R498). -/
def State.cairnStep (s : State) : State :=
  let s := match s.cairn.hw, s.cairn.fw with
    | r :: q, _ => ({ s with cairn := { s.cairn with hw := q } }).cairnPut r
    | [], r :: q => ({ s with cairn := { s.cairn with fw := q } }).cairnPut r
    | [], [] => s
  if s.cairn.lost ≠ 0 ∧ s.cairn.fw.length < 256 then
    let n := s.cairn.lost
    ({ s with cairn := { s.cairn with lost := 0 } }).cairnRecord 0x10B (min n 0xFFFF) pathPkg
  else s

/-- Both queues are written out (R510); `fuel` bounds the entries. -/
def State.cairnFlush (s : State) : Nat → State
  | 0 => s
  | n + 1 => if s.cairn.hw = [] ∧ s.cairn.fw = [] then s else s.cairnStep.cairnFlush n

/-- Bytes of entry i of the ring. -/
def Mgt.cairnBytes (m : Mgt) (i : Nat) : List Byte := m.flashBytes (0x300000 + 32 * (i % 32768)) 32

/-- Index of the newest entry; where the ring holds none the index is not stated: a free value (log entry 7). -/
def State.cairnNewest (s : State) : W32 × State :=
  let i := (s.mgt.cairnNext + 32767) % 32768
  if (s.mgt.cairnBytes i).all (· == 0xFF) then s.free else (BitVec.ofNat 32 i, s)

/-! ### Update state (R506, R509) -/

/-- The update state becomes `st`: a transition writes an UPDATE record and raises UPDATE_STATE (R509). -/
def State.updTo (s : State) (st : Nat) : State :=
  if s.mgt.upd = st then s
  else ((s.modMgt (fun m => { m with upd := st })).cairnRecord 0x101 st pathPkg).raiseMgt 235

/-- The pointer names slot `1 - slot`, confirmed: the previous image (R508, R509). -/
def State.ptrRevert (s : State) : State :=
  let p := s.mgt.ptr
  s.ptrWrite { seq := 0, slot := 1 - p.slot, prov := false, incompat := false, version := p.previous, previous := p.version }

/-! ### Restart (R487, R510) -/

/-- The arbiter grants no new entry while a restart runs or the throttle is on (R306, R494). -/
def State.permitsHold (s : State) : State :=
  { s with permits := { s.permits with hold := s.mgt.state == 2 || s.mgt.throttle } }

/-- A management restart starts (R487): cause 1 watchdog, 2 host, 3 activation, 4 revert. An orderly one first saves the
lifetime record and writes out Cairn. Foreground calibration, sweep and self-test are aborted, a management injection is
dropped; the requests in the slots wait for their BUSY. Ignored while one runs or the device boots. -/
def State.mgtRestart (s : State) (cause : Nat) : State :=
  if s.mgt.state = 0 ∨ s.mgt.state = 2 then s
  else
    let s := if cause = 1 then s else (s.lifeSave).cairnFlush 1024
    let s := (s.modMgt (fun m => { m with
      state := 2, started := false, cause := cause, due := s.now + 32000000000, cosignHead := none })).permitsHold
    let s := ((s.fgAbort false).sweepAbort).selftestAbort.sensMgtReset
    let s := { s with tmr := { s.tmr with cal := { s.tmr.cal with byMgt := false } } }
    let s := s.raise 234
    if cause = 1 then s.raise 245 else s

end Sys2Proof.Machine
end

