-- ==== Sys2Proof/Machine/Mailbox.lean ====
section
/-! DEFINITION. The other mailbox commands (20 R491 to R493, R495, R496, R499, R501 to R512). -/

namespace Sys2Proof.Machine

/-- The hottest die sensor and its id, the lowest of equals: °C x 16. -/
def Mgt.hottest (m : Mgt) : Int × Nat :=
  (List.range 32).foldl (fun (b : Int × Nat) i => if b.1 < m.temps.getD i 0 then (m.temps.getD i 0, i) else b) (m.temps.getD 0 0, 0)

/-- GET_INFO (R491). -/
def execGetInfo (s : State) : Host.Outcome State Fault Refusal := s.clocked <|
  .next (s.serve 0x01 false (fun _ => true) (fun s _ =>
    let m := s.mgt
    .done s 0 [m.version, m.slotVersion m.staging, pack [(0, m.epoch), (8, b2n m.cosign.isSome)], Config.serial 0, Config.serial 1]))

/-- A reading of R493: the value word and whether it is valid. -/
def State.sensorValue (s : State) (id : Nat) : W32 × Bool :=
  if id < 32 then (BitVec.ofInt 32 (s.mgt.temps.getD id 0), true)
  else if id < 34 then
    let x := s.stack (id - 32)
    if id - 32 < s.nStacks ∧ x.lastRead.isSome then (BitVec.ofInt 32 (((x.temp : Int) - 64) * 16), true) else (0, false)
  else (BitVec.ofNat 32 (s.mgt.rails.getD (id - 34) 0), true)

/-- SENSOR_READ (R493). -/
def execSensorRead (s : State) : Host.Outcome State Fault Refusal := s.clocked <|
  .next (s.serve 0x02 false (fun x => decide ((x.arg 1).toNat < 42)) (fun s x =>
    let v := s.sensorValue (x.arg 1).toNat
    .done s 0 [v.1, BitVec.ofNat 32 (b2n v.2)]))

/-- CAIRN_COPY (R491, R496): entries from the first index, wrapping, as the ring holds them. -/
def execCairnCopy (s : State) : Host.Outcome State Fault Refusal := s.clocked <|
  .next (s.serve 0x03 false (fun x => decide ((x.arg 1).toNat < 32768) && decide (1 ≤ (x.arg 2).toNat) && decide ((x.arg 2).toNat ≤ 32768) &&
      decide (join (x.arg 3) (x.arg 4) % 64 = 0)) (fun s x =>
    if s.inRetain then .done s 11 []
    else
      let i := (x.arg 1).toNat
      let n := (x.arg 2).toNat
      let p := s.mgtPut (join (x.arg 3) (x.arg 4)) ((List.range n).flatMap (fun k => s.mgt.cairnBytes (i + k)))
      if p.1 then
        let h := p.2.cairnNewest
        .done h.2 0 [h.1, BitVec.ofNat 32 n]
      else .done p.2 16 []))

/-- LIFETIME_COPY (R491, R495): the 32 KiB of the record, whose layout the spec does not give: free bytes (log entry 7). -/
def execLifetimeCopy (s : State) : Host.Outcome State Fault Refusal := s.clocked <|
  .next (s.serve 0x04 false (fun _ => true) (fun s x =>
    if s.inRetain then .done s 11 []
    else
      let k := s.freeCtr
      let p := ({ s with freeCtr := k + 1 }).mgtPut (join (x.arg 1) (x.arg 2)) ((List.range 32768).map (Config.lostByte k))
      if p.1 then .done p.2 0 [BitVec.ofNat 32 s.mgt.life.ppm] else .done p.2 16 []))

/-- SETTINGS_GET (R499, R511): an item's stored value, or its reset value while the store cannot be read. -/
def execSettingsGet (s : State) : Host.Outcome State Fault Refusal := s.clocked <|
  .next (s.serve 0x05 false (fun x => decide ((x.arg 1).toNat < 8)) (fun s x =>
    let i := (x.arg 1).toNat
    .done s 0 [if s.mgt.incompatible then setDefaults.getD i 0 else s.mgt.newest.items.getD i 0]))

/-- The range of an item (R499). -/
def settingOk (i v : Nat) : Bool :=
  if i = 0 then v < 65536
  else if i = 1 then 8 ≤ v && v ≤ 0x77
  else if i = 2 then 1 ≤ v && v ≤ 60
  else if i = 3 then v == 0 || (10 ≤ v && v ≤ 600)
  else if i = 4 then v ≤ 1
  else if i = 5 then 60 ≤ v && v ≤ 139
  else if i = 6 then 10 ≤ v && v ≤ 100
  else i == 7

/-- A copy replaces the older one of the store (R499). -/
def setsPut (sets : List SetCopy) (c : SetCopy) : List SetCopy :=
  match sets with
  | [a, b] => if a.seq < b.seq then [c, b] else [a, c]
  | _ => [c, c]

/-- SETTINGS_SET (R499, R511): the older copy is written with the next sequence number. -/
def execSettingsSet (flash : Bool) (s : State) : Host.Outcome State Fault Refusal := s.clocked <|
  .next (s.serve 0x06 true (fun x => settingOk (x.arg 1).toNat (x.arg 2).toNat) (fun s x =>
    if s.mgt.incompatible then .done s 11 []
    else if ¬ flash then .done s 17 []
    else
      let m := s.mgt
      let c : SetCopy := { seq := m.newest.seq + 1, schema := m.schema, items := modAt m.newest.items (x.arg 1).toNat (fun _ => x.arg 2) }
      .done (s.modMgt (fun m => { m with sets := setsPut m.sets c })) 0 []))

/-! ### Update (R501 to R512) -/

/-- UPD_BEGIN (R506): the staging slot is erased. A package holds at least its header and signature block and leaves the slot's
last sector free. -/
def execUpdBegin (flash : Bool) (s : State) : Host.Outcome State Fault Refusal := s.clocked <|
  .next (s.serve 0x20 true (fun x => decide (512 ≤ (x.arg 1).toNat) && decide ((x.arg 1).toNat ≤ 0xFFF000)) (fun s x =>
    if s.mgt.upd = 4 then .done s 11 []
    else if ¬ flash then .done s 17 []
    else
      let k := s.mgt.staging
      let s := (s.flashErase (slotBase k) 0x1000000).modMgt (fun m => { m with pkgLen := (x.arg 1).toNat, received := 0 })
      .done (s.updTo 1) 0 [BitVec.ofNat 32 k]))

/-- Bytes of a forerunner chunk as they are stored (R503): the image's bytes encrypted with the key that the slot's
initialisation vector names. -/
def encryptChunk (key imgLen off : Nat) (bs : List Byte) : List Byte :=
  (bs.zip (List.range bs.length)).map (fun (e : Byte × Nat) =>
    let o := off + e.2
    if 256 ≤ o ∧ o < 256 + imgLen then Config.cipher key o e.1 else e.1)

/-- A received chunk goes to the staging slot (R502, R503). -/
def State.chunkStore (s : State) (off : Nat) (bs : List Byte) : State :=
  let base := slotBase s.mgt.staging
  let put (s : State) (a : Nat) (b : List Byte) : State := s.modMgt (fun m => { m with flash := flashPut m.flash a b })
  if off = 0 then
    if bs.getD 6 0 = 2 then
      let k := s.freeCtr
      let iv := [Config.freeWord k, Config.freeWord (k + 1), Config.freeWord (k + 2)]
      let len := ofBytes ((bs.drop 12).take 4)
      let hdr := bs.take 6 ++ [3] ++ (bs.drop 7).take 13 ++ leBytes 4 (Config.serial 0).toNat ++ leBytes 4 (Config.serial 1).toNat ++
        iv.flatMap (fun w => leBytes 4 w.toNat) ++ (bs.drop 40).take 216
      put { s with freeCtr := k + 3 } base (hdr ++ (encryptChunk (Config.freeWord k).toNat len 0 bs).drop 256)
    else put s base bs
  else if (s.mgt.slotWord s.mgt.staging 4).toNat / 65536 % 256 = 3 then
    put s (base + off) (encryptChunk (s.mgt.slotWord s.mgt.staging 28).toNat (s.mgt.slotWord s.mgt.staging 12).toNat off bs)
  else put s (base + off) bs

/-- The authentication tag of a forerunner image is stored with the last chunk (R503): a free value (log entry 7). -/
def State.tagStore (s : State) : State :=
  if (s.mgt.slotWord s.mgt.staging 4).toNat / 65536 % 256 = 3 then
    let k := s.freeCtr
    ({ s with freeCtr := k + 4 }).flashWords (slotBase s.mgt.staging + 40) [Config.freeWord k, Config.freeWord (k + 1), Config.freeWord (k + 2), Config.freeWord (k + 3)]
  else s

/-- UPD_CHUNK (R506): chunks in ascending order, 65,536 bytes each but the last. -/
def execUpdChunk (flash : Bool) (s : State) : Host.Outcome State Fault Refusal := s.clocked <|
  .next (s.serve 0x21 true (fun x => decide ((x.arg 1).toNat % 65536 = 0) && decide (1 ≤ (x.arg 2).toNat) && decide ((x.arg 2).toNat ≤ 65536)) (fun s x =>
    let off := (x.arg 1).toNat
    let n := (x.arg 2).toNat
    let m := s.mgt
    if m.upd ≠ 1 then .done s 11 []
    else if off ≠ m.received ∨ m.pkgLen < off + n ∨ (n ≠ 65536 ∧ off + n ≠ m.pkgLen) then .done s 3 []
    else if s.inRetain then .done s 11 []
    else
      let r := s.mgtGet (join (x.arg 3) (x.arg 4)) n
      match r.1 with
      | none => .done r.2 16 []
      | some bs =>
        if ¬ flash then .done r.2 17 []
        else
          let s := (r.2.chunkStore off bs).modMgt (fun m => { m with received := off + n })
          if off + n = m.pkgLen then .done (s.tagStore.updTo 2) 0 [] else .done s 0 []))

/-- The checks of R504 on the staged package, in order: the status of the first that fails, else 0. What the signatures, tag and
hash come to are operands. In RECOVERY only format 1 is served (R508). -/
def State.verifyStatus (s : State) (kwador cosign gcm : Bool) : Nat :=
  let m := s.mgt
  let k := m.staging
  let w (off : Nat) : W32 := m.slotWord k off
  let fmt := (w 4).toNat / 65536 % 256
  let ver := w 8
  if w 0 ≠ 0x4F524C54 ∨ (w 4).toNat % 65536 ≠ 1 ∨ (fmt ≠ 1 ∧ fmt ≠ 3) ∨ (m.state = 3 ∧ fmt ≠ 1) ∨ (w 12).toNat + 512 ≠ m.pkgLen ∨ 8388608 < (w 12).toNat then 3
  else if ¬ bit (w 16) (if s.is9620 then 1 else 0) ∨ (fmt = 1 ∧ (w 20 ≠ Config.serial 0 ∨ w 24 ≠ Config.serial 1)) then 15
  else if ¬ kwador ∨ (m.cosign.isSome ∧ ¬ cosign) ∨ ¬ gcm then 12
  else if fmt = 1 ∧ (w 4).toNat / 2 ^ 24 < m.epoch then 13
  else if fmt = 3 ∧ ver.toNat < m.version.toNat then 14
  else 0

/-- UPD_VERIFY (R504, R505). -/
def execUpdVerify (kwador cosign gcm flash : Bool) (s : State) : Host.Outcome State Fault Refusal := s.clocked <|
  .next (s.serve 0x22 true (fun _ => true) (fun s _ =>
    if s.mgt.upd ≠ 2 then .done s 11 []
    else
      let st := s.verifyStatus kwador cosign gcm
      if st ≠ 0 then .done s st []
      else if ¬ flash then .done s 17 []
      else
        let m := s.mgt
        let k := m.staging
        let fe := (m.slotWord k 4).toNat / 65536
        let s := s.flashWords (verifiedAt k) (twinWords [m.slotWord k 8, pack [(0, fe / 256), (8, fe % 256)], m.slotWord k 12, m.slotWord k 56])
        .done (s.updTo 3) 0 [m.slotWord k 8, pack [(0, fe / 256 % 32), (5, fe % 8)]]))

/-- UPD_ACTIVATE (R509): the pointer names the staging slot, PROVISIONAL; the answer precedes the restart. -/
def execUpdActivate (flash : Bool) (s : State) : Host.Outcome State Fault Refusal := s.clocked <|
  let s' := s.serve 0x23 true (fun _ => true) (fun s _ =>
    if s.mgt.upd ≠ 3 then .done s 11 []
    else if s.mode.mode ≠ 5 ∧ s.setting 4 ≠ 1 then .done s 5 []
    else if s.fg.phase ≠ 0 ∨ s.tmr.cal.phase ≠ 0 ∨ s.mem.sweep.isSome ∨ s.mem.testing ≠ 0 then .done s 6 []
    else if ¬ flash then .done s 17 []
    else
      let m := s.mgt
      let k := m.staging
      let s := s.ptrWrite { seq := 0, slot := k, prov := true, incompat := false, version := m.slotVersion k, previous := m.version }
      .done s.bootErase 0 [])
  .next (if s'.mgt.ptr.seq ≠ s.mgt.ptr.seq then s'.mgtRestart 3 else s')

/-- The image is confirmed (R509, R511): pointer without PROVISIONAL, boot counter erased, epoch fuses blown; a store of
another schema is archived and both copies take the defaults. -/
def State.confirm (s : State) : State :=
  let s := if s.mgt.incompatible then s.modMgt (fun m =>
      let a : SetCopy := { seq := m.newest.seq + 1, schema := m.schema, items := setDefaults }
      let b : SetCopy := { seq := m.newest.seq + 2, schema := m.schema, items := setDefaults }
      { m with archive := some m.newest, sets := [a, b], incompatible := false })
    else s
  let p := s.mgt.ptr
  let s := s.ptrWrite { seq := 0, slot := s.mgt.slot, prov := false, incompat := false, version := s.mgt.version, previous := p.previous }
  (s.bootErase.modMgt (fun m => { m with epoch := max m.epoch (min 16 m.imgEpoch) })).updTo 0

/-- UPD_CONFIRM (R509). -/
def execUpdConfirm (flash : Bool) (s : State) : Host.Outcome State Fault Refusal := s.clocked <|
  .next (s.serve 0x24 true (fun _ => true) (fun s _ =>
    if s.mgt.upd ≠ 4 then .done s 11 [] else if ¬ flash then .done s 17 [] else .done s.confirm 0 []))

/-- UPD_REVERT (R509). -/
def execUpdRevert (flash : Bool) (s : State) : Host.Outcome State Fault Refusal := s.clocked <|
  let s' := s.serve 0x25 true (fun _ => true) (fun s _ =>
    if s.mgt.upd ≠ 4 then .done s 11 []
    else if ¬ flash then .done s 17 []
    else .done s.ptrRevert 0 [])
  .next (if s'.mgt.ptr.seq ≠ s.mgt.ptr.seq then s'.mgtRestart 4 else s')

/-- COSIGN_FUSE (R504): the first 28 bytes of the customer key hash. -/
def execCosignFuse (s : State) : Host.Outcome State Fault Refusal := s.clocked <|
  .next (s.serve 0x26 true (fun _ => true) (fun s x =>
    if s.mgt.cosign.isSome then .done s 11 [] else .done (s.modMgt (fun m => { m with cosignHead := some ((x.req.drop 1).take 7) })) 0 []))

/-- COSIGN_FUSE_TAIL (R504): the last 20 bytes; the hash is written once. -/
def execCosignFuseTail (s : State) : Host.Outcome State Fault Refusal := s.clocked <|
  .next (s.serve 0x27 true (fun _ => true) (fun s x =>
    match s.mgt.cosign, s.mgt.cosignHead with
    | none, some h => .done (s.modMgt (fun m => { m with cosign := some (h ++ (x.req.drop 1).take 5), cosignHead := none })) 0 []
    | _, _ => .done s 11 []))

/-- MGT_ANS_ACK (R490, `MGT_ANS_CTRL.ack`): the host frees the answer words of slot 0. -/
def execMgtAnsAck (s : State) : Host.Outcome State Fault Refusal := s.clocked <| .next (s.modSlot 0 (fun x => { x with valid := false }))

end Sys2Proof.Machine
end

