-- ==== Sys2Proof/Machine/MgtLife.lean ====
section
/-! DEFINITION. The life of the management plane: restarts, the boot ROM, MGT_READY, the thermal supervisor, lifetime, Cairn,
the confirm window and the SMBus target (20 R487, R493 to R500, R507 to R513). -/

namespace Sys2Proof.Machine

/-! ### Restarts and boots (R487, R508) -/

/-- MGT_RESTART_REQ (R487, `MGT_CTRL.restart`). -/
def execMgtRestartReq (s : State) : Host.Outcome State Fault Refusal := s.clocked <| .next (s.mgtRestart 2)

/-- MGT_WATCHDOG (R487). -/
def execMgtWatchdog (s : State) : Host.Outcome State Fault Refusal := s.clocked <| .next (s.mgtRestart 1)

/-- Version, epoch and schema of a slot's image: those of the header that the slot holds (R501), or `i` where the model holds none of a
slot that was filled before its reset. -/
def Mgt.imageOf (m : Mgt) (slot : Nat) (i : W32 × BitVec 5 × BitVec 16) : W32 × BitVec 5 × BitVec 16 :=
  if m.slotWord slot 0 = 0x4F524C54 then
    (m.slotWord slot 8, BitVec.ofNat 5 ((m.slotWord slot 4).toNat / 2 ^ 24), BitVec.ofNat 16 ((m.slotWord slot 16).toNat / 2 ^ 16))
  else i

/-- An image of a slot, if it passes its checks (R504 steps 3 and 4) and its epoch reaches the fuses. -/
def State.bootable (s : State) (a b : Option (W32 × BitVec 5 × BitVec 16)) (slot : Nat) : Option (W32 × BitVec 5 × BitVec 16) :=
  ((if slot = 0 then a else b).map (s.mgt.imageOf slot)).filter (fun i => decide (s.mgt.epoch ≤ i.2.1.toNat))

/-- Every occupied slot is answered BUSY: its request was overtaken (R490). -/
def State.busyAll (s : State) : State := (List.range 17).foldl (fun s k => if (s.mslot k).full then s.mgtAnswer k 1 [] else s) s

/-- The boot ends in RECOVERY or FAILED (R488, R508, R529). -/
def State.bootFails (s : State) (st : Nat) : State :=
  let s := (s.modMgt (fun m => { m with state := st, started := false, version := 0, upd := 0 })).permitsHold
  ({ s with mode := { s.mode with booting := false } }).busyAll

/-- The chosen image starts (R495, R497, R506, R508, R511): fuses, BOOT record, lifetime, latched trip, settings schema,
update state. `reads`: it can read the stored settings. -/
def State.bootImage (s : State) (slot : Nat) (img : W32 × BitVec 5 × BitVec 16) (prov reads : Bool) (cause : Nat) : State :=
  let m := s.mgt
  let life := m.lifeNewest
  let s := s.modMgt (fun m => { m with
    started := true, slot := slot, version := img.1, imgEpoch := img.2.1.toNat, schema := img.2.2.toNat, cause := cause
    epoch := if prov then m.epoch else max m.epoch (min 16 img.2.1.toNat)
    boot := m.boot + 1, incompatible := !reads
    life := { life with bins := modAt life.bins life.lastBin (· + 3600) } })
  let s := s.cairnRecord 0x100 cause pathPkg
  let s := match s.mgt.tripLog with
    | some id => (s.cairnRecord 0x108 id pathPkg).modMgt (fun m => { m with tripLog := none })
    | none => s
  let s := if reads then s
    else
      let p := s.mgt.ptr
      let s := if p.incompat then s else s.ptrWrite { p with incompat := true }
      ((s.cairnRecord 0x10C s.mgt.newest.schema pathPkg).smbAlert 4).raiseMgt 236
  let m := s.mgt
  s.updTo (if prov then 4
    else if cause = 4 ∨ cause = 5 then 0
    else if m.verified m.staging then 3
    else if m.pkgLen ≠ 0 ∧ m.received = m.pkgLen then 2 else 0)

/-- Words of flash that are neither erased nor a twin that passes (00 R15). -/
def Mgt.torn (m : Mgt) (a n : Nat) : Bool :=
  let ws := m.flashWords a n
  !twinOk ws && ws.any (fun w => decide (w ≠ 0xFFFFFFFF))

/-- The boot ROM reads the slot pointer, the boot counter of a provisional image and the VERIFIED record of the staging slot: a twin that
fails its check raises TWIN_MISMATCH with the flash's path, and the fallback of R507, R508 or R506 acts (00 R16; log entry 35). -/
def State.bootTwins (s : State) : State :=
  let m := s.mgt
  let bad := [(0x0, 8), (0x1000, 8)] ++ (if m.ptr.prov then (List.range 512).map (fun i => (0x2000 + 8 * i, 2)) else []) ++
    [(verifiedAt (1 - m.ptr.slot), 8)]
  (bad.filter (fun x => m.torn x.1 x.2)).foldl (fun s _ => s.twinMismatch (pathBlk 12)) s

/-- BOOT_ROM (R488, R508): the ROM takes the pointer in force, counts a provisional boot or reverts, and runs the active slot,
or the other. `a`, `b`: the image of each slot that passes its checks, with version, epoch and schema; `flash`: the flash
meets R488. -/
def execBootRom (a b : Option (W32 × BitVec 5 × BitVec 16)) (reads flash : Bool) (s : State) : Host.Outcome State Fault Refusal := s.clocked <|
  if s.mgt.started ∨ ¬ (s.mgt.state = 2 ∨ (s.mgt.state = 0 ∧ s.mode.booting ∧ s.mode.porN)) then .next s
  else if ¬ flash then .next (s.bootFails 4)
  else
    let s := s.bootTwins
    let p := s.mgt.ptr
    let n := s.mgt.bootCount
    let back := p.prov && decide (3 ≤ n)
    let s := if back then s.ptrRevert
      else if p.prov then (s.bootAppend (n + 1)).modMgt (fun m => { m with boots := min 3 (n + 1) }) else s
    let slot := if back then 1 - p.slot else p.slot
    let prov := p.prov && !back
    let cause := if back then 5 else s.mgt.cause
    match s.bootable a b slot, s.bootable a b (1 - slot) with
    | some i, _ => .next (s.bootImage slot i prov reads cause)
    | none, some i => .next (s.bootImage (1 - slot) i false reads cause)
    | none, none => .next (s.bootFails 3)

/-- Sources held during the restart are raised, oldest first (R487). -/
def State.raiseHeld (s : State) : State := s.mgt.held.foldl (fun s src => s.raise src) (s.modMgt (fun m => { m with held := [] }))

/-- A foreground calibration that a restart or loss of power ended is recorded (05 R148). -/
def State.fgOpenRecord (s : State) : State :=
  match s.mgt.fgOpen with
  | some (mask, step) => (s.cairnRecord 0x104 (mask + step * 256) pathPkg).modMgt (fun m => { m with fgOpen := none })
  | none => s

/-- MGT_READY (R487, R490; 21 R528): after a restart the overtaken requests are answered BUSY and the held sources raised. After a
cold reset the tables, delays and adjacency are loaded, the stacks initialised, and IDLE comes in force at a boundary (unless a
forced RETAIN has come first). -/
def execMgtReady (s : State) : Host.Outcome State Fault Refusal := s.clocked <|
  if ¬ s.mgt.started then .next s
  else if s.mgt.state = 2 then
    let s := (s.modMgt (fun m => { m with state := 1, started := false, readyAt := s.now })).permitsHold
    .next ((s.busyAll.fgOpenRecord.raise 232).raiseHeld)
  else if s.mgt.state = 0 then
    let b := s.boundary
    let s := s.advance b
    let s := (upTo s.inputs).foldl (fun s n => s.installInput 0 n b) s
    let s := s.installBins
    let s := { s with mem := { s.mem with adjLoaded := true, delays := s.mgt.flashDelays, repairs := s.mgt.laneRepairs } }
    let s := (upTo s.nStacks).foldl (fun s st => s.modStack st (fun x => { x with rate := s.rateReg st })) s
    let s := { s with mode := { s.mode with memReady := true, booting := false } }
    let s := (s.modMgt (fun m => { m with state := 1, started := false, readyAt := s.now })).permitsHold
    let s : State := s.fgOpenRecord.raise 232
    if s.mode.mode != 6 then .next s
    else
      let s := { s with mode := { s.mode with mode := 1, target := 1, result := 1, requester := 18 } }
      .next ((s.setReg64 R.modeLastEntry (s.countAt b)).raise 12)
  else .next s

/-! ### Thermal supervisor and supplies (R493, R494) -/

/-- THERM_SAMPLE (R493, R494): 32 readings in °C x 16, one for each die sensor. -/
def execThermSample (temps : List (BitVec 16)) (s : State) : Host.Outcome State Fault Refusal :=
  if ¬ s.mode.porN ∨ s.mode.aonLow ∨ s.mgt.trip.isSome then .next s
  else
    let s := s.modMgt (fun m => { m with temps := (List.range 32).map (fun i => (temps.getD i 0).toInt) })
    let (t, id) := s.mgt.hottest
    let warn := decide ((s.setting 5 : Int) * 16 ≤ t)
    let s := if warn && !s.mgt.warn then (s.smbAlert 1).raise 238 else s
    let s := s.modMgt (fun m => { m with warn := warn })
    let thr := if s.mgt.throttle then decide (2160 < t) else decide (2240 ≤ t)
    let s := if thr = s.mgt.throttle then s
      else
        let s := (s.modMgt (fun m => { m with throttle := thr })).permitsHold
        let s := s.cairnRecord 0x107 (b2n thr + ((t / 16 + 64).toNat % 256) * 256) pathPkg
        (if thr then s.smbAlert 0 else s).raise 237
    .next (if 2480 ≤ t then s.modMgt (fun m => { m with trip := some id, tripLog := some id }) else s)

/-- SUPPLY_CHECK (R493): Aselm injects a conversion of the next rail; its sampling time is stated nowhere: a free value
(log entry 7). -/
def execSupplyCheck (s : State) : Host.Outcome State Fault Refusal := s.clocked <|
  if s.mgt.state ≠ 1 ∨ s.inRetain then .next s
  else
    let k := s.mgt.railNext
    let (f, s) := s.free
    .next ((s.modMgt (fun m => { m with railNext := (k + 1) % 8 })).sensMgtAsk (32 + k) 0 (f.toNat % 2048))

/-! ### Lifetime and Cairn (R495 to R498) -/

/-- LIFE_SECOND (R495): one second joins the bin of the hottest die sensor, each rail's charge its total; a second in B3 is
logged. -/
def execLifeSecond (s : State) : Host.Outcome State Fault Refusal := s.clocked <|
  if s.mgt.state ≠ 1 then .next s
  else
    let k := lifeBin s.mgt.hottest.1
    let u := s.permits.load
    let amps := [u.core, u.conv, u.hbm0, u.hbm1]
    let add (i q : Nat) : Nat := q + amps.getD i 0 * 100 + (Config.factory 4 i).toNat
    let s := s.modMgt (fun m => { m with
      sinceB3 := m.sinceB3 + 1
      life := { bins := modAt m.life.bins k (· + 1), charge := m.life.charge.mapIdx (fun i q => add i q), lastBin := k } })
    let s := if k = 3 then (s.cairnRecord 0x10A (min 0xFFFF s.mgt.sinceB3) pathPkg).modMgt (fun m => { m with sinceB3 := 0 }) else s
    let w := decide (s.setting 7 ≤ s.mgt.life.ppm)
    let s := if w && !s.mgt.lifeWarned then (s.smbAlert 3).raiseMgt 242 else s
    .next (s.modMgt (fun m => { m with lifeWarned := w }))

/-- LIFE_SAVE (R495): the hourly save. -/
def execLifeSave (s : State) : Host.Outcome State Fault Refusal := s.clocked <| .next (if s.mgt.state = 1 then s.lifeSave else s)

/-- CAIRN_DRAIN (R496, R498). -/
def execCairnDrain (s : State) : Host.Outcome State Fault Refusal := s.clocked <| .next (if s.mgt.state = 1 then s.cairnStep else s)

/-- CAIRN_OVF (R498): a lost entry asserts the source. -/
def execCairnOvf (s : State) : Host.Outcome State Fault Refusal := s.clocked <|
  if s.cairn.unreported = 0 then .next s
  else .next (({ s with cairn := { s.cairn with unreported := s.cairn.unreported - 1 } }).raiseMgt 243)

/-! ### Confirm window (R509, R511) -/

/-- Elapsed end of the confirm window. -/
def State.windowEnd (s : State) : Nat := s.mgt.readyAt + s.setting 2 * 60 * 80000000000

/-- CONFIRM_WINDOW_EXPIRY (R509): the previous slot becomes active and confirmed, and a restart follows. -/
def execConfirmWindowExpiry (s : State) : Host.Outcome State Fault Refusal := s.clocked <|
  if s.mgt.state = 1 ∧ s.mgt.upd = 4 then .next ((s.advance s.windowEnd).ptrRevert.mgtRestart 4) else .next s

/-- AUTO_CONFIRM (R509, R511). -/
def execAutoConfirm (s : State) : Host.Outcome State Fault Refusal := s.clocked <|
  let n := s.setting 3
  if s.mgt.state = 1 ∧ s.mgt.upd = 4 ∧ n ≠ 0 ∧ ¬ s.mgt.incompatible then .next (s.advance (s.mgt.readyAt + n * 80000000000)).confirm
  else .next s

/-! ### SMBus (R500) -/

/-- The target acknowledges: MGT_READY has come (23 R569). -/
def State.smbAcks (s : State) : Bool := s.mgt.state == 1 || s.mgt.state == 2

/-- One bit of the CRC-8 of SMBus, x^8 + x^2 + x + 1. -/
def crc8Step (c : Byte) : Byte := if c.msb then (c <<< 1) ^^^ 0x07 else c <<< 1

/-- The packet error code of SMBus over the bytes of a transaction, addresses included (R500; PRESUMED, log entry 37). -/
def pec (bs : List Byte) : Byte := bs.foldl (fun c b => (List.range 8).foldl (fun c _ => crc8Step c) (c ^^^ b)) 0

/-- The device's address as a transaction carries it, with its read bit. -/
def State.smbAddr (s : State) (read : Bool) : Byte := BitVec.ofNat 8 (s.setting 1 * 2 + b2n read)

/-- The state with a command's bytes delivered over the SMBus, and their PEC after them (R500). -/
def State.smbAnswer (s : State) (cmd : Byte) (bs : List Byte) : State :=
  if s.smbAcks then s.modMgt (fun m => { m with smbOut := bs ++ [pec ([s.smbAddr false, cmd, s.smbAddr true] ++ bs)] }) else s

/-- A block is delivered after its length. -/
def State.smbBlock (s : State) (cmd : Byte) (bs : List Byte) : State := s.smbAnswer cmd (BitVec.ofNat 8 bs.length :: bs)

/-- SMB_STATUS (R500, command 0x01). -/
def execSmbStatus (s : State) : Host.Outcome State Fault Refusal := s.clocked <|
  let m := s.mgt
  .next (s.smbAnswer 0x01 (leBytes 2 (m.state + b2n m.throttle * 8 + b2n (m.upd == 4) * 16 + b2n m.incompatible * 32)))

/-- SMB_TEMPERATURE (R500, command 0x02). -/
def execSmbTemperature (s : State) : Host.Outcome State Fault Refusal := s.clocked <| .next (s.smbAnswer 0x02 (leBytes 2 (BitVec.ofInt 16 s.mgt.hottest.1).toNat))

/-- SMB_SENSOR_SELECT (R500, command 0x03, Write Byte): discarded when its PEC fails. -/
def execSmbSensorSelect (id pec : Byte) (s : State) : Host.Outcome State Fault Refusal := s.clocked <|
  .next (if s.smbAcks ∧ pec = Machine.pec [s.smbAddr false, 0x03, id] then s.modMgt (fun m => { m with smbSel := id.toNat }) else s)

/-- SMB_SENSOR_READ (R500, command 0x03): an id that R493 does not define has no value: a free value (log entry 7). -/
def execSmbSensorRead (s : State) : Host.Outcome State Fault Refusal := s.clocked <|
  if s.mgt.smbSel < 42 then .next (s.smbAnswer 0x03 (leBytes 2 (s.sensorValue s.mgt.smbSel).1.toNat))
  else
    let (f, s) := s.free
    .next (s.smbAnswer 0x03 (leBytes 2 f.toNat))

/-- SMB_VERSIONS (R500, command 0x04). -/
def execSmbVersions (s : State) : Host.Outcome State Fault Refusal := s.clocked <|
  .next (s.smbBlock 0x04 (leBytes 4 s.mgt.version.toNat ++ leBytes 4 (s.mgt.slotVersion s.mgt.staging).toNat))

/-- SMB_LIFE (R500, command 0x05): in units of 0.01 %, saturating at the word. -/
def execSmbLife (s : State) : Host.Outcome State Fault Refusal := s.clocked <| .next (s.smbAnswer 0x05 (leBytes 2 (min 0xFFFF (s.mgt.life.ppm / 100))))

/-- SMB_CAIRN_INDEX (R500, command 0x06). -/
def execSmbCairnIndex (s : State) : Host.Outcome State Fault Refusal := s.clocked <|
  let (w, s) := s.cairnNewest
  .next (s.smbAnswer 0x06 (leBytes 2 w.toNat))

/-- SMB_ALERT_CAUSES (R500, command 0x08): reading clears them. -/
def execSmbAlertCauses (s : State) : Host.Outcome State Fault Refusal := s.clocked <|
  if s.smbAcks then .next ((s.smbBlock 0x08 (leBytes 4 s.mgt.alerts)).modMgt (fun m => { m with alerts := 0 })) else .next s

/-- SMB_ALERT_RESPONSE (R500): while an alert cause is set the device answers the Alert Response Address with its own address,
in the upper seven bits of the byte, and the PEC, as SMBus gives it. -/
def execSmbAlertResponse (s : State) : Host.Outcome State Fault Refusal := s.clocked <|
  if s.mgt.alerts ≠ 0 then .next (if s.smbAcks then s.modMgt (fun m => { m with smbOut := [s.smbAddr false, pec [0x19, s.smbAddr false]] }) else s) else .next s

end Sys2Proof.Machine
end

