-- ==== Sys2Proof/Machine/Modes.lean ====
section
/-! DEFINITION. Operating modes, RETAIN, power-up and resets (21_modes_and_reset.md; 15 R379, R382 to R385; 23 R567, R578). -/

namespace Sys2Proof.Machine

/-- The state with the mode controller changed. -/
def State.modMode (s : State) (f : ModeCtl → ModeCtl) : State := { s with mode := f s.mode }

/-! ### Outcomes of posts (R517, R518) -/

/-- A post of a requester ends with a result code of `MODE_STATUS` (R517): MODE_DONE for DONE, MODE_REFUSED otherwise. -/
def State.modeResult (s : State) (result requester : Nat) : State :=
  (s.modMode (fun m => { m with result := result, requester := requester })).raise (if result = 1 then 12 else 13)

/-- A stack reads 125 °C or more (R526). -/
def State.anyHot (s : State) : Bool := (upTo s.nStacks).any (fun st => decide (189 ≤ (s.stack st).temp))

/-- Heads enabled now, as a mask. -/
def State.enabledMask (s : State) : Nat := (upTo 8).foldl (fun m n => if s.enabledHead n then m + 2 ^ n else m) 0

/-- Units of the STANDING entry for a set of heads (11 R305). -/
def State.standingUnits (s : State) (heads : Nat) : Units :=
  (bitsOf 8 heads).foldl (fun u n =>
    let k := (s.signalSlices n).length
    u.add { core := 3 * k + 10, conv := 4 * k, hbm0 := 0, hbm1 := 0 }) Units.zero

/-- The controller asks for the STANDING entry (R520); its 1 s is kept by the controller. -/
def State.askStanding (s : State) : State :=
  let heads := s.enabledMask
  (s.modMode (fun m => { m with covered := heads, due := none })).askPermit 16 11 (s.standingUnits heads) none

/-- The next leg of the running transition begins at elapsed boundary b (R519). -/
def State.legStart (s : State) (b : Nat) : State :=
  let m := s.mode
  if m.mode = 0 then s.modMode (fun m => { m with leg := .fromRetain, due := none })
  else if 2 ≤ m.mode ∧ m.mode ≤ 5 then
    s.modMode (fun x => { x with leg := if 2 ≤ m.target then .switch else .exit, due := some (alignUp (b + 1024) 128) })
  else if m.target = 0 then s.modMode (fun m => { m with leg := .toRetain, due := none })
  else (s.modMode (fun m => { m with leg := .entry, asked := b })).askStanding

/-- A post starts at elapsed boundary b: the checks of R518 in order, else the transition runs. -/
def State.modeStart (s : State) (target requester b : Nat) : State :=
  let m := s.mode
  if 6 ≤ target then s.modeResult 7 requester
  else if m.mode = 6 then s.modeResult 6 requester
  else if target = m.mode then s.modeResult 1 requester
  else if m.mode = 0 ∧ m.forced ∧ s.anyHot then s.modeResult 5 requester
  else if m.mode = 5 ∧ (s.fg.phase ≠ 0 ∨ s.mem.testing ≠ 0) then s.modeResult 4 requester
  else (s.modMode (fun m => { m with busy := true, target := target, runner := requester })).legStart b

/-- A post takes effect at elapsed boundary b (R517): it starts, becomes pending, or replaces the pending one. -/
def State.modePost (s : State) (target requester b : Nat) : State :=
  if ¬ s.mode.busy then s.modeStart target requester b
  else
    let s := match s.mode.pending with
      | some p => s.modeResult 2 p.2
      | none => s
    s.modMode (fun m => { m with pending := some (target, requester) })

/-- The running transition ends with a result, and a pending post starts (R517). -/
def State.modeEnd (s : State) (result b : Nat) : State :=
  let s := (s.modMode (fun m => { m with busy := false, leg := .none, due := none, target := m.mode })).modeResult result s.mode.runner
  match s.mode.pending with
  | some p => (s.modMode (fun m => { m with pending := none })).modeStart p.1 p.2 b
  | none => s

/-- A leg ends at its entry boundary b (R519): the transition ends, or its next leg begins. -/
def State.legEnd (s : State) (b : Nat) : State :=
  let s := s.setReg64 R.modeLastEntry (s.countAt b)
  if s.mode.mode = s.mode.target then s.modeEnd 1 b else s.legStart b

/-- A group due at elapsed boundary b stages a mode post. -/
def State.progPosts (s : State) (b : Nat) : Bool :=
  s.cores.toList.any (fun c => c.groups.any (fun g => g.due == some b && g.writes.any (fun w => match w with
    | .reg a v => a == R.modeReq && bit v 0
    | _ => false)))

/-- MODE_HOST_POST (R517, R536): a write of `MODE_HOST_REQ`; with `post` it takes effect at the next boundary. A program's post
at that boundary is taken in its place: one that has been ends it SUPERSEDED, and COMMIT_APPLY judges one that is still to come. -/
def execModeHostPost (w : W32) (s : State) : Host.Outcome State Fault Refusal := s.clocked <|
  let s := s.setReg R.modeHostReq (w &&& 0xE)
  if bit w 0 then
    let b := s.boundary
    if s.mode.progAt = b + 1 then .next ((s.advance b).modeResult 2 16)
    else if s.mode.mode ≠ 0 ∧ s.progPosts b then .next (s.modMode (fun m => { m with hostWait := some (fld w 1 3, b) }))
    else .next ((s.advance b).modePost (fld w 1 3) 16 b)
  else .next s

/-! ### Converter modes (R519 to R521) -/

/-- What starting and stopping the signals costs at a boundary (11 R297): slices and heads that power up between two states. -/
def powerCost (old s : State) : Units :=
  let slices := (upTo 24).countP (fun sl => (s.slice sl).powered && !(old.slice sl).powered)
  let heads := (upTo 8).countP (fun n => (s.inp n).running && !(old.inp n).running)
  { core := 3 * slices + 8 * heads, conv := 4 * slices, hbm0 := 0, hbm1 := 0 }

/-- MODE_CONVERTER_ENTRY (R520): at the boundary at which E would fall, a newly enabled head makes the controller ask again;
otherwise the converter mode comes in force, the slice costs are handed over, signals start and armed rings record. -/
def execModeConverterEntry (s : State) : Host.Outcome State Fault Refusal := s.awake <|
  match s.mode.leg, s.mode.due, s.granted 16 11 with
  | .entry, some e, some g =>
    let s := s.advance e
    let heads := s.enabledMask
    if (bitsOf 8 heads).any (fun n => !s.mode.covered.testBit n) then .next ((s.releaseEntry g).askStanding)
    else
      let old := s
      let s := State.loadTables e 48 ((s.modMode (fun m => { m with mode := m.target })).convSync e (fun _ => false))
      let s := s.handOver g (powerCost old s) (2 * (bitsOf 8 heads).length)
      .next ((((State.chanAnchors old s e).startArmed e).tapBandwidth).legEnd e)
  | _, _, _ => .next s

/-- MODE_CONVERTER_SWITCH (R519): only the rows of R516 change. -/
def execModeConverterSwitch (s : State) : Host.Outcome State Fault Refusal := s.awake <|
  match s.mode.leg, s.mode.due with
  | .switch, some e =>
    let s := s.advance e
    let s := if s.mode.mode = 5 then s.sweepAbort else s
    .next (((s.modMode (fun m => { m with mode := m.target })).tapBandwidth).legEnd e)
  | _, _ => .next s

/-- A converter mode is left for IDLE at elapsed boundary e (R521). -/
def State.leaveConverter (s : State) (e : Nat) : State :=
  let s := if s.mode.mode = 5 then s.sweepAbort else s
  let old := s
  let s := ((s.endAll e).modMode (fun m => { m with mode := 1 })).convSync e (fun _ => false)
  ((State.chanAnchors old s e).dropPermit 16 11).tapBandwidth

/-- MODE_CONVERTER_EXIT (R521). -/
def execModeConverterExit (s : State) : Host.Outcome State Fault Refusal := s.awake <|
  match s.mode.leg, s.mode.due with
  | .exit, some e => .next (((s.advance e).leaveConverter e).legEnd e)
  | _, _ => .next s

/-- MODE_DENIED (R518): the STANDING permit is not granted within 1 s of the first request. -/
def execModeDenied (s : State) : Host.Outcome State Fault Refusal := s.awake <|
  if s.mode.leg = .entry ∧ s.mode.due = none then
    let b := alignUp (s.mode.asked + 80000000000) 128
    .next (((s.advance b).dropPermit 16 11).modeEnd 3 b)
  else .next s

/-! ### RETAIN (R522 to R526; 15 R382 to R385) -/

/-- Pseudo-channels that lose their contents: not retained by the mask, or on a fenced channel (15 R382). -/
def State.lostMask (s : State) : Nat :=
  let keep := s.reg64 R.memRetMask
  (upTo (32 * s.nStacks)).foldl (fun m e => if keep.testBit e && !(s.hchan (chanOfEngine e)).fenced then m else m + 2 ^ e) 0

/-- A region holds a granule in a pseudo-channel of the mask. -/
def State.regionLost (s : State) (lost : Nat) (r : Nat × Nat × Nat) : Bool :=
  decide (lost ≠ 0) && (decide (524288 ≤ r.2.2) || (List.range (r.2.2 / 256)).any (fun i => lost.testBit (s.place (r.2.1 + 256 * i)).engine))

/-- The retention record of some lost regions (15 R383): 69 value words as a twin. A region smaller than the unit of 64 KiB counts one
(log entry 46). -/
def State.retentionRecord (s : State) (lost : Nat) (hot : Bool) (rs : List (Nat × Nat × Nat)) : List W32 :=
  let w0 := pack [(0, 1), (1, b2n hot), (8, s.mem.mapSeq % 256), (16, rs.length)]
  let es := rs.flatMap (fun r => [pack [(0, r.2.1 / 65536), (24, r.1)], BitVec.ofNat 32 (ceilDiv r.2.2 65536)])
  twinWords ((w0 :: loW lost :: hiW lost :: loW s.count :: hiW s.count :: es ++ List.replicate 69 0).take 69)

/-- Each channel's memory in RETAIN (15 R382): self-refresh where one of its pseudo-channels is retained, else no refresh, and powered down
where none is; `lost` are the pseudo-channels not retained or fenced. -/
def State.memRetain (s : State) (lost : Nat) : State :=
  (upTo 32).foldl (fun s c => s.modHchan c (fun h => { h with
    sr := if lost.testBit (2 * c) && lost.testBit (2 * c + 1) || decide (s.nStacks ≤ c / 16) then 3 else 1 })) s

/-- The memory leaves self-refresh (R523 step 2). -/
def State.memResume (s : State) : State :=
  (upTo 32).foldl (fun s c => s.modHchan c (fun h => { h with sr := 0, idleSince := s.now })) s

/-- The device enters RETAIN (R522): steps 1 to 4 at a boundary. -/
def State.enterRetain (s : State) (hot : Bool) : State :=
  let b := s.boundary
  let s := s.advance b
  let s := State.haltedIdle s (s.setReg R.recArm 0)
  let s := { s with record := { s.record with
    corePins := Vector.replicate 16 { status := 0, refuse := 0, pin := none }, tapPins := [] } }
  let s := ((upTo 32).foldl State.dmaStopped (s.dmaAbortAll (fun _ => true))).dspRetain.sensRetain
  let s := s.tmrStopAll 3 b
  let s := (upTo (32 * s.nStacks)).foldl (fun s e => s.flushEngine e) s
  let lost := s.lostMask
  let rec_ := s.retentionRecord lost hot (s.regions.filter (s.regionLost lost))
  let s := { s with mem := { s.mem with retain := rec_ } }.memRetain lost
  let s := (bitsOf 64 lost).foldl (fun s e => s.loseEngine e) s
  let s := s.churnRetain
  let s := s.modMode (fun m => { m with mode := 0 })
  let s := s.refLeave .off
  ({ s with ks := { s.ks with held := true }, nod := s.nod.unlinked }).nodUpdateLead

/-- RETAIN_ENTRY (R519, R522). -/
def execRetainEntry (s : State) : Host.Outcome State Fault Refusal := s.awake <|
  if s.mode.leg = .toRetain then
    let s := match s.mode.hostWait with
      | some h => (s.modMode (fun m => { m with hostWait := none })).modePost h.1 16 s.now
      | none => s
    let s := s.enterRetain false
    .next (s.legEnd s.now)
  else .next s

/-- Every PENDING or SEALED entry of a directory whose inputs include n is rewritten LOST (15 R384). -/
def State.loseRing (s : State) (n : Nat) : State :=
  (upTo 4).foldl (fun s p => (s.dir p).segs.foldl (fun s g =>
    if g.inputs.testBit n && !g.lost then
      ((s.modSeg p g.seq (fun g => { g with lost := true })).writeSeal p g.seq 10).bump (R.dirLostCount p)
    else s) s) s

/-- What RETAIN exit does for a lost region (15 R384). -/
def State.regionAction (s : State) (r : Nat × Nat × Nat) : State :=
  if r.1 < 8 then s.loseRing r.1
  else if r.1 < 16 then s.loseRing (r.1 - 8)
  else if r.1 < 20 then
    ((s.dirInit (r.1 - 16)).modDir (r.1 - 16) (fun d => { d with bound := false })).judgeBinding
  else if r.1 < 28 then
    let n := r.1 - 20
    let s := (s.pageSeal (s.pageBase n) 0 0).pageSeal (s.pageBase n + 2 ^ 24) 0 0
    s.modChurn n (fun c => { c with pubValid := false })
  else s.setReg64 R.tmrMemWr (s.reg64 R.tmrMemWr + r.2.2)

/-- The regions of a retention record: code, base, size. -/
def recordRegions (ws : List W32) : List (Nat × Nat × Nat) :=
  (upTo (fld (ws.getD 0 0) 16 6)).map (fun j =>
    (fld (ws.getD (5 + 2 * j) 0) 24 5, fld (ws.getD (5 + 2 * j) 0) 0 24 * 65536, fld (ws.getD (6 + 2 * j) 0) 0 24 * 65536))

/-- The record is checked, and its regions, or every configured region, are acted on as lost (15 R384, R385). -/
def State.retainActions (s : State) : State :=
  let ok := twinOk s.mem.retain
  let s := if ok then s else s.twinMismatch (pathBlk 13)
  let rs := if ok && !bit (s.mem.retain.getD 0 0) 1 then recordRegions s.mem.retain else s.regions
  let s := rs.foldl (fun s r => s.regionAction r) s
  if rs = [] then s else s.raise 154

/-- RETAIN_EXIT (R523): Keystone resumes with the epoch incremented, the reference is acquired, memory leaves self-refresh and the
record acts; display, trigger and sensor sequence restart, and IDLE comes in force. -/
def execRetainExit (s : State) : Host.Outcome State Fault Refusal := s.clocked <|
  if s.mode.leg = .fromRetain then
    let s := ({ s with ks := { s.ks with held := false } }).refWake
    let s := s.setRf R.ksEpoch 0 4 ((s.rf R.ksEpoch 0 4 + 1) % 16)
    let s := s.memResume.retainActions
    let s := s.modMode (fun m => { m with mode := 1, forced := false })
    let s := s.dspResume.restartTrigger.sensResume
    let b := s.boundary
    .next ((s.advance b).legEnd b)
  else .next s

/-- Every post, running, pending or waiting for its boundary, ends SUPERSEDED (R525). -/
def State.supersedePosts (s : State) : State :=
  let s := if s.mode.hostWait.isSome then (s.modMode (fun m => { m with hostWait := none })).modeResult 2 16 else s
  let s := if s.mode.busy then s.modeResult 2 s.mode.runner else s
  match s.mode.pending with
  | some p => s.modeResult 2 p.2
  | none => s

/-- The forced entry into RETAIN (R525): every post ends SUPERSEDED, a calibration, sweep or self-test is aborted, a converter
mode is left, and RETAIN follows at once. Its own outcome is DONE, by requester 17. -/
def State.forceRetain (s : State) : State :=
  let s := (s.supersedePosts.fgAbort true).sweepAbort.selftestAbort
  let b := s.boundary
  let s := s.advance b
  let s := if s.converterMode then s.leaveConverter b else s.dropPermit 16 11
  let s := s.modMode (fun m => { m with busy := false, pending := none, leg := .none, due := none, target := 0, forced := true })
  let s := s.enterRetain true
  (s.setReg64 R.modeLastEntry s.count).modeResult 1 17

/-- The `hot` bit of the retention record is set (15 R385). -/
def State.markHot (s : State) : State :=
  let w := s.mem.retain.getD 0 0 ||| 2
  { s with mem := { s.mem with retain := modAt (modAt s.mem.retain 0 (fun _ => w)) 69 (fun _ => ~~~ w) } }

/-- The forced entry while RETAIN is in force (R525): every post ends SUPERSEDED, and RETAIN stands, forced. -/
def State.forceRetained (s : State) : State :=
  if s.mode.forced ∧ ¬ s.mode.busy then s
  else
    let s := s.supersedePosts
    (s.modMode (fun m => { m with busy := false, pending := none, leg := .none, due := none, target := 0, forced := true })).modeResult 1 17

/-- MEM_TEMP_READ (15 R379, R385, R525): a reading of a stack in °C + 64. -/
def execMemTempRead (st : Fin 2) (temp : BitVec 8) (s : State) : Host.Outcome State Fault Refusal := s.clocked <|
  if s.nStacks ≤ st.val then .next s
  else
    let s := s.tempReading st temp.toNat
    if s.mode.mode = 0 then
      let s := if 189 < temp.toNat then s.markHot else s
      .next (if 194 ≤ temp.toNat then s.forceRetained else s)
    else if 194 ≤ temp.toNat then .next s.forceRetain
    else .next s

/-! ### POR_N and VDD_AON (R528 to R531; 23 R567, R578) -/

/-- What a cold reset leaves (R531): every block at its reset values, HBM lost; the flash, fuses and the calendar of the always-on
domain stay, and so does the level of PERST#. -/
def State.coldReset (s : State) : State :=
  let m := s.mgt
  let r := State.reset
  let m' : Mgt := { r.mgt with
    flash := m.flash, sets := m.sets, archive := m.archive, saved := m.saved, savedEqs := m.savedEqs, flashDelays := m.flashDelays, laneRepairs := m.laneRepairs
    lifeCopies := m.lifeCopies, cairnNext := m.cairnNext, boot := m.boot, fgOpen := m.fgOpen, slot := m.slot
    pkgLen := m.pkgLen, received := m.received, epoch := m.epoch, cosign := m.cosign, trip := m.trip, tripLog := m.tripLog
    cold := m.newest.items.take 2 }
  let s' := { r with
    pending := s.pending, is9620 := s.is9620, now := s.now, freeCtr := s.freeCtr, hostMem := s.hostMem, mgt := m', mem := MemCtl.reset s.is9620
    link := { r.link with perst := s.link.perst }
    mode := { r.mode with porN := s.mode.porN, aonLow := s.mode.aonLow, booting := false } }
  (upTo 64).foldl (fun s e => s.loseEngine e) s'

/-- The device leaves the cold reset (R528): the trip latch clears, Keystone counts from 0 at a CK_DP edge, the boot runs, and a
PERST# released before counts as released now. -/
def State.startUp (s : State) : State :=
  let b := s.boundary
  let s := { s with now := b, ks := { base := (2 ^ 64 - b % 2 ^ 64) % 2 ^ 64, held := false } }
  let s := (s.modMgt (fun m => { m with trip := none })).modMode (fun m => { m with booting := true })
  { s with link := { s.link with released := b } }

/-- POR_RELEASE (R528). -/
def execPorRelease (s : State) : Host.Outcome State Fault Refusal :=
  if s.mode.porN then .next s
  else
    let s := s.modMode (fun m => { m with porN := true })
    .next (if s.mode.aonLow then s else s.startUp)

/-- POR_ASSERT (R530, R531; 23 R578): every plane is reset, the TAP as well; the trip latch clears unless VDD_AON is low. -/
def execPorAssert (s : State) : Host.Outcome State Fault Refusal :=
  let s := (s.modMode (fun m => { m with porN := false })).coldReset
  .next (if s.mode.aonLow then s else s.modMgt (fun m => { m with trip := none }))

/-- VDD_AON_LOW (23 R567): as if POR_N were low. -/
def execVddAonLow (s : State) : Host.Outcome State Fault Refusal := .next ((s.modMode (fun m => { m with aonLow := true })).coldReset)

/-- VDD_AON_RESTORE (23 R567, R578): with POR_N high the device leaves the reset. -/
def execVddAonRestore (s : State) : Host.Outcome State Fault Refusal :=
  if ¬ s.mode.aonLow then .next s
  else
    let s := s.modMode (fun m => { m with aonLow := false })
    .next (if s.mode.porN then s.startUp else s)

/-! ### Registers (R535) -/

/-- `MODE_STATUS`. -/
def State.modeStatus (s : State) : W32 :=
  let m := s.mode
  pack [(0, m.mode), (3, if m.busy then m.target else if m.mode = 6 then 1 else m.mode), (6, b2n m.busy), (7, b2n m.pending.isSome), (8, b2n m.forced),
    (9, b2n m.memReady), (10, m.result), (13, m.requester)]

end Sys2Proof.Machine
end

