-- ==== Sys2Proof/Machine/Jtag.lean ====
section
/-! DEFINITION. Boundary scan and the balls that it can govern (23_package_electrical.md R569, R575 to R578). -/

namespace Sys2Proof.Machine

/-- The identification register (R575). -/
def State.idcode (s : State) : W32 := BitVec.ofNat 32 ((if s.is9620 then 0x09620C97 else 0x09640C97) + Config.stepping.toNat * 2 ^ 28)

/-- The port runs: POR_N low resets it (R578). -/
def State.tapLive (s : State) : Bool := s.mode.porN && !s.mode.aonLow

/-- An instruction comes into force; the scan shifts out `tdo` and may update the cells. -/
def State.jtagTo (s : State) (ir : BitVec 8) (tdo : Nat) (scan : Option (BitVec 127 × BitVec 127)) : State :=
  if ¬ s.tapLive then s
  else match scan with
    | some (capture, load) => { s with jtag := { ir := ir, captured := capture, cells := load, tdo := tdo } }
    | none => { s with jtag := { s.jtag with ir := ir, tdo := tdo } }

/-- JTAG_EXTEST (R575, R577): the balls' cells are captured and shifted out, and the cells shifted in govern. -/
def execJtagExtest (capture load : BitVec 127) (s : State) : Host.Outcome State Fault Refusal :=
  .next (s.jtagTo 0x00 capture.toNat (some (capture, load)))

/-- JTAG_SAMPLE_PRELOAD (R575): the same scan, the balls keep their function. -/
def execJtagSamplePreload (capture load : BitVec 127) (s : State) : Host.Outcome State Fault Refusal :=
  .next (s.jtagTo 0x01 capture.toNat (some (capture, load)))

/-- JTAG_IDCODE (R575). -/
def execJtagIdcode (s : State) : Host.Outcome State Fault Refusal := .next (s.jtagTo 0x02 s.idcode.toNat none)

/-- JTAG_HIGHZ (R577): the one-bit bypass register is selected. -/
def execJtagHighz (s : State) : Host.Outcome State Fault Refusal := .next (s.jtagTo 0x03 0 none)

/-- JTAG_CLAMP (R577): outputs stay as the cells say, with the bypass register selected. -/
def execJtagClamp (s : State) : Host.Outcome State Fault Refusal := .next (s.jtagTo 0x04 0 none)

/-- JTAG_EXTEST_PULSE (R575, IEEE 1149.6). -/
def execJtagExtestPulse (capture load : BitVec 127) (s : State) : Host.Outcome State Fault Refusal :=
  .next (s.jtagTo 0x05 capture.toNat (some (capture, load)))

/-- JTAG_EXTEST_TRAIN (R575, IEEE 1149.6). -/
def execJtagExtestTrain (capture load : BitVec 127) (s : State) : Host.Outcome State Fault Refusal :=
  .next (s.jtagTo 0x06 capture.toNat (some (capture, load)))

/-- JTAG_BYPASS (R575): code 0xFF, or any code that names no instruction; the balls keep their function. -/
def execJtagBypass (_code : BitVec 8) (s : State) : Host.Outcome State Fault Refusal := .next (s.jtagTo 0xFF 0 none)

/-- TEST_LOGIC_RESET (R575, R577): IDCODE is selected, and the balls return to their function. -/
def execTestLogicReset (s : State) : Host.Outcome State Fault Refusal := .next { s with jtag := { s.jtag with ir := 0x02 } }

/-! ### Balls -/

/-- The level of a ball: driven low, driven high, or not driven. -/
inductive Level where
  | low | high | floating
  deriving DecidableEq, Repr

/-- The boundary register governs the balls in it (R577). -/
def State.scanGoverns (s : State) : Bool := s.jtag.ir == 0x00 || s.jtag.ir == 0x03 || s.jtag.ir == 0x04 || s.jtag.ir == 0x05 || s.jtag.ir == 0x06

/-- An output ball whose data cell is cell i and whose enable cell is i + 1 (R576), with its own function's level. -/
def State.outputBall (s : State) (i : Nat) (own : Level) : Level :=
  if ¬ s.scanGoverns then own
  else if s.jtag.ir = 0x03 then .floating
  else if s.jtag.cells.getLsbD (i + 1) then (if s.jtag.cells.getLsbD i then .high else .low) else .floating

/-- TRIGOUTm (07 R206, R548; R569): high during a pulse, inverted by its polarity bit; inactive while the device boots. -/
def State.trigoutBall (s : State) (m : Nat) : Level :=
  let on := (vget s.trigout m []).any (·.on)
  s.outputBall (13 + 2 * m) (if s.mode.mode != 6 && on != bit (s.reg (R.trigOutCtrl m)) 6 then .high else .low)

/-- WAKE_N, open drain (21 R524). -/
def State.wakeBall (s : State) : Level := s.outputBall 25 (if s.evt.wakeN then .low else .floating)

/-- SMB_ALERT_N, open drain (20 R500). -/
def State.smbAlertBall (s : State) : Level := s.outputBall 27 (if s.mgt.alerts ≠ 0 then .low else .floating)

/-- THERMTRIP_N, open drain, outside the register (20 R494; R576). -/
def State.thermtripBall (s : State) : Level := if s.mgt.trip.isSome then .low else .floating

end Sys2Proof.Machine
end

