-- ==== Sys2Proof/Machine/Decide.lean ====
section
/-! DEFINITION. Final triggers and their destinations (07_trigger.md R202 to R206), and TRIG messages between devices (03_time_base.md
R94 to R96). -/

namespace Sys2Proof.Machine

/-- A final trigger starts a pulse on every ball that the trigger block drives for its program (R206). -/
def State.trigPulses (s : State) (td : Nat) (c : Cand) : State :=
  (upTo 4).foldl (fun s m =>
    let w := s.reg (R.trigOutCtrl m)
    if bit w 0 && bit w (1 + c.prog) then
      let at_ := (c.kts.at_ + max 13312 (s.rf (R.trigOutDelay m) 0 24) * 65536 + 32768) / 65536
      let late := bit w 5 && decide (at_ < td + 512)
      let start := if bit w 5 then max at_ (td + 512) else td + 512
      let p : Pulse := { start := start, stop := start + max 1 (fld w 7 8) * 128, on := false, src := 256 }
      let s := { s with trigout := vmod s.trigout m (fun l => l ++ [p]) }
      if late then ((s.bump (R.trigOutLate m)).setReg R.trigAlertInfo (pack [(0, 2), (2, m), (6, 1)])).raise 57 else s
    else s) s

/-- A final trigger is delivered at its decision tick (R204, R205). -/
def State.deliver (s : State) (td : Nat) (c : Cand) : State :=
  let p := c.prog
  let kts := [loW c.kts.ticks.toNat, hiW c.kts.ticks.toNat, c.kts.word2]
  let s := s.bump (R.tpFinalCount p)
  let s := (s.setRegs (R.tpLastKts p 0) kts).setReg64 (R.tpLastDec p) (s.countAt td)
  let s := (s.createSegment p c.kts none).churnTrigger p td c.kts
  let s := s.raise (48 + p)
  let s := if bit (s.reg R.nodTrigTx) p && fld c.kts.word2 18 4 != 4 then
      let m : TrigMsg := { origin := s.nod.id, hops := 0, prog := p, ticks := c.kts.ticks, word2 := c.kts.word2 }
      s.nodLanes.foldl (fun s l => s.nodQueueTrig l m) s
    else s
  let s := s.trigPulses td c
  let s := s.tmrItem { kts := c.kts, kind := .trigger p }
  s.sensTrigInject p kts td

/-- Tick at which a decision falls. -/
def Decision.tick : Decision → Nat
  | .final t _ => t
  | .drop t _ => t

/-- The earliest of some ticks. -/
def earliest : List Nat → Option Nat
  | [] => none
  | a :: r => some (r.foldl min a)

/-- TRIG_DECISION (R202, R204, R205): the earliest decision tick to come falls. The evaluation of every vector decided by then
closes, and its final triggers are delivered in order of KTS, then program. -/
def execTrigDecision (s : State) : Host.Outcome State Fault Refusal := s.awake <|
  let s0 := s.closeTick
  match earliest (s0.trig.cands.map (fun c => 128 * (c.tq / 128 + 96)) ++ s0.trig.decisions.map Decision.tick) with
  | none => .next s
  | some td =>
    let s := (s0.closeVectors (td / 128 - 95)).advance td
    let now := s.trig.decisions.filter (fun d => d.tick == td)
    let s := { s with trig := { s.trig with decisions := s.trig.decisions.filter (fun d => d.tick != td) } }
    .next (now.foldl (fun s d => match d with
      | .final t c => s.deliver t c
      | .drop _ src => s.raise src) s)

/-- NOD_TRIG_RX (R94 to R96, 07 R182, R203): a TRIG message arrives on a lane. One that fails its CRC is counted; one of the
device's own is dropped; others are forwarded on every other active lane, and fire the REMOTE cells that accept them. -/
def execNodTrigRx (lane : Bool) (origin hops : BitVec 3) (prog : Fin 4) (ticks : W64) (word2 : W32) (crcOk : Bool) (s : State) :
    Host.Outcome State Fault Refusal := s.awake <|
  let from_ := b2n lane
  if ¬ s.nodLanes.contains from_ then .next s
  else if ¬ crcOk then .next (s.bump R.nodMsgErr)
  else if origin.toNat = s.nod.id then .next s
  else
    let m : TrigMsg := { origin := origin.toNat, hops := hops.toNat + 1, prog := prog.val, ticks := ticks, word2 := word2 }
    let s := (s.nodLanes.filter (· != from_)).foldl (fun s l => s.nodQueueTrig l m) s
    let b := s.boundary
    let s := s.advance b
    let w := s.ktsWord2 (fld word2 0 16) (bit word2 17) 4
    let w := setFld w 16 1 (b2n (bit w 16 || bit word2 16))
    let k : Kts := { at_ := s.elapsedOf ticks.toNat * 65536 + fld word2 0 16, ticks := ticks, word2 := w }
    .next (s.fireCells 4 (fun ix => ix.testBit prog.val && ix.testBit (4 + origin.toNat)) b k)

end Sys2Proof.Machine
end

