-- ==== Sys2Proof/Machine/Registers.lean ====
section
/-! DEFINITION. What a read of a register delivers: the DCS as a program or the host's window reads it (02 R44, R47; the
register tables of the chapters), with the read latches of R22, and the BAR0 registers that the host reads. -/

namespace Sys2Proof.Machine

/-! ### Live registers of the DCS -/

/-- `DEV_ID` (04 R122; 16 R420). -/
def State.devId (s : State) : W32 :=
  pack [(0, if s.is9620 then 0x9620 else 0x9640), (16, Config.stepping.toNat), (20, if s.is9620 then 1 else 3)]

/-- `SPAN_STATUS`: the spans in force and the bays with a signal in a settle window. -/
def State.spanStatus (s : State) : W32 :=
  let settling := fun b => (upTo 4).any (fun i => (s.inp (4 * b + i)).running && s.inSettle (4 * b + i) s.now)
  pack [(0, s.span 0), (2, s.span 1), (4, b2n (settling 0)), (5, b2n (settling 1))]

/-- `REF_STATUS`. -/
def State.refStatus (s : State) : W32 :=
  let st := match s.ref.state with
    | .free => 0
    | .locked => 1
    | .holdover => 2
    | .acquiring => 3
    | .off => 4
  pack [(0, st), (3, b2n s.ref.present), (4, b2n s.ref.slip), (16, s.ref.losses)]

/-- `REF_HOLDOVER`. -/
def State.refHoldover (s : State) : W32 :=
  BitVec.ofNat 32 (s.heldTicks / 131072)

/-- `NOD_STATUS`. -/
def State.nodStatus (s : State) : W32 :=
  let root := s.nodRole = 1
  let st := if root then (if s.nod.followers = [] then s.nod.state else 4) else s.nod.state
  let f := if root then s.nod.followers.foldl (fun m e => m ||| 2 ^ e.1) 0 else 0
  pack [(0, st), (3, s.nod.id), (6, s.nod.hops), (9, b2n s.nod.upUnlocked), (16, f)]

/-- `PERMIT_STATUS` (11 R308). -/
def State.permitStatus (s : State) : W32 :=
  let head := match s.permits.queue with
    | [] => 0
    | r :: _ => r.req
  pack [(0, min s.permits.queue.length 127), (7, head), (13, b2n (decide (s.permits.rampUp ≠ 0 ∨ s.permits.lowering ≠ 0))),
    (14, b2n s.permits.hold), (16, s.permits.ballast)]

/-- A rail's register: limit, load, held. -/
def railWord (limit load held : Nat) : W32 := pack [(0, limit), (10, load), (20, held)]

/-- Word i of `PERMIT_ENTRYe`. -/
def State.entryWord (s : State) (e i : Nat) : W32 :=
  let t := s.entry e
  ([loW t.v.toNat, hiW t.v.toNat, loW t.n.toNat, hiW t.n.toNat] : List W32).getD i 0

/-- Word of mask k of the memory mapping, or of its complement. -/
def State.maskWord (s : State) (k : Nat) (n : Bool) : W32 :=
  let m := if s.is9620 && k == 0 then ((0 : W32), (0xFFFFFFFF : W32)) else s.mem.masks.getD k (0, 0xFFFFFFFF)
  if n then m.2 else m.1

/-- `MEM_MAP_STATUS`. -/
def State.mapStatus (s : State) : W32 := pack [(0, b2n s.mem.pendMasks.isSome), (8, s.mem.mapSeq % 256)]

/-- `MEM_REF_STATUS` (15 R393). -/
def State.refreshStatus (s : State) : W32 :=
  let two := !s.is9620
  pack [(0, (s.stack 0).mult), (2, if two then (s.stack 1).mult else 0), (4, (s.stack 0).temp), (12, if two then (s.stack 1).temp else 0),
    (20, b2n s.mem.hot), (21, b2n s.mem.adjLoaded)]

/-- `CONV_STATUS` of input n (04). -/
def State.convStatus (s : State) (n : Nat) : W32 :=
  let h := s.headOf n
  let x := s.inp n
  let late := (s.signalSlices n).any (fun sl => let y := s.slice sl; y.powered && !y.faulted && decide (s.now < y.readyAt) && y.joinAt.isNone)
  let st := if h ≠ n then 4 else if !x.running then 0 else if s.inSettle n s.now then (if late then 1 else 2) else 3
  pack [(0, st), (3, h), (6, s.fs n), (7, (upTo 3).foldl (fun m k => if (s.slice (3 * n + k)).faulted then m + 2 ^ k else m) 0)]

/-- `CONV_SLOT_MAPj` of input n: the slots, then the resting slices in ascending number (04). -/
def State.slotMapWord (s : State) (n j : Nat) : W32 :=
  let x := s.inp n
  let l := if x.running ∧ s.headOf n = n then x.slots ++ (s.resting n).map some else []
  pack ((upTo 4).map (fun i => (8 * i, ((l.getD (4 * j + i) none).getD 0xFF))))

/-- `CAL_STATUS` of input n (05). -/
def State.calStatus (s : State) (n : Nat) : W32 :=
  let x := s.inp n
  let ph := if !x.running then 0 else if s.underFg n then 3 else if x.window.isSome then 2 else 1
  let w := x.window
  let rn := if x.rn = 1 ∧ (s.granted (20 + n) 10).isSome then 2 else x.rn
  pack [(0, ph), (2, (w.map (·.inc)).getD 0x1F), (7, (w.map (·.out)).getD 0x1F), (12, rn), (15, b2n ((w.map (·.forced)).getD false))]

/-- `CAL_NEXT_ROT` of input n: the rotation of an open scheduled window, else the next one on the schedule. -/
def State.nextRot (s : State) (n : Nat) : Nat :=
  match (s.inp n).window with
  | some w => if w.forced then s.countAt (s.inp n).next else s.countAt w.rot
  | none => if (s.inp n).next = 0 then 0 else s.countAt (s.inp n).next

/-- Word i of the window on a calibration table: local slice k of input n, full scale f, 0 current or 1 previous (R150). -/
def State.tableWord (s : State) (n k f prev i : Nat) : W32 := ((s.slice (3 * n + k)).table f prev).getD i 0

/-- Registers of the input n region at offset o (04, 05 R150). -/
def State.inputWordAt (s : State) (n o a : Nat) : W32 :=
  if o = 0x4 then s.convStatus n
  else if o = 0x8 ∨ o = 0xC ∨ o = 0x10 then s.slotMapWord n ((o - 0x8) / 4)
  else if o = 0x1008 then s.calStatus n
  else if o = 0x1010 then loW (s.nextRot n)
  else if o = 0x1014 then hiW (s.nextRot n)
  else if 0x1100 ≤ o ∧ o < 0x1400 then
    let p := o - 0x1100
    let i := p % 0x40 / 4
    if i < 12 then s.tableWord n (p / 0x100) (p / 0x80 % 2) (p / 0x40 % 2) i else 0
  else s.reg a

/-- `CH_FIR_STATUS` of input n (06). -/
def State.firStatus (s : State) (n : Nat) : W32 :=
  pack [(0, s.firBank n), (1, b2n (s.firDecimating n)), (2, b2n (s.tapEff n)), (3, b2n (s.firOver n)), (4, b2n (s.chan n).activeWr),
    (5, s.firEff n), (14, s.firBudget n)]

/-- Registers of the channel region of input n at offset o (06 R181). -/
def State.chanWordAt (s : State) (n o a : Nat) : W32 :=
  let c := s.chan n
  if o = 0x14 then s.firStatus n
  else if o = 0x34 then pack [(0, s.decRatio n), (24, s.decMode n)]
  else if o = 0x120 then loW c.mag.toNat
  else if o = 0x124 then hiW c.mag.toNat
  else if o = 0x128 then c.info
  else if o = 0x130 then loW c.start.toNat
  else if o = 0x134 then hiW c.start.toNat
  else if (0x1000 ≤ o ∧ o < 0x1600) ∨ (0x2000 ≤ o ∧ o < 0x2600) then BitVec.ofInt 32 (sextInt 18 (s.reg a).toNat)
  else s.reg a

/-- A cell receives values (07 R182, R183). -/
def State.cellFed (s : State) (c : Nat) : Bool :=
  s.mode.mode != 0 &&
  match s.cellKind c with
  | 0 => s.receives c s.now
  | 1 => let n := s.cellHead c; s.headOf n == n && (s.inp n).running && (s.chan n).tone.isSome
  | 2 => s.sensMode != 0 && decide (s.cellIndex c % 16 ≤ s.sensLast)
  | _ => true

/-- `TRIG_STATUS`. -/
def State.trigStatus (s : State) : W32 :=
  pack ((upTo 16).map (fun c => (c, b2n (s.cellOn c && !s.cellInvalid c && s.cellFed c))) ++
    (upTo 16).map (fun c => (16 + c, b2n (s.cellInvalid c))))

/-- `TC_STATUS` of cell c. -/
def State.cellStatus (s : State) (c : Nat) : W32 :=
  let x := s.cell c
  pack [(0, b2n x.qU), (1, b2n x.qLo), (2, b2n x.rU), (3, b2n x.fU), (4, b2n x.rLo), (5, b2n x.fLo),
    (6, b2n (x.openP.isSome || x.openN.isSome || x.wait.isSome)), (7, b2n (s.cellState c))]

/-- `TP_STATUS` of program p. -/
def State.progStatus (s : State) (p : Nat) : W32 :=
  let x := s.prog p
  pack [(0, b2n (x.armed && x.ended.isNone)), (1, b2n (!s.holdPass p (s.now * 65536))), (2, min x.n (2 ^ 24 - 1))]

/-- `TMR_STATUS`. -/
def State.tmrStatus (s : State) : W32 := pack [(0, s.tmr.state), (2, s.tmr.n), (16, s.tmr.seq % 65536)]

/-- `TI_STATUSk`. -/
def State.unitStatus (s : State) (k : Nat) : W32 :=
  let u := s.unit k
  pack [(0, b2n u.level), (1, b2n u.blind), (2, u.use), (4, b2n u.calibrating)]

/-- Registers of the interval timer at address a (08 R229). -/
def State.tmrWordAt (s : State) (a : Nat) : W32 :=
  let o := a - 0x380000
  if o = 0x8 then s.tmrStatus
  else if o = 0x24 then BitVec.ofNat 32 s.tmr.fifo.length
  else if 0x30 ≤ o ∧ o < 0x40 then (s.tmrPop.1).getD ((o - 0x30) / 4) 0
  else if o = 0x84 then s.tmrCalStatus
  else if 0x100 ≤ o ∧ o < 0x240 ∧ o % 0x20 = 0x10 then s.unitStatus ((o - 0x100) / 0x20)
  else if 0x1000 ≤ o ∧ o < 0x15000 then
    let p := o - 0x1000
    let u := s.unit (p / 0x2000)
    let e := (if p / 0x1000 % 2 = 0 then u.cur else u.prev).getD (p % 0x1000 / 8) (0, 0)
    if p % 8 = 0 then e.1 else e.2
  else s.reg a

/-- `REC_STATUSn`. -/
def State.recStatus (s : State) (n : Nat) : W32 :=
  let r := vget s.record.rings n Ring.reset
  pack [(0, r.state), (2, r.haltCause), (4, b2n (s.geometryOk n)), (16, r.records % 65536)]

/-- Registers of the record region at address a (09 R267). -/
def State.recWordAt (s : State) (a : Nat) : W32 :=
  let o := a - 0x400000
  if o < 0x800 ∧ o % 0x100 = 0x24 then s.recStatus (o / 0x100)
  else if 0x1000 ≤ o ∧ o < 0x1400 ∧ o % 0x100 = 0x18 then
    let d := s.dir ((o - 0x1000) / 0x100)
    pack [(0, b2n d.bound), (1, b2n d.init), (2, d.cause)]
  else if 0x2000 ≤ o ∧ o < 0x2100 ∧ o % 0x10 = 0 then
    let p := vget s.record.corePins ((o - 0x2000) / 0x10) { status := 0, refuse := 0, pin := none }
    pack [(8, p.status), (10, p.refuse)] ||| s.reg a
  else s.reg a

/-- `CHURN_STATUS` of input n (10). -/
def State.churnStatus (s : State) (n : Nat) : W32 :=
  let c := s.ch n
  let eng := match c.op with
    | none => 0
    | some (.pass, _) => 1
    | some (.decay _, _) => 2
    | some (.clear, _) => 3
  let held := fun sl => b2n (c.holds.any (fun h => h.1 == sl))
  pack [(0, if !s.churnOn n then 0 else if s.churnRuns n s.now then 2 else 1), (2, c.bufs.length), (4, eng), (6, b2n c.snap.isSome),
    (7, c.published.getD 0), (8, b2n c.pubValid), (9, held 0), (10, held 1), (11, b2n c.sat), (12, b2n c.avgFull)]

/-- The ticks between the edges on which a reader sees the count (R68, R71, R79): CK_CTL, for the host an instant at the model's choice
(log entry 44), CK_MGT. -/
def readerEdge (reader : Nat) : Nat := if reader < 16 then 64 else if reader = 16 then 8 else 320

/-- Word i of the KTS that a reader reads now (R22, R71). -/
def State.nowWord (s : State) (reader i : Nat) : W32 :=
  (s.kts (s.countAt (s.now / readerEdge reader * readerEdge reader)) 0 false 0).getD i 0

/-- Registers of the global region at address a (R44). -/
def State.globalWordAt (s : State) (a : Nat) : W32 :=
  if a = 0x0 then s.devId
  else if a = 0x14 then s.spanStatus
  else if 0x1000 ≤ a ∧ a < 0x100C then s.nowWord 0 ((a - 0x1000) / 4)
  else if a = 0x1034 then s.refStatus
  else if a = 0x1038 then s.refHoldover
  else if a = 0x1044 then s.nodStatus
  else if a = 0x2004 then s.modeStatus
  else if a = 0x4000 then s.permitStatus
  else if a = 0x4004 then railWord s.limits.core s.permits.load.core s.permits.held.core
  else if a = 0x4008 then railWord s.limits.conv s.permits.load.conv s.permits.held.conv
  else if a = 0x400C then railWord s.limits.hbm0 s.permits.load.hbm0 s.permits.held.hbm0
  else if a = 0x4010 then railWord s.limits.hbm1 s.permits.load.hbm1 s.permits.held.hbm1
  else if 0x4100 ≤ a ∧ a < 0x4500 then s.entryWord ((a - 0x4100) / 16) (a % 16 / 4)
  else if 0x8000 ≤ a ∧ a < 0x8050 then s.maskWord ((a - 0x8000) / 8) (a % 8 == 4)
  else if a = 0x8050 then s.mapStatus
  else if a = 0x8200 then s.memThrottle
  else if a = 0xC004 then s.refreshStatus
  else if a = 0xC034 then s.memFenced
  else if a = 0xC038 then s.memHeld
  else if 0xC100 ≤ a ∧ a < 0xC328 then s.mem.retain.getD ((a - 0xC100) / 4) 0
  else s.reg a

/-- What the DCS register at address a holds, as it stands now (R44, R47): reserved and unmapped addresses, and registers of
blocks absent on the SLW-9620, read 0. -/
def State.dcsWord (s : State) (a : Nat) : W32 :=
  if a % 4 ≠ 0 ∨ 0x800000 ≤ a ∨ (s.is9620 && absent9620 a) then 0
  else if a < 0x100000 then s.globalWordAt a
  else if a < 0x180000 then s.inputWordAt ((a - 0x100000) / 0x10000) (a % 0x10000) a
  else if 0x200000 ≤ a ∧ a < 0x280000 then s.chanWordAt ((a - 0x200000) / 0x10000) (a % 0x10000) a
  else if a = 0x300000 then s.trigStatus
  else if 0x301000 ≤ a ∧ a < 0x301400 ∧ a % 0x40 = 0x28 then s.cellStatus ((a - 0x301000) / 0x40)
  else if 0x302000 ≤ a ∧ a < 0x302400 ∧ a % 0x100 = 0x24 then s.progStatus ((a - 0x302000) / 0x100)
  else if 0x380000 ≤ a ∧ a < 0x400000 then s.tmrWordAt a
  else if 0x400000 ≤ a ∧ a < 0x500000 then s.recWordAt a
  else if 0x500000 ≤ a ∧ a < 0x600000 then
    let n := (a - 0x500000) / 0x20000
    let s := s.churnTo n s.now
    if a % 0x20000 = 0x48 then s.churnStatus n else s.reg a
  else if a = 0x600004 then s.sensStatus
  else if 0x600404 ≤ a ∧ a < 0x600440 ∧ a % 0x10 = 4 then s.excStatus ((a - 0x600404) / 0x10)
  else if 0x701000 ≤ a ∧ a < 0x701020 then s.reg (R.evtStatus ((a - 0x701000) / 4))
  else if 0x701100 ≤ a ∧ a < 0x701124 then s.reg (2 ^ 32 + 0x10104 + (a - 0x701100))
  else s.reg a

/-! ### Latches (01 R22) -/

/-- The registers that a read of the DCS register at `a` latches for its reader (R22; 06 R175, 07 R204, 09 R267, 19 R470 and
R477). -/
def latchedBy (a : Nat) : List Nat :=
  if a = 0x1000 then [0x1004, 0x1008]
  else if 0x200000 ≤ a ∧ a < 0x280000 ∧ a % 0x10000 = 0x120 then [a + 4, a + 8, a + 0x10, a + 0x14]
  else if 0x302000 ≤ a ∧ a < 0x302400 ∧ a % 0x100 = 0x40 then [a + 4, a + 8, a + 0x10, a + 0x14]
  else if 0x400000 ≤ a ∧ a < 0x400800 ∧ (a % 0x100 = 0x28 ∨ a % 0x100 = 0x30 ∨ a % 0x100 = 0x38 ∨ a % 0x100 = 0x40) then [a + 4]
  else if 0x401000 ≤ a ∧ a < 0x401400 ∧ (a % 0x100 = 0x20 ∨ a % 0x100 = 0x28) then [a + 4]
  else if a = 0x600040 then [0x600044, 0x600048, 0x60004C, 0x600050, 0x600058, 0x60005C]
  else if 0x600200 ≤ a ∧ a < 0x600300 ∧ a % 0x10 = 0 then [a + 4, a + 8, a + 12]
  else []

/-- The value that a reader's read of the DCS register at `a` delivers, and what the read does (R22, R47, R228): cores 0 to 15,
the host 16, Aselm 17. Only a core's read of `TMR_FIFO_DATA0` removes an entry. -/
def State.dcsRead (s : State) (reader a : Nat) : W32 × State :=
  if a = fifoData ∧ reader < 16 then
    let (e, s) := s.tmrPop
    (e.getD 0 0, (upTo 3).foldl (fun s j => s.latchSet reader (fifoData + 4 * (j + 1)) (e.getD (j + 1) 0)) s)
  else
    let word := fun (s : State) (x : Nat) => if 0x1000 ≤ x ∧ x < 0x100C then s.nowWord reader ((x - 0x1000) / 4) else s.dcsWord x
    ((s.latchGet reader a).getD (word s a), (latchedBy a).foldl (fun s x => s.latchSet reader x (word s x)) s)

/-! ### BAR0 (02, 11, 14 to 18, 20 to 22) -/

/-- `SEQ_STATUS` of core q (02). -/
def Core.statusWord (c : Core) : W32 :=
  let st := match c.run with
    | .halted => 0
    | .running => 1
    | .blocked => 2
    | .faulted => 3
    | .halting => 4
  pack [(0, st), (3, b2n c.hostWrErr), (4, c.groups.length), (8, c.openGrp.length), (17, c.drds.length)]

/-- `SEQ_COMMIT_LAST` of a core. -/
def Core.lastWord (c : Core) : W32 :=
  match c.done with
  | [] => 0
  | e :: _ => e.2

/-- `SEQ_SEM_STATEk` (R63). -/
def State.semWord (s : State) (k : Nat) : W32 :=
  let x := vget s.sems k Sem.reset
  pack [(0, b2n x.owner.isSome), (4, x.owner.getD 0), (16, x.waiters.foldl (fun m q => m ||| 2 ^ q) 0)]

/-- Registers of a core's control block at offset o (02). -/
def Core.ctrlWord (c : Core) (o : Nat) : W32 :=
  if o = 0x0 then pack [(5, b2n c.waitTrap), (8, c.startPc.toNat)]
  else if o = 0x4 then c.statusWord
  else if o = 0x8 then BitVec.ofNat 32 (c.pc.toNat % 4096)
  else if o = 0xC then c.cause
  else if o = 0x10 then c.info
  else if o = 0x14 then c.drdTimeout
  else if o = 0x20 then c.lastWord
  else if o = 0x24 then c.ticket
  else if 0x100 ≤ o ∧ o < 0x120 then vget c.h2c ((o - 0x100) / 4) 0
  else if o = 0x120 then pack [(0, c.h2cCount), (9, b2n c.h2cFull), (10, b2n c.h2cErr)]
  else if 0x140 ≤ o ∧ o < 0x160 then vget c.c2h ((o - 0x140) / 4) 0
  else if o = 0x160 then pack [(0, c.c2hCount), (8, b2n c.c2hFull)]
  else 0

/-- Registers of bulk DMA channel c at offset o (17 R441). -/
def State.dmaWord (s : State) (c o : Nat) : W32 :=
  let x := s.dchan c
  if o < 0x40 then x.set.getD (o / 4) 0 &&& (if 0x14 ≤ o ∧ o < 0x20 then 0xFFFFFF else 0xFFFFFFFF)
  else if o = 0x44 then s.dmaStatus c
  else if o = 0x48 then x.doorbell
  else if o = 0x4C then x.seen
  else if 0x50 ≤ o ∧ o < 0x5C then BitVec.ofNat 32 (x.remain / 2 ^ (8 * (o - 0x50)))
  else if o = 0x60 then loW x.errAddr.toNat
  else if o = 0x64 then hiW x.errAddr.toNat
  else if o = 0x68 then x.errInfo
  else if 0x6C ≤ o ∧ o < 0x78 then x.errIdx.getD ((o - 0x6C) / 4) 0
  else if o = 0x78 then loW x.cur.toNat
  else if o = 0x7C then hiW x.cur.toNat
  else 0

/-- Registers of the taps block at offset o as function f reads them (16 R415, R420): the context port is its own. -/
def State.tapWord (s : State) (f o : Nat) : W32 :=
  let p := s.tapPort f
  if o = 0 then s.tapSched
  else if o = 0x10 then BitVec.ofNat 32 p.sel
  else if o = 0x14 then BitVec.ofNat 32 (p.status * 256)
  else if 0x40 ≤ o ∧ o < 0x80 then p.data.getD ((o - 0x40) / 4) 0
  else if 0x1000 ≤ o ∧ o < 0x2000 then
    pack ((upTo 4).map (fun i => (8 * i, Assoc.get 0 s.tap.owner (o - 0x1000 + i))))
  else if 0x4000 ≤ o ∧ o < 0x8000 then (s.tapOf ((o - 0x4000) / 4)).db
  else if 0x8000 ≤ o ∧ o < 0xC000 then s.tapStatus ((o - 0x8000) / 4)
  else s.reg (2 ^ 32 + 0x50000 + o)

/-- Registers of the display block at offset o (18 R464). -/
def State.dspWord (s : State) (o : Nat) : W32 :=
  let d := s.dsp
  if o = 0x4 then s.dspStatus
  else if o = 0x8 then d.frames
  else if o = 0xC then d.flipCount
  else if 0x10 ≤ o ∧ o < 0x1C then d.flipKts.getD ((o - 0x10) / 4) 0
  else if o = 0x1C then BitVec.ofNat 32 d.flips
  else if 0x20 ≤ o ∧ o < 0x2C then d.vblankKts.getD ((o - 0x20) / 4) 0
  else if o = 0x2C then BitVec.ofNat 32 (d.status * 2)
  else if o = 0x30 then s.dspLinkStatus
  else s.reg (2 ^ 32 + 0x60000 + o)

/-- `MGT_STATE` (20 R515): of the running requests, the one in the lowest slot; the progress of a request is stated nowhere,
and reads as the free value of log entry 7. -/
def State.mgtState (s : State) : W32 :=
  match (upTo 17).find? (fun k => (s.mslot k).running) with
  | some k => pack [(0, s.mgt.state), (3, 1), (4, (s.mslot k).cmd), (12, k), (17, (Config.freeWord s.freeCtr).toNat % 101)]
  | none => pack [(0, s.mgt.state)]

/-- `MGT_UPD_STATUS`. -/
def State.updStatus (s : State) : W32 :=
  let m := s.mgt
  let left := if m.upd = 4 then min 4095 ((s.windowEnd - s.now) / 80000000000) else 0
  pack [(0, m.upd), (3, m.slot), (4, b2n m.incompatible), (5, m.boots), (7, m.epoch), (12, left)]

/-- `MGT_THERM`. -/
def State.thermWord (s : State) : W32 :=
  let h := s.mgt.hottest
  pack [(0, (h.1 / 16 + 64).toNat % 256), (8, h.2), (13, b2n s.mgt.throttle), (14, b2n s.mgt.warn)]

/-- Registers of the management block at offset o (20 R515). -/
def State.mgtWord (s : State) (o : Nat) : W32 :=
  let x := s.mslot 0
  if o < 0x20 then x.req.getD (o / 4) 0
  else if o = 0x20 then pack [(1, b2n x.full), (2, b2n s.mgt.refused)]
  else if 0x40 ≤ o ∧ o < 0x60 then x.ans.getD ((o - 0x40) / 4) 0
  else if o = 0x60 then pack [(0, b2n x.valid)]
  else if o = 0x80 then s.mgtState
  else if o = 0x84 then s.mgt.version
  else if o = 0x88 then s.updStatus
  else if o = 0x8C then s.thermWord
  else if o = 0x94 then BitVec.ofNat 32 s.mgt.life.ppm
  else s.reg (2 ^ 32 + 0x90000 + o)

/-- BAR0 blocks that RETAIN does not serve: they read 0 and ignore writes (21 R524). -/
def barAsleep (a : Nat) : Bool :=
  (decide (0x20000 ≤ a) && decide (a < 0x90000)) || (decide (0xA0000 ≤ a) && decide (a < 0x1000000)) || decide (0x2000000 ≤ a)

/-- What the BAR0 word at offset a holds, as it stands now. -/
def State.barWord (s : State) (a : Nat) : W32 :=
  if s.stopped && barAsleep a then 0
  else if a = 0 then s.devId
  else if a = 0x8 ∨ a = 0xC then Config.serial ((a - 8) / 4)
  else if 0x40 ≤ a ∧ a < 0x4C then s.nowWord 16 ((a - 0x40) / 4)
  else if a = 0x208 then s.linkStatus
  else if a = 0x10100 then pack [(0, s.evt.queue.length)] ||| s.reg R.evtQueueOvf
  else if 0x20000 ≤ a ∧ a < 0x30000 then (vget s.cores ((a - 0x20000) / 0x1000) Core.reset).ctrlWord (a % 0x1000)
  else if 0x30100 ≤ a ∧ a < 0x30140 then s.semWord ((a - 0x30100) / 4)
  else if 0x40000 ≤ a ∧ a < 0x42000 then s.dmaWord ((a - 0x40000) / 0x100) (a % 0x100)
  else if a = 0x48000 then s.dma.owner
  else if a = 0x48008 then pack ((upTo 32).map (fun c => (c, b2n (decide ((s.dchan c).state = 4 ∨ (s.dchan c).state = 5)))))
  else if 0x50000 ≤ a ∧ a < 0x60000 then s.tapWord 0 (a - 0x50000)
  else if 0x60000 ≤ a ∧ a < 0x61000 then s.dspWord (a - 0x60000)
  else if a = 0x70008 then s.xlate (s.reg64 R.memXlateIn)
  else if 0x72000 ≤ a ∧ a < 0x72228 then s.mem.retain.getD ((a - 0x72000) / 4) 0
  else if 0x90000 ≤ a ∧ a < 0x91000 then s.mgtWord (a - 0x90000)
  else if 0xA0000 ≤ a ∧ a < 0xA0800 then s.dcsWord (0x4000 + (a - 0xA0000))
  else if 0x1000000 ≤ a ∧ a < 0x2000000 then s.dcsWord (a - 0x1000000)
  else if 0x2000000 ≤ a ∧ a < 0x2100000 then
    let c := vget s.cores ((a - 0x2000000) / 0x10000) Core.reset
    let o := a % 0x10000
    if o < 0x4000 then Mem.word c.imem o else if 0x8000 ≤ o ∧ o < 0xA000 then Mem.word c.dmem (o - 0x8000) else 0
  else if 0x2100000 ≤ a ∧ a < 0x2140000 then Mem.word s.smem (a - 0x2100000)
  else s.reg (2 ^ 32 + a)

/-- BAR0 words that a host's read of word 0 of a KTS latches (R22; 03 R101, 18 R448, R458). -/
def barLatched (a : Nat) : List Nat := if a = 0x40 ∨ a = 0x60010 ∨ a = 0x60020 then [a + 4, a + 8] else []

/-- What a host read of the BAR0 word at offset a delivers, and what it does (R22; 02 R42, R44): the DCS window is read as a reader of its
own, an SMEM word takes the window's turn, and word 0 of a KTS latches the others. -/
def State.barRead (s : State) (a : Nat) : W32 × State :=
  if s.stopped && barAsleep a then (0, s)
  else if 0x1000000 ≤ a ∧ a < 0x2000000 then s.dcsRead 16 (a - 0x1000000)
  else if 0x2100000 ≤ a ∧ a < 0x2140000 then
    let r := s.smemFetch (a - 0x2100000) 4
    (BitVec.ofNat 32 (ofBytes r.1), r.2)
  else
    ((s.latchGet 16 (2 ^ 32 + a)).getD (s.barWord a), (barLatched a).foldl (fun s x => s.latchSet 16 (2 ^ 32 + x) (s.barWord x)) s)

/-- MEM_XLATE (R365): the host reads a BAR0 word, `MEM_XLATE_OUT` or another, or Aselm a DCS word through its port (R20, R22; log
entry 44). -/
def execMemXlate (aselm : Bool) (addr : W32) (s : State) : Host.Outcome State Fault Refusal := s.clocked <|
  let r := if aselm then s.dcsRead 17 (addr.toNat / 4 * 4) else s.barRead (addr.toNat / 4 * 4)
  .next { r.2 with hostRead := r.1 }

end Sys2Proof.Machine
end

