-- ==== Sys2Proof/Machine/CoreInstr.lean ====
section
/-! DEFINITION. Outstanding DCS reads (02 R48, R61; 12 R325, R326), and how an instruction of a core is fetched, checked,
executed and ended (02 R66; 12 R314, R316, R322, R337). -/

namespace Sys2Proof.Machine

/-! ### DCS reads -/

/-- Latency L of a DRD in CK_CTL cycles (R325). -/
def drdLatency (a : Nat) : Nat :=
  if (0x100000 ≤ a ∧ a < 0x180000 ∧ a % 0x10000 < 0x1000) ∨ (0x380000 ≤ a ∧ a < 0x400000) ∨ (0x600000 ≤ a ∧ a < 0x700000) then 40
  else 16

/-- Some HBM channel is in Mortar replay at elapsed tick t (R48, 15 R373). -/
def State.replayAt (s : State) (t : Nat) : Bool :=
  s.mem.holds.any (fun h => h.2.1 && decide (h.2.2.1 ≤ t) && decide (t < h.2.2.2)) ||
  (upTo 32).any (fun c => decide ((s.hchan c).attempt ≠ 0) && decide ((s.hchan c).heldFrom ≤ t))

/-- The elapsed tick at which the watchdog ends a DRD, if it does (R48): the cycles that count are those outside a replay. -/
def State.drdExpiry (s : State) (q : Fin 16) (d : Drd) : Option Nat :=
  let lim := ((s.core q).drdTimeout.toNat) % 2 ^ 24
  let counted := (upTo ((d.due - d.issued) / 64)).filter (fun k => !s.replayAt (d.issued + 64 * k))
  if lim = 0 ∨ counted.length ≤ lim then none else some (d.issued + 64 * (counted.getD (lim - 1) 0 + 1))

/-- A DRD issued at elapsed edge t (R325). -/
def State.drdIssue (s : State) (q : Fin 16) (gd : Nat) (a : Nat) (t : Nat) : State :=
  s.modCore q (fun c => { c with
    drds := c.drds ++ [{ gd := gd, addr := a, issued := t, due := t + 64 * drdLatency a, pc := c.pc, val := none }] })

/-- The first DRDs in issue order, `n` of them, reach their registers if they have not (R325): each value is taken. -/
def State.drdReach (s : State) (q : Fin 16) : Nat → State
  | 0 => s
  | n + 1 =>
    let s := s.drdReach q n
    match (s.core q).drds[n]? with
    | some d => match d.val with
      | some _ => s
      | none =>
        let r := s.dcsRead q d.addr
        r.2.modCore q (fun c => { c with drds := modAt c.drds n (fun x => { x with val := some r.1 }) })
    | none => s

/-- DRD number i in issue order writes its gd and is no longer outstanding (R47, R325). -/
def State.drdDeliver (s : State) (q : Fin 16) (i : Nat) (d : Drd) : State :=
  let s := (s.advance d.due).drdReach q (i + 1)
  s.modCore q (fun c => { c.wr d.gd (((c.drds[i]?).bind (·.val)).getD 0) with drds := c.drds.eraseIdx i })

/-- A fifth DRD, which waits until the oldest completes (R48), at elapsed tick t, begins then. -/
def State.drdFifth (s : State) (q : Fin 16) (t : Nat) : State :=
  match (s.core q).waiting with
  | some (.drd gd a) => (s.drdIssue q gd a (alignUp t 64)).modCore q (fun c => c.retireAt (alignUp t 64 + 64))
  | _ => s

/-- DRD number i completes (R325). -/
def State.drdDone (s : State) (q : Fin 16) (i : Nat) (d : Drd) : State :=
  let s := s.drdDeliver q i d
  if i = 0 then s.drdFifth q d.due else s

/-- The wait of a blocked instruction is given up without effect (R61, R338): a SEMTAKE leaves the waiter list, a PERMIT's request
the queue. -/
def State.abandon (s : State) (q : Fin 16) : State :=
  let s := match (s.core q).waiting with
    | some (.semtake n) => { s with sems := vmod s.sems n (fun x => { x with waiters := x.waiters.filter (· ≠ q.val) }) }
    | some (.permit _ kind _) => s.dropPermit q kind
    | _ => s
  s.modCore q (fun c => { c with waiting := none, met := none })

/-- The DRD that ends next, with its number in issue order and the tick at which it completes or its watchdog ends it: the earliest,
and the older of two. -/
def State.drdNext (s : State) (q : Fin 16) : Option (Nat × Drd × Nat) :=
  ((s.core q).drds.zipIdx.map (fun x => (x.2, x.1, (s.drdExpiry q x.1).getD x.1.due))).foldl (fun m x => match m with
    | some y => if x.2.2 < y.2.2 then some x else m
    | none => some x) none

/-- The oldest DRDs complete one after the other; `n` bounds them. -/
def State.drdFlush (s : State) (q : Fin 16) : Nat → State
  | 0 => s
  | n + 1 => match (s.core q).drds with
    | [] => s
    | d :: _ => (s.drdDeliver q 0 d).drdFlush q n

/-- The watchdog ends DRD number i at elapsed tick t (R326): the others complete into their registers first, and the core faults
with the address of the DRD. -/
def State.drdExpire (s : State) (q : Fin 16) (i : Nat) (d : Drd) (t : Nat) : State :=
  let s := (s.advance t).abandon q
  let s := s.modCore q (fun c => { c with drds := c.drds.eraseIdx i })
  let s := s.drdFlush q 4
  (s.modCore q (fun c => c.toFault 0x08 d.pc (BitVec.ofNat 32 d.addr))).raiseCore 9 R.evtCoresFault q

/-- The DRD that ends next ends, one way or the other. -/
def State.drdEnd (s : State) (q : Fin 16) : State :=
  match s.drdNext q with
  | none => s
  | some (i, d, t) => if (s.drdExpiry q d).isSome then s.drdExpire q i d t else s.drdDone q i d

/-- An instruction that reads or writes the destination of an outstanding DRD waits until the DRD has written it (R337); `fuel`
bounds the DRDs. -/
def State.drdWait (s : State) (q : Fin 16) (uses : List Nat) : Nat → State
  | 0 => s
  | fuel + 1 =>
    let c := s.core q
    if c.run = .running ∧ c.drds.any (fun d => d.gd != 0 && uses.contains d.gd) then (s.drdEnd q).drdWait q uses fuel else s

/-- DRD_COMPLETE (R325): the outstanding DRD that ends next writes its register and retires; one that the watchdog ends does not. -/
def execDrdComplete (q : Fin 16) (s : State) : Host.Outcome State Fault Refusal := s.awake <|
  match s.drdNext q with
  | none => .next s
  | some (i, d, _) => if (s.drdExpiry q d).isSome then .next s else .next (s.drdDone q i d)

/-- DRD_TIMEOUT (R326): the watchdog ends the DRD that ends next. -/
def execDrdTimeout (q : Fin 16) (s : State) : Host.Outcome State Fault Refusal := s.awake <|
  match s.drdNext q with
  | none => .next s
  | some (i, d, t) => if (s.drdExpiry q d).isSome then .next (s.drdExpire q i d t) else .next s

/-! ### Instructions -/

/-- The cycle at which core q's next instruction begins: its next edge, or now if later (R316). -/
def State.startEdge (s : State) (q : Fin 16) : Nat := max (s.core q).edge (alignUp s.now 64)

/-- A fault of an instruction found at elapsed edge t (R66, R67): a TWIN fault also raises TWIN_MISMATCH, with the core's path for
DMEM and blk13 for SMEM. -/
def State.instrFault (s : State) (q : Fin 16) (t cause : Nat) (info : W32) : State :=
  let b := s.boundaryFrom t
  let s := if cause = 0x05 then s.twinMismatchAt b (if info.toNat < 0x10000 then pathCore q else pathBlk 13) else s
  s.coreFaultAt b q cause info

/-- The state with the core's instruction, begun at elapsed edge e, ended as `r` says. -/
def State.finish (s : State) (q : Fin 16) (e : Nat) : InstrEnd → State
  | .ok s' k pc => s'.modCore q (fun c => if c.run = .running then c.goOn (e + 64 * k) pc else c)
  | .waits s' w => s'.modCore q (fun c => { c with run := .blocked, waiting := some w, met := none, edge := e })
  | .fault cause info => s.instrFault q e cause info
  | .fails s' cause info k => s'.instrFault q (e + 64 * k) cause info

/-- An instruction retires after k cycles with core q as `c`, and the next one follows it. -/
def State.retires (s : State) (q : Fin 16) (k : Nat) (c : Core) : InstrEnd := .ok (s.setCore q c) k (c.pc + 1)

/-- The fault that fetching and decoding an instruction at the core's PC meets (R314, R322, R339): PC_RANGE for either of its
words, then ILLEGAL_OPCODE. -/
def fetchFault (pc : W32) (op : Op) : Option (Nat × W32) :=
  if 4096 ≤ pc.toNat then some (0x02, pc)
  else if 4096 ≤ pc.toNat + (op.size - 1) then some (0x02, pc + 1)
  else if !op.ok then some (0x01, op.words.headD 0)
  else none

/-- Core q executes an instruction (R316): it begins only on a RUNNING core, once no outstanding DRD is to write a register that it
uses; `eff` is what it comes to, begun at an elapsed edge. -/
def State.instr (s : State) (q : Fin 16) (op : Op) (eff : State → Nat → InstrEnd) : State :=
  if (s.core q).run ≠ .running then s
  else match fetchFault (s.core q).pc op with
    | some f => (s.advance (s.startEdge q)).coreFault q f.1 f.2
    | none =>
      let s := s.drdWait q op.uses 4
      if (s.core q).run ≠ .running then s
      else
        let e := s.startEdge q
        let s := s.advance e
        s.finish q e (eff s e)

end Sys2Proof.Machine
end

