-- ==== Sys2Proof/Machine/Alu.lean ====
section
/-! DEFINITION. Arithmetic and logic (12 R319). -/

namespace Sys2Proof.Machine

/-- ADD (R319): gd = ga + gb; flags Z N C V. -/
def effAdd (q : Fin 16) (gd ga gb : Fin 32) (s : State) (_ : Nat) : InstrEnd :=
  let c := s.core q
  let o := addOut (c.rd ga) (c.rd gb) false
  s.retires q 1 ((c.setZNCV o).wr gd o.r)

/-- ADD (R319). -/
def execAdd (q : Fin 16) (gd ga gb : Fin 32) (s : State) : Host.Outcome State Fault Refusal := s.awake <| .next (s.instr q (.add gd ga gb) (effAdd q gd ga gb))

/-- ADDC (R319): gd = ga + gb + C; flags Z N C V. -/
def effAddc (q : Fin 16) (gd ga gb : Fin 32) (s : State) (_ : Nat) : InstrEnd :=
  let c := s.core q
  let o := addOut (c.rd ga) (c.rd gb) c.fc
  s.retires q 1 ((c.setZNCV o).wr gd o.r)

/-- ADDC (R319). -/
def execAddc (q : Fin 16) (gd ga gb : Fin 32) (s : State) : Host.Outcome State Fault Refusal := s.awake <| .next (s.instr q (.addc gd ga gb) (effAddc q gd ga gb))

/-- SUB (R319): gd = ga - gb; flags Z N C V. -/
def effSub (q : Fin 16) (gd ga gb : Fin 32) (s : State) (_ : Nat) : InstrEnd :=
  let c := s.core q
  let o := subOut (c.rd ga) (c.rd gb) true
  s.retires q 1 ((c.setZNCV o).wr gd o.r)

/-- SUB (R319). -/
def execSub (q : Fin 16) (gd ga gb : Fin 32) (s : State) : Host.Outcome State Fault Refusal := s.awake <| .next (s.instr q (.sub gd ga gb) (effSub q gd ga gb))

/-- SUBC (R319): gd = ga - gb - (1 - C); flags Z N C V. -/
def effSubc (q : Fin 16) (gd ga gb : Fin 32) (s : State) (_ : Nat) : InstrEnd :=
  let c := s.core q
  let o := subOut (c.rd ga) (c.rd gb) c.fc
  s.retires q 1 ((c.setZNCV o).wr gd o.r)

/-- SUBC (R319). -/
def execSubc (q : Fin 16) (gd ga gb : Fin 32) (s : State) : Host.Outcome State Fault Refusal := s.awake <| .next (s.instr q (.subc gd ga gb) (effSubc q gd ga gb))

/-- AND (R319): gd = ga AND gb; flags Z N. -/
def effAnd (q : Fin 16) (gd ga gb : Fin 32) (s : State) (_ : Nat) : InstrEnd :=
  let c := s.core q
  let o := c.rd ga &&& c.rd gb
  s.retires q 1 ((c.setZN o).wr gd o)

/-- AND (R319). -/
def execAnd (q : Fin 16) (gd ga gb : Fin 32) (s : State) : Host.Outcome State Fault Refusal := s.awake <| .next (s.instr q (.and gd ga gb) (effAnd q gd ga gb))

/-- OR (R319): gd = ga OR gb; flags Z N. -/
def effOr (q : Fin 16) (gd ga gb : Fin 32) (s : State) (_ : Nat) : InstrEnd :=
  let c := s.core q
  let o := c.rd ga ||| c.rd gb
  s.retires q 1 ((c.setZN o).wr gd o)

/-- OR (R319). -/
def execOr (q : Fin 16) (gd ga gb : Fin 32) (s : State) : Host.Outcome State Fault Refusal := s.awake <| .next (s.instr q (.or gd ga gb) (effOr q gd ga gb))

/-- XOR (R319): gd = ga XOR gb; flags Z N. -/
def effXor (q : Fin 16) (gd ga gb : Fin 32) (s : State) (_ : Nat) : InstrEnd :=
  let c := s.core q
  let o := c.rd ga ^^^ c.rd gb
  s.retires q 1 ((c.setZN o).wr gd o)

/-- XOR (R319). -/
def execXor (q : Fin 16) (gd ga gb : Fin 32) (s : State) : Host.Outcome State Fault Refusal := s.awake <| .next (s.instr q (.xor gd ga gb) (effXor q gd ga gb))

/-- SHL (R319): gd = ga << gb[4:0]; flags Z N C. -/
def effShl (q : Fin 16) (gd ga gb : Fin 32) (s : State) (_ : Nat) : InstrEnd :=
  let c := s.core q
  let o := shlOut (c.rd ga) (fld (c.rd gb) 0 5)
  s.retires q 1 ((c.setZNC o).wr gd o.r)

/-- SHL (R319). -/
def execShl (q : Fin 16) (gd ga gb : Fin 32) (s : State) : Host.Outcome State Fault Refusal := s.awake <| .next (s.instr q (.shl gd ga gb) (effShl q gd ga gb))

/-- SHR (R319): gd = ga >> gb[4:0] with zero fill; flags Z N C. -/
def effShr (q : Fin 16) (gd ga gb : Fin 32) (s : State) (_ : Nat) : InstrEnd :=
  let c := s.core q
  let o := shrOut (c.rd ga) (fld (c.rd gb) 0 5)
  s.retires q 1 ((c.setZNC o).wr gd o.r)

/-- SHR (R319). -/
def execShr (q : Fin 16) (gd ga gb : Fin 32) (s : State) : Host.Outcome State Fault Refusal := s.awake <| .next (s.instr q (.shr gd ga gb) (effShr q gd ga gb))

/-- SAR (R319): gd = ga >> gb[4:0] with sign fill; flags Z N C. -/
def effSar (q : Fin 16) (gd ga gb : Fin 32) (s : State) (_ : Nat) : InstrEnd :=
  let c := s.core q
  let o := sarOut (c.rd ga) (fld (c.rd gb) 0 5)
  s.retires q 1 ((c.setZNC o).wr gd o.r)

/-- SAR (R319). -/
def execSar (q : Fin 16) (gd ga gb : Fin 32) (s : State) : Host.Outcome State Fault Refusal := s.awake <| .next (s.instr q (.sar gd ga gb) (effSar q gd ga gb))

/-- MUL (R319): gd = bits [31:0] of ga x gb, in 3 cycles; flags Z N. -/
def effMul (q : Fin 16) (gd ga gb : Fin 32) (s : State) (_ : Nat) : InstrEnd :=
  let c := s.core q
  let o := c.rd ga * c.rd gb
  s.retires q 3 ((c.setZN o).wr gd o)

/-- MUL (R319). -/
def execMul (q : Fin 16) (gd ga gb : Fin 32) (s : State) : Host.Outcome State Fault Refusal := s.awake <| .next (s.instr q (.mul gd ga gb) (effMul q gd ga gb))

/-- MULHU (R319): gd = bits [63:32] of the unsigned product, in 3 cycles; flags Z N. -/
def effMulhu (q : Fin 16) (gd ga gb : Fin 32) (s : State) (_ : Nat) : InstrEnd :=
  let c := s.core q
  let o := mulhuWord (c.rd ga) (c.rd gb)
  s.retires q 3 ((c.setZN o).wr gd o)

/-- MULHU (R319). -/
def execMulhu (q : Fin 16) (gd ga gb : Fin 32) (s : State) : Host.Outcome State Fault Refusal := s.awake <| .next (s.instr q (.mulhu gd ga gb) (effMulhu q gd ga gb))

/-- CMP (R319): flags of ga - gb, no register written; flags Z N C V. -/
def effCmp (q : Fin 16) (ga gb : Fin 32) (s : State) (_ : Nat) : InstrEnd :=
  let c := s.core q
  let o := subOut (c.rd ga) (c.rd gb) true
  s.retires q 1 (c.setZNCV o)

/-- CMP (R319). -/
def execCmp (q : Fin 16) (ga gb : Fin 32) (s : State) : Host.Outcome State Fault Refusal := s.awake <| .next (s.instr q (.cmp ga gb) (effCmp q ga gb))

/-- TST (R319): flags of ga AND gb, no register written; flags Z N. -/
def effTst (q : Fin 16) (ga gb : Fin 32) (s : State) (_ : Nat) : InstrEnd :=
  let c := s.core q
  let o := c.rd ga &&& c.rd gb
  s.retires q 1 (c.setZN o)

/-- TST (R319). -/
def execTst (q : Fin 16) (ga gb : Fin 32) (s : State) : Host.Outcome State Fault Refusal := s.awake <| .next (s.instr q (.tst ga gb) (effTst q ga gb))

/-- ADDI (R319): gd = ga + sext(imm15); flags Z N C V. -/
def effAddi (q : Fin 16) (gd ga : Fin 32) (imm : BitVec 15) (s : State) (_ : Nat) : InstrEnd :=
  let c := s.core q
  let o := addOut (c.rd ga) (sext15 imm) false
  s.retires q 1 ((c.setZNCV o).wr gd o.r)

/-- ADDI (R319). -/
def execAddi (q : Fin 16) (gd ga : Fin 32) (imm : BitVec 15) (s : State) : Host.Outcome State Fault Refusal := s.awake <| .next (s.instr q (.addi gd ga imm) (effAddi q gd ga imm))

/-- ANDI (R319): gd = ga AND zext(imm15); flags Z N. -/
def effAndi (q : Fin 16) (gd ga : Fin 32) (imm : BitVec 15) (s : State) (_ : Nat) : InstrEnd :=
  let c := s.core q
  let o := c.rd ga &&& zext15 imm
  s.retires q 1 ((c.setZN o).wr gd o)

/-- ANDI (R319). -/
def execAndi (q : Fin 16) (gd ga : Fin 32) (imm : BitVec 15) (s : State) : Host.Outcome State Fault Refusal := s.awake <| .next (s.instr q (.andi gd ga imm) (effAndi q gd ga imm))

/-- ORI (R319): gd = ga OR zext(imm15); flags Z N. -/
def effOri (q : Fin 16) (gd ga : Fin 32) (imm : BitVec 15) (s : State) (_ : Nat) : InstrEnd :=
  let c := s.core q
  let o := c.rd ga ||| zext15 imm
  s.retires q 1 ((c.setZN o).wr gd o)

/-- ORI (R319). -/
def execOri (q : Fin 16) (gd ga : Fin 32) (imm : BitVec 15) (s : State) : Host.Outcome State Fault Refusal := s.awake <| .next (s.instr q (.ori gd ga imm) (effOri q gd ga imm))

/-- XORI (R319): gd = ga XOR zext(imm15); flags Z N. -/
def effXori (q : Fin 16) (gd ga : Fin 32) (imm : BitVec 15) (s : State) (_ : Nat) : InstrEnd :=
  let c := s.core q
  let o := c.rd ga ^^^ zext15 imm
  s.retires q 1 ((c.setZN o).wr gd o)

/-- XORI (R319). -/
def execXori (q : Fin 16) (gd ga : Fin 32) (imm : BitVec 15) (s : State) : Host.Outcome State Fault Refusal := s.awake <| .next (s.instr q (.xori gd ga imm) (effXori q gd ga imm))

/-- SHLI (R319): gd = ga << imm15[4:0]; flags Z N C. -/
def effShli (q : Fin 16) (gd ga : Fin 32) (imm : BitVec 15) (s : State) (_ : Nat) : InstrEnd :=
  let c := s.core q
  let o := shlOut (c.rd ga) (imm.toNat % 32)
  s.retires q 1 ((c.setZNC o).wr gd o.r)

/-- SHLI (R319). -/
def execShli (q : Fin 16) (gd ga : Fin 32) (imm : BitVec 15) (s : State) : Host.Outcome State Fault Refusal := s.awake <| .next (s.instr q (.shli gd ga imm) (effShli q gd ga imm))

/-- SHRI (R319): as SHR by imm15[4:0]; flags Z N C. -/
def effShri (q : Fin 16) (gd ga : Fin 32) (imm : BitVec 15) (s : State) (_ : Nat) : InstrEnd :=
  let c := s.core q
  let o := shrOut (c.rd ga) (imm.toNat % 32)
  s.retires q 1 ((c.setZNC o).wr gd o.r)

/-- SHRI (R319). -/
def execShri (q : Fin 16) (gd ga : Fin 32) (imm : BitVec 15) (s : State) : Host.Outcome State Fault Refusal := s.awake <| .next (s.instr q (.shri gd ga imm) (effShri q gd ga imm))

/-- SARI (R319): as SAR by imm15[4:0]; flags Z N C. -/
def effSari (q : Fin 16) (gd ga : Fin 32) (imm : BitVec 15) (s : State) (_ : Nat) : InstrEnd :=
  let c := s.core q
  let o := sarOut (c.rd ga) (imm.toNat % 32)
  s.retires q 1 ((c.setZNC o).wr gd o.r)

/-- SARI (R319). -/
def execSari (q : Fin 16) (gd ga : Fin 32) (imm : BitVec 15) (s : State) : Host.Outcome State Fault Refusal := s.awake <| .next (s.instr q (.sari gd ga imm) (effSari q gd ga imm))

/-- CMPI (R319): flags of ga - sext(imm15); flags Z N C V. -/
def effCmpi (q : Fin 16) (ga : Fin 32) (imm : BitVec 15) (s : State) (_ : Nat) : InstrEnd :=
  let c := s.core q
  let o := subOut (c.rd ga) (sext15 imm) true
  s.retires q 1 (c.setZNCV o)

/-- CMPI (R319). -/
def execCmpi (q : Fin 16) (ga : Fin 32) (imm : BitVec 15) (s : State) : Host.Outcome State Fault Refusal := s.awake <| .next (s.instr q (.cmpi ga imm) (effCmpi q ga imm))

/-- LI (R319): gd = imm32, in 2 cycles and two words; no flags. -/
def effLi (q : Fin 16) (gd : Fin 32) (imm32 : W32) (s : State) (_ : Nat) : InstrEnd :=
  let c := s.core q
  .ok (s.setCore q (c.wr gd imm32)) 2 (c.pc + 2)

/-- LI (R319). -/
def execLi (q : Fin 16) (gd : Fin 32) (imm32 : W32) (s : State) : Host.Outcome State Fault Refusal := s.awake <| .next (s.instr q (.li gd imm32) (effLi q gd imm32))

end Sys2Proof.Machine
end

