-- ==== Sys2Proof/Machine/Control.lean ====
section
/-! DEFINITION. Flow of control (12 R318, R322, R323). -/

namespace Sys2Proof.Machine

/-- B.cond (R322): PC = T where the condition holds, in 2 cycles; else 1 cycle. -/
def effBCond (q : Fin 16) (cond : BitVec 4) (off : BitVec 13) (s : State) (_ : Nat) : InstrEnd :=
  let c := s.core q
  if c.cond cond then .ok s 2 (target c.pc off) else .ok s 1 (c.pc + 1)

/-- B.cond (R322). -/
def execBCond (q : Fin 16) (cond : BitVec 4) (off : BitVec 13) (s : State) : Host.Outcome State Fault Refusal := s.awake <| .next (s.instr q (.branch cond off) (effBCond q cond off))

/-- CALL (R322): pushes the address of the CALL + 1, then PC = T, in 2 cycles; 16 entries on the stack fault CALL_STACK. -/
def effCall (q : Fin 16) (off : BitVec 13) (s : State) (_ : Nat) : InstrEnd :=
  let c := s.core q
  if 16 ≤ c.stack.length then .fault 0x0B (BitVec.ofNat 32 c.stack.length)
  else .ok (s.setCore q { c with stack := (c.pc + 1) :: c.stack }) 2 (target c.pc off)

/-- CALL (R322). -/
def execCall (q : Fin 16) (off : BitVec 13) (s : State) : Host.Outcome State Fault Refusal := s.awake <| .next (s.instr q (.call off) (effCall q off))

/-- RET (R322): pops into PC, in 2 cycles; an empty stack faults CALL_STACK. -/
def effRet (q : Fin 16) (s : State) (_ : Nat) : InstrEnd :=
  let c := s.core q
  match c.stack with
  | [] => .fault 0x0B 0
  | t :: r => .ok (s.setCore q { c with stack := r }) 2 t

/-- RET (R322). -/
def execRet (q : Fin 16) (s : State) : Host.Outcome State Fault Refusal := s.awake <| .next (s.instr q .ret (effRet q))

/-- LOOP (R322): ga = ga - 1, and PC = T where ga is then not 0; 2 cycles taken, 1 not. No flags. -/
def effLoop (q : Fin 16) (ga : Fin 32) (off : BitVec 13) (s : State) (_ : Nat) : InstrEnd :=
  let c := s.core q
  let d := c.wr ga (c.rd ga - 1)
  if d.rd ga ≠ 0 then .ok (s.setCore q d) 2 (target c.pc off) else .ok (s.setCore q d) 1 (c.pc + 1)

/-- LOOP (R322). -/
def execLoop (q : Fin 16) (ga : Fin 32) (off : BitVec 13) (s : State) : Host.Outcome State Fault Refusal := s.awake <| .next (s.instr q (.loop ga off) (effLoop q ga off))

/-- JR (R322): PC = ga[11:0], in 2 cycles; a ga with bits above 11 faults PC_RANGE at the next fetch, so the whole of it is kept. -/
def effJr (q : Fin 16) (ga : Fin 32) (s : State) (_ : Nat) : InstrEnd := .ok s 2 ((s.core q).rd ga)

/-- JR (R322). -/
def execJr (q : Fin 16) (ga : Fin 32) (s : State) : Host.Outcome State Fault Refusal := s.awake <| .next (s.instr q (.jr ga) (effJr q ga))

/-- HALT (R323): SEQ_PC becomes the next address, and the core passes through HALTING to HALTED; at word 4,095 it faults PC_RANGE. -/
def effHalt (q : Fin 16) (s : State) (e : Nat) : InstrEnd :=
  let c := s.core q
  if c.pc.toNat = 4095 then .fault 0x02 4096
  else .ok (s.setCore q ({ c with pc := c.pc + 1, edge := e + 64 } : Core).toHalt) 1 (c.pc + 1)

/-- HALT (R323). -/
def execHalt (q : Fin 16) (s : State) : Host.Outcome State Fault Refusal := s.awake <| .next (s.instr q .halt (effHalt q))

/-- NOP (R322). -/
def effNop (q : Fin 16) (s : State) (_ : Nat) : InstrEnd := s.retires q 1 (s.core q)

/-- NOP (R322). -/
def execNop (q : Fin 16) (s : State) : Host.Outcome State Fault Refusal := s.awake <| .next (s.instr q .nop (effNop q))

end Sys2Proof.Machine
end

