-- ==== Sys2Proof/Machine/DcsAccess.lean ====
section
/-! DEFINITION. DCS access and commit groups up to their boundary (02 R45, R49 to R54, R58; 03 R97; 12 R324, R325). -/

namespace Sys2Proof.Machine

/-! ### Staging (02 R49) -/

/-- A write joins the open group in k cycles, and the next instruction is `size` words on; the 257th faults with `info` (R49). -/
def State.stage (s : State) (q : Fin 16) (w : Staged) (info : W32) (k size : Nat) : InstrEnd :=
  let c := s.core q
  if 256 ≤ c.openGrp.length then .fault 0x07 info
  else .ok (s.setCore q { c with openGrp := c.openGrp ++ [w] }) k (c.pc + BitVec.ofNat 32 size)

/-- DWR (R324). -/
def effDwr (q : Fin 16) (gd ga : Fin 32) (imm : BitVec 15) (s : State) (_ : Nat) : InstrEnd :=
  let a := (s.core q).dcsAddr ga imm
  if dcsBad a then .fault 0x04 a else s.stage q (.reg a.toNat ((s.core q).rd gd)) a 1 1

/-- DWR (R324). -/
def execDwr (q : Fin 16) (gd ga : Fin 32) (imm : BitVec 15) (s : State) : Host.Outcome State Fault Refusal := s.awake <|
  .next (s.instr q (.dwr gd ga imm) (effDwr q gd ga imm))

/-- DWRI (R324). -/
def effDwri (q : Fin 16) (ga : Fin 32) (imm : BitVec 15) (imm32 : W32) (s : State) (_ : Nat) : InstrEnd :=
  let a := (s.core q).dcsAddr ga imm
  if dcsBad a then .fault 0x04 a else s.stage q (.reg a.toNat imm32) a 2 2

/-- DWRI (R324). -/
def execDwri (q : Fin 16) (ga : Fin 32) (imm : BitVec 15) (imm32 : W32) (s : State) : Host.Outcome State Fault Refusal := s.awake <|
  .next (s.instr q (.dwri ga imm imm32) (effDwri q ga imm imm32))

/-- DRD (R324, R325): it issues in one cycle; a fifth waits for the oldest (R48). -/
def effDrd (q : Fin 16) (gd ga : Fin 32) (imm : BitVec 15) (s : State) (e : Nat) : InstrEnd :=
  let c := s.core q
  let a := c.dcsAddr ga imm
  if dcsBad a then .fault 0x04 a
  else if 4 ≤ c.drds.length then .waits s (.drd gd a.toNat)
  else .ok (s.drdIssue q gd a.toNat e) 1 (c.pc + 1)

/-- DRD (R324, R325). -/
def execDrd (q : Fin 16) (gd ga : Fin 32) (imm : BitVec 15) (s : State) : Host.Outcome State Fault Refusal := s.awake <|
  .next (s.instr q (.drd gd ga imm) (effDrd q gd ga imm))

/-- SYNCZ with m = 0 (R57, R324). -/
def effSynczZero (q : Fin 16) (s : State) (_ : Nat) : InstrEnd := s.stage q .zero 0xFFFFFFFF 1 1

/-- SYNCZ with m = 0 (R57, R324). -/
def execSynczZero (q : Fin 16) (s : State) : Host.Outcome State Fault Refusal := s.awake <| .next (s.instr q (.syncz 0 0) (effSynczZero q))

/-- SYNCZ with m = 1 (R57, R324). -/
def effSynczOffset (q : Fin 16) (ga : Fin 32) (s : State) (_ : Nat) : InstrEnd :=
  s.stage q (.offset ((s.core q).rd ga)) 0xFFFFFFFF 1 1

/-- SYNCZ with m = 1 (R57, R324). -/
def execSynczOffset (q : Fin 16) (ga : Fin 32) (s : State) : Host.Outcome State Fault Refusal := s.awake <|
  .next (s.instr q (.syncz ga 1) (effSynczOffset q ga))

/-! ### Closing a group (02 R50 to R54) -/

/-- A Keystone action among staged writes. -/
def Staged.isAction : Staged → Bool
  | .reg _ _ => false
  | _ => true

/-- The `REC_NOD_SEND` word with which staged writes send a Nodric arm mark (09 R260), if they do. -/
def armSend (ws : List Staged) : Option W32 := (lastWrite ws R.recNodSend).filter (fun v => bit v 0)

/-- The lead that a group with a Keystone action or an arm mark takes on a root with an aligned follower (R97; 09 R260). -/
def State.actionLead (s : State) (ws : List Staged) : Nat :=
  if s.nodRole = 1 ∧ s.nod.followers ≠ [] ∧ (ws.any Staged.isAction || (armSend ws).isSome) then (s.reg R.nodLead).toNat else 0

/-- The group that closes at retire tick t (R51, R97). -/
def State.newGroup (s : State) (q : Fin 16) (cond : GroupCond) (t : Nat) : Group :=
  let c := s.core q
  let tEnd := max t c.xferEnd + 128 * ((c.openGrp.length + 7) / 8)
  s.judge { ticket := c.ticket, writes := c.openGrp, cond := cond, tEnd := tEnd,
            bMin := alignUp (tEnd + 256 + s.actionLead c.openGrp) 128,
            due := none, expire := none, late := false, seen := none, armed := false }

/-- Core q after its open group has closed at retire tick t, with the ticket in gd (R50). -/
def State.closed (s : State) (q : Fin 16) (gd : Nat) (cond : GroupCond) (t : Nat) : Core :=
  let c := s.core q
  let g := s.newGroup q cond t
  { c.wr gd c.ticket with openGrp := [], groups := c.groups ++ [g], xferEnd := g.tEnd, ticket := c.ticket + 1 }

/-- COMMIT or COMMITEV begun at elapsed edge e: with 8 groups held it waits (R50). -/
def State.closeGroup (s : State) (q : Fin 16) (gd : Nat) (cond : GroupCond) (e : Nat) : InstrEnd :=
  if 8 ≤ (s.core q).groups.length then .waits s (.slot gd cond) else s.retires q 1 (s.closed q gd cond (e + 64))

/-- COMMIT (R52, R53). -/
def effCommit (q : Fin 16) (gd ga : Fin 32) (discard : Bool) (s : State) (e : Nat) : InstrEnd :=
  s.closeGroup q gd (.tick ((s.core q).pair ga) discard) e

/-- COMMIT (R52, R53). -/
def execCommit (q : Fin 16) (gd ga : Fin 32) (discard : Bool) (s : State) : Host.Outcome State Fault Refusal := s.awake <|
  .next (s.instr q (.commit gd ga discard) (effCommit q gd ga discard))

/-- COMMITEV (R54). -/
def effCommitev (q : Fin 16) (gd ga : Fin 32) (src : BitVec 8) (s : State) (e : Nat) : InstrEnd :=
  s.closeGroup q gd (.event src.toNat ((s.core q).pair ga)) e

/-- COMMITEV (R54). -/
def execCommitev (q : Fin 16) (gd ga : Fin 32) (src : BitVec 8) (s : State) : Host.Outcome State Fault Refusal := s.awake <|
  .next (s.instr q (.commitev gd ga src) (effCommitev q gd ga src))

/-- COMMIT_SLOT_FREE (R50, R316): the waiting COMMIT or COMMITEV retires at W + 128, W the cycle in which a group left, and
closes its group then. -/
def execCommitSlotFree (q : Fin 16) (s : State) : Host.Outcome State Fault Refusal := s.awake <|
  let c := s.core q
  match c.waiting, c.met with
  | some (.slot gd cond), some w =>
    if c.groups.length < 8 then
      let t := w / 64 * 64 + 128
      .next (s.setCore q ((s.closed q gd cond t).retireAt t))
    else .next s
  | _, _ => .next s

/-! ### Waiting for a group (02 R58) -/

/-- A completion status in the format of `SEQ_COMMIT_LAST`. -/
def groupStatus (ticket : W32) (result : Nat) (conflict : Bool) (reason : Nat) : W32 :=
  pack [(0, ticket.toNat % 65536), (16, result), (19, b2n conflict), (20, reason)]

/-- What CWAIT returns at once, if it does (R58). -/
def Core.cwaitNow (c : Core) (t : W32) : Option W32 :=
  if c.ticket.toNat ≤ t.toNat then some (groupStatus t 5 false 0)
  else if c.groups.any (fun g => g.ticket == t) then none
  else match c.done.find? (fun e => e.1 == t) with
    | some e => some e.2
    | none => some (groupStatus t 4 false 0)

/-- CWAIT (R58): a status that is known is returned in one cycle. -/
def effCwait (q : Fin 16) (gd ga : Fin 32) (s : State) (_ : Nat) : InstrEnd :=
  let c := s.core q
  match c.cwaitNow (c.rd ga) with
  | some st => s.retires q 1 (c.wr gd st)
  | none => .waits s (.cwait gd (c.rd ga))

/-- CWAIT (R58). -/
def execCwait (q : Fin 16) (gd ga : Fin 32) (s : State) : Host.Outcome State Fault Refusal := s.awake <|
  .next (s.instr q (.cwait gd ga) (effCwait q gd ga))

/-- A core's group with a ticket completes at elapsed tick t (R58): it is no longer held, its status joins the last 16, a waiting
COMMIT finds its slot, and a CWAIT for it retires in the cycle after the one that contains t. -/
def Core.complete (c : Core) (ticket : W32) (result : Nat) (conflict : Bool) (reason t : Nat) : Core :=
  let st := groupStatus ticket result conflict reason
  let c := { c with groups := c.groups.filter (fun g => g.ticket != ticket), done := ((ticket, st) :: c.done).take 16 }
  match c.waiting with
  | some (.slot _ _) => c.meets t
  | some (.cwait gd x) => if x = ticket then (c.wr gd st).retireAt (t / 64 * 64 + 128) else c
  | _ => c

/-- A group is rejected with a reason at elapsed tick t (R56). -/
def State.rejectGroup (s : State) (q : Fin 16) (ticket : W32) (reason t : Nat) : State :=
  (s.modCore q (fun c => c.complete ticket 3 false reason t)).raiseCore 7 R.evtCoresReject q

/-! ### Transfer and event conditions (02 R51, R54; 03 R97) -/

/-- The late policy rejects a group (R53). -/
def Group.discards (g : Group) : Bool := match g.cond with
  | .tick _ d => g.late && d
  | .event _ _ => false

/-- The ZERO marks that a root sends for the Keystone actions of a group whose boundary is known (R97), and its arm mark
(09 R260); a group that its late policy will reject sends none. -/
def State.sendMarks (s : State) (g : Group) : State :=
  match g.due with
  | none => s
  | some b =>
    if s.nodRole = 1 ∧ s.nod.followers ≠ [] ∧ ¬ g.discards then
      let s := g.writes.foldl (fun s w => match w with
        | .zero => s.nodSend s.nodDown (.zero true 0 (s.countAt b))
        | .offset o => s.nodSend s.nodDown (.zero false o (s.countAt b))
        | .reg _ _ => s) s
      match armSend g.writes with
      | some v => s.nodSend s.nodDown (.arm (bit v 1) (fld v 2 8) (fld v 10 4) (s.countAt b))
      | none => s
    else s

/-- The state with a held group changed. -/
def State.modGroup (s : State) (q : Fin 16) (ticket : W32) (f : Group → Group) : State :=
  s.modCore q (fun c => { c with groups := c.groups.map (fun g => if g.ticket = ticket then f g else g) })

/-- A group's transfer ends (R51, R97). -/
def State.transferEnd (s : State) (q : Fin 16) (g : Group) : State :=
  ((s.advance g.tEnd).modGroup q g.ticket (fun g => { g with armed := true })).sendMarks g

/-- GROUP_TRANSFER_END (R51): the core's oldest transferring group. -/
def execGroupTransferEnd (q : Fin 16) (s : State) : Host.Outcome State Fault Refusal := s.awake <|
  match (s.core q).groups.find? (fun g => !g.armed) with
  | some g => .next (s.transferEnd q g)
  | none => .next s

/-- COMMITEV_TRIGGERED (R54): the group falls due at the boundary after the occurrence. Its ZERO marks, whose boundary was not
known at the end of its transfer, are sent now (log entry 17). -/
def execCommitevTriggered (q : Fin 16) (ticket : W32) (s : State) : Host.Outcome State Fault Refusal := s.awake <|
  match (s.core q).groups.find? (fun g => g.ticket == ticket) with
  | some g => match g.seen, g.due with
    | some b, none =>
      let s := s.advance b
      let s := if g.armed then s else s.transferEnd q g
      .next ((s.modGroup q ticket (fun g => { g with due := some (boundaryAfter b) })).sendMarks { g with due := some (boundaryAfter b) })
    | _, _ => .next s
  | none => .next s

/-- EV_EXPIRED (R54, R57). -/
def execEvExpired (q : Fin 16) (ticket : W32) (s : State) : Host.Outcome State Fault Refusal := s.awake <|
  match (s.core q).groups.find? (fun g => g.ticket == ticket) with
  | some g => match g.expire, g.seen with
    | some x, none => .next ((s.advance x).rejectGroup q ticket 6 x)
    | _, _ => .next s
  | none => .next s

end Sys2Proof.Machine
end

