-- ==== Sys2Proof/Machine/TimeEvents.lean ====
section
/-! DEFINITION. Time and events of the cores: TICK, WAIT, WAITT, SIG (12 R327 to R330). -/

namespace Sys2Proof.Machine

/-- TICK (R327): the count at the edge that begins its cycle. -/
def effTick (q : Fin 16) (gd : Fin 32) (s : State) (e : Nat) : InstrEnd := s.retires q 1 ((s.core q).wrPair gd (s.countAt e))

/-- TICK (R327). -/
def execTick (q : Fin 16) (gd : Fin 32) (s : State) : Host.Outcome State Fault Refusal := s.awake <| .next (s.instr q (.tick gd) (effTick q gd))

/-- WAIT (R328): it sees occurrences from the edge that begins it. -/
def effWait (q : Fin 16) (gd : Fin 32) (src : BitVec 8) (gb : Fin 32) (s : State) (e : Nat) : InstrEnd :=
  .waits s (.wait gd src.toNat e ((s.core q).rd gb).toNat none)

/-- WAIT (R328). -/
def execWait (q : Fin 16) (gd : Fin 32) (src : BitVec 8) (gb : Fin 32) (s : State) : Host.Outcome State Fault Refusal := s.awake <|
  .next (s.instr q (.wait gd src gb) (effWait q gd src gb))

/-- A WAIT's occurrence at t counts: without a timeout, or within one of its cycles (R328). -/
def waitHit (start tmo t : Nat) : Bool := tmo == 0 || decide (t < start + 64 * tmo)

/-- WAIT_OCCURRENCE (R328): WAIT retires in the cycle after the one that contains t, with gd = t[31:0] and C = 0. -/
def execWaitOccurrence (q : Fin 16) (s : State) : Host.Outcome State Fault Refusal := s.awake <|
  match (s.core q).waiting with
  | some (.wait gd _ start tmo (some (t, low))) =>
    if waitHit start tmo t then
      .next ((s.advance t).modCore q (fun c => ({ c.wr gd low with fc := false } : Core).retireAt (t / 64 * 64 + 128)))
    else .next s
  | _ => .next s

/-- WAIT_TIMEOUT (R328): in the last cycle of the timeout WAIT retires with C = 1, or faults WAIT_TIMEOUT. -/
def execWaitTimeout (q : Fin 16) (s : State) : Host.Outcome State Fault Refusal := s.awake <|
  match (s.core q).waiting with
  | some (.wait _ src start tmo seen) =>
    if tmo = 0 ∨ seen.any (fun e => waitHit start tmo e.1) then .next s
    else
      let t := start + 64 * tmo
      let s := s.advance t
      if (s.core q).waitTrap then .next (s.coreFault q 0x06 (BitVec.ofNat 32 src))
      else .next (s.modCore q (fun c => ({ c with fc := true } : Core).retireAt t))
  | _ => .next s

/-- WAITT (R329): the first cycle judges the count against the target. -/
def effWaitt (q : Fin 16) (ga : Fin 32) (s : State) (e : Nat) : InstrEnd :=
  let c := s.core q
  let k := c.pair ga
  let e0 := s.countAt e
  if e0 < k then .waits s (.waitt k (alignUp (e + (k - e0)) 64) false)
  else if e0 < k + 64 then s.retires q 1 { c with fc := false }
  else if c.waitTrap then .fault 0x06 0xFFFFFFFF
  else s.retires q 1 { c with fc := true }

/-- WAITT (R329). -/
def execWaitt (q : Fin 16) (ga : Fin 32) (s : State) : Host.Outcome State Fault Refusal := s.awake <| .next (s.instr q (.waitt ga) (effWaitt q ga))

/-- WAITT_REACHED (R329): the cycle that begins at a count at or after the target ends the wait, with C = 0, or as a target that an
action has made missed. -/
def execWaittReached (q : Fin 16) (s : State) : Host.Outcome State Fault Refusal := s.awake <|
  match (s.core q).waiting with
  | some (.waitt _ due missed) =>
    let s := s.advance due
    if missed ∧ (s.core q).waitTrap then .next (s.coreFault q 0x06 0xFFFFFFFF)
    else .next (s.modCore q (fun c => ({ c with fc := missed } : Core).retireAt (due + 64)))
  | _ => .next s

/-- SIG (R330): the source asserts at the first CK_DP boundary at or after the SIG retires. -/
def effSig (q : Fin 16) (n : BitVec 4) (s : State) (e : Nat) : InstrEnd :=
  let pc := (s.core q).pc
  .ok (s.raiseAt (s.boundaryFrom (e + 64)) (248 + n.toNat) (pathOfSource (248 + n.toNat))) 1 (pc + 1)

/-- SIG (R330). -/
def execSig (q : Fin 16) (n : BitVec 4) (s : State) : Host.Outcome State Fault Refusal := s.awake <| .next (s.instr q (.sig n) (effSig q n))

end Sys2Proof.Machine
end

