-- ==== Sys2Proof/Machine/PermitMbxSem.lean ====
section
/-! DEFINITION. Permits, mailboxes and semaphores of the cores (02 R43, R64, R65; 11 R299; 12 R331, R332, R334 to R336). -/

namespace Sys2Proof.Machine

/-! ### Permits -/

/-- The kinds that a core may request (R331). -/
def coreKind (k : Nat) : Bool := (decide (1 ≤ k) && decide (k ≤ 5)) || k == 8

/-- PERMIT (R299, R331). -/
def effPermit (q : Fin 16) (gd ga gb : Fin 32) (kind : BitVec 4) (s : State) (e : Nat) : InstrEnd :=
  let c := s.core q
  let v := c.pair ga
  let u := permitUnits v
  if 2 ^ 34 ≤ v ∨ coreKind kind.toNat = false ∨ s.refuses u then
    .ok ((s.permitAlert 2 q).modCore q (fun c => c.wr gd 2)) 2 (c.pc + 1)
  else if (s.granted q kind.toNat).isSome then s.retires q 2 (c.wr gd 3)
  else
    let gap := (c.rd gb).toNat
    let deadline := if gap = 0 then none else some (alignUp e 128 + 128 * gap)
    .waits (s.enqueue q kind.toNat u e deadline) (.permit gd kind.toNat deadline)

/-- PERMIT (R299, R331). -/
def execPermit (q : Fin 16) (gd ga gb : Fin 32) (kind : BitVec 4) (s : State) : Host.Outcome State Fault Refusal := s.awake <|
  .next (s.instr q (.permit gd ga gb kind) (effPermit q gd ga gb kind))

/-- RELEASE (R299, R332). -/
def effRelease (q : Fin 16) (kind : BitVec 4) (s : State) (_ : Nat) : InstrEnd :=
  match s.findEntry q kind.toNat with
  | some e => .ok (s.releaseEntry e) 1 ((s.core q).pc + 1)
  | none => .fault 0x0A (kind.setWidth 32)

/-- RELEASE (R299, R332). -/
def execRelease (q : Fin 16) (kind : BitVec 4) (s : State) : Host.Outcome State Fault Refusal := s.awake <|
  .next (s.instr q (.release kind) (effRelease q kind))

/-! ### Mailboxes -/

/-- The first n words of a mailbox replaced; words beyond the count are not written (R334). -/
def mboxWords (old : Vector W32 8) (ws : List W32) : Vector W32 8 := old.mapFinIdx (fun i w _ => ws.getD i w)

/-- A send to the host moves n words (R65). -/
def State.c2hMove (s : State) (q : Fin 16) (gd n : Nat) : State :=
  (s.modCore q (fun c => { c with c2h := mboxWords c.c2h (c.rdN gd n), c2hCount := n, c2hFull := true, fz := false })).raiseCore 10 R.evtCoresMbx q

/-- A receive from the host moves the message (R64). -/
def Core.h2cMove (c : Core) (gd ga : Nat) : Core :=
  { (c.wrN gd (c.h2c.toList.take c.h2cCount)).wr ga (BitVec.ofNat 32 c.h2cCount) with h2cFull := false, fz := false }

/-- A receive from the management slot moves the answer, 8 words (R335, R490). -/
def State.mgtMove (s : State) (q : Fin 16) (gd ga : Nat) : State :=
  let ws := (s.mslot (q + 1)).ans
  (s.modSlot (q + 1) (fun x => { x with valid := false })).modCore q (fun c => { (c.wrN gd (ws.take 8)).wr ga 8 with fz := false })

/-- Nothing moves: Z = 1 in one cycle (R334). -/
def State.mbxNone (s : State) (q : Fin 16) : InstrEnd := s.retires q 1 { s.core q with fz := true }

/-- MBX send to the host (R65, R334). -/
def effMbxSend (q : Fin 16) (gd : Fin 32) (n : BitVec 4) (try_ : Bool) (s : State) (_ : Nat) : InstrEnd :=
  let c := s.core q
  if !c.c2hFull then .ok (s.c2hMove q gd n.toNat) (2 + n.toNat) (c.pc + 1)
  else if try_ then s.mbxNone q else .waits s (.mbxSend gd n.toNat)

/-- MBX send to the host (R65, R334). -/
def execMbxSend (q : Fin 16) (gd : Fin 32) (n : BitVec 4) (try_ : Bool) (s : State) : Host.Outcome State Fault Refusal := s.awake <|
  .next (s.instr q (.mbx gd 0 n (if try_ then 2 else 0)) (effMbxSend q gd n try_))

/-- MBX receive from the host (R64, R334). -/
def effMbxReceive (q : Fin 16) (gd ga : Fin 32) (try_ : Bool) (s : State) (_ : Nat) : InstrEnd :=
  let c := s.core q
  if c.h2cFull then s.retires q (2 + c.h2cCount) (c.h2cMove gd ga)
  else if try_ then s.mbxNone q else .waits s (.mbxRecv gd ga)

/-- MBX receive from the host (R64, R334). -/
def execMbxReceive (q : Fin 16) (gd ga : Fin 32) (try_ : Bool) (s : State) : Host.Outcome State Fault Refusal := s.awake <|
  .next (s.instr q (.mbx gd ga 0 (if try_ then 3 else 1)) (effMbxReceive q gd ga try_))

/-- MBX send to the management slot (R335, R490, 21 R529): it never waits; an unanswered request, a restart or a device that has not
come up makes it BUSY. -/
def effMbxMgtSend (q : Fin 16) (gd : Fin 32) (n : BitVec 4) (s : State) (_ : Nat) : InstrEnd :=
  let c := s.core q
  if (s.mslot (q + 1)).full ∨ s.mgtServes = false then s.mbxNone q
  else
    let ws := c.rdN gd n.toNat
    let s := s.modSlot (q + 1) (fun x => { x with req := ws ++ x.req.drop n.toNat, full := true, running := false, valid := false })
    .ok (s.modCore q (fun c => { c with fz := false })) (2 + n.toNat) (c.pc + 1)

/-- MBX send to the management slot (R335). -/
def execMbxMgtSend (q : Fin 16) (gd : Fin 32) (n : BitVec 4) (try_ : Bool) (s : State) : Host.Outcome State Fault Refusal := s.awake <|
  .next (s.instr q (.mbx gd 0 n (if try_ then 6 else 4)) (effMbxMgtSend q gd n))

/-- MBX receive from the management slot (R335): with neither a request nor an answer a blocking one retires at once, count 0. -/
def effMbxMgtReceive (q : Fin 16) (gd ga : Fin 32) (try_ : Bool) (s : State) (_ : Nat) : InstrEnd :=
  let x := s.mslot (q + 1)
  if x.valid then .ok (s.mgtMove q gd ga) 10 ((s.core q).pc + 1)
  else if try_ then s.mbxNone q
  else if x.full then .waits s (.mgtRecv gd ga)
  else s.retires q 1 { (s.core q).wr ga 0 with fz := true }

/-- MBX receive from the management slot (R335). -/
def execMbxMgtReceive (q : Fin 16) (gd ga : Fin 32) (try_ : Bool) (s : State) : Host.Outcome State Fault Refusal := s.awake <|
  .next (s.instr q (.mbx gd ga 0 (if try_ then 7 else 5)) (effMbxMgtReceive q gd ga try_))

/-- MBX_WAIT_DONE (R316): the waiting MBX takes 2 + c cycles from W + 64, W the cycle in which its condition was met. -/
def execMbxWaitDone (q : Fin 16) (s : State) : Host.Outcome State Fault Refusal := s.awake <|
  let c := s.core q
  match c.waiting, c.met with
  | some (.mbxSend gd n), some w =>
    if c.c2hFull then .next s
    else .next ((s.c2hMove q gd n).modCore q (fun c => c.retireAt (w / 64 * 64 + 64 + 64 * (2 + n))))
  | some (.mbxRecv gd ga), some w =>
    if c.h2cFull then .next (s.setCore q ((c.h2cMove gd ga).retireAt (w / 64 * 64 + 64 + 64 * (2 + c.h2cCount))))
    else .next s
  | some (.mgtRecv gd ga), some w =>
    if (s.mslot (q + 1)).valid then .next ((s.mgtMove q gd ga).modCore q (fun c => c.retireAt (w / 64 * 64 + 64 + 64 * 10)))
    else .next s
  | _, _ => .next s

/-! ### Semaphores (R43) -/

/-- Semaphore n. -/
def State.sem (s : State) (n : Nat) : Sem := vget s.sems n Sem.reset

/-- The state with a semaphore changed. -/
def State.modSem (s : State) (n : Nat) (f : Sem → Sem) : State := { s with sems := vmod s.sems n f }

/-- The waiter that acquires a free semaphore: the next number after the last owner. -/
def Sem.nextWaiter (x : Sem) : Option Nat := ((List.range 16).map (fun i => (x.last + 1 + i) % 16)).find? (fun q => x.waiters.contains q)

/-- A semaphore becomes free in the cycle that holds elapsed tick t, and the next waiter acquires it in that cycle; its SEMTAKE
retires under R316. -/
def State.freeSem (s : State) (n t : Nat) : State :=
  match (s.sem n).nextWaiter with
  | none => s.modSem n (fun x => { x with owner := none, took := none })
  | some w =>
    let s := s.modSem n (fun x => { x with owner := some w, last := w, waiters := x.waiters.filter (· ≠ w), took := none })
    if h : w < 16 then s.modCore ⟨w, h⟩ (fun c => c.retireAt (t / 64 * 64 + 128)) else s

/-- The core may take the semaphore: it is free, or its own. -/
def Sem.open_ (x : Sem) (q : Fin 16) : Bool := x.owner == none || x.owner == some q.val

/-- The semaphore taken by core q with an instruction begun at elapsed edge e; a core that owns it changes nothing. -/
def Sem.takenBy (x : Sem) (q : Fin 16) (e : Nat) (try_ : Bool) : Sem :=
  if x.owner = none then { x with owner := some q.val, last := q.val, took := some e, prev := x.last, tried := try_ } else x

/-- The core that has taken a semaphore in the cycle at elapsed edge e, when core q stands before it in the order after the last owner
and it has begun no further instruction (R43). -/
def State.semRival (s : State) (n : Nat) (q : Fin 16) (e : Nat) : Option (Fin 16) :=
  let x := s.sem n
  match x.owner with
  | none => none
  | some w => if h : w < 16 then
      let c := s.core ⟨w, h⟩
      if x.took = some e ∧ (q.val + 15 - x.prev) % 16 < (w + 15 - x.prev) % 16 ∧ c.edge = e + 64 ∧ c.run = .running then some ⟨w, h⟩ else none
    else none

/-- The rival's instruction, begun at elapsed edge e, does not get the semaphore, which becomes free again: its SEMTRY sets Z, its SEMTAKE
waits (R43). -/
def State.semYield (s : State) (n : Nat) (w : Fin 16) (e : Nat) : State :=
  let x := s.sem n
  let s := s.modSem n (fun x => { x with owner := none, last := x.prev, took := none, waiters := if x.tried then x.waiters else x.waiters ++ [w.val] })
  s.modCore w (fun c =>
    if x.tried then { c with fz := true } else { c with run := .blocked, waiting := some (.semtake n), met := none, edge := e, pc := c.pc - 1 })

/-- The state in which core q meets the semaphore: one that a core after it in the order has taken in the same cycle is free for it. -/
def State.semMeet (s : State) (n : Nat) (q : Fin 16) (e : Nat) : State :=
  match s.semRival n q e with
  | some w => s.semYield n w e
  | none => s

/-- SEMTAKE (R43, R336). -/
def effSemtake (q : Fin 16) (n : BitVec 4) (s : State) (e : Nat) : InstrEnd :=
  let s := s.semMeet n.toNat q e
  if (s.sem n.toNat).open_ q then .ok (s.modSem n.toNat (fun x => x.takenBy q e false)) 1 ((s.core q).pc + 1)
  else .waits (s.modSem n.toNat (fun x => { x with waiters := x.waiters ++ [q.val] })) (.semtake n.toNat)

/-- SEMTAKE (R43, R336). -/
def execSemtake (q : Fin 16) (n : BitVec 4) (s : State) : Host.Outcome State Fault Refusal := s.awake <|
  .next (s.instr q (.semtake n) (effSemtake q n))

/-- SEMTRY (R43, R336). -/
def effSemtry (q : Fin 16) (n : BitVec 4) (s : State) (e : Nat) : InstrEnd :=
  let s := s.semMeet n.toNat q e
  if (s.sem n.toNat).open_ q then
    (s.modSem n.toNat (fun x => x.takenBy q e true)).retires q 1 { s.core q with fz := false }
  else s.retires q 1 { s.core q with fz := true }

/-- SEMTRY (R43, R336). -/
def execSemtry (q : Fin 16) (n : BitVec 4) (s : State) : Host.Outcome State Fault Refusal := s.awake <|
  .next (s.instr q (.semtry n) (effSemtry q n))

/-- SEMGIVE (R43, R336). -/
def effSemgive (q : Fin 16) (n : BitVec 4) (s : State) (e : Nat) : InstrEnd :=
  if (s.sem n.toNat).owner = some q.val then .ok (s.freeSem n.toNat e) 1 ((s.core q).pc + 1)
  else .fault 0x09 (n.setWidth 32)

/-- SEMGIVE (R43, R336). -/
def execSemgive (q : Fin 16) (n : BitVec 4) (s : State) : Host.Outcome State Fault Refusal := s.awake <|
  .next (s.instr q (.semgive n) (effSemgive q n))

end Sys2Proof.Machine
end

