-- ==== Sys2Proof/Machine/DmaCommand.lean ====
section
/-! DEFINITION. The commands of the bulk DMA channels, from the host and by DSTART (17 R421, R428, R434; 12 R333). -/

namespace Sys2Proof.Machine

/-- DSTART (R333): it acts as a write of the command's bit; on a channel that the control plane does not own it faults. -/
def effDstart (q : Fin 16) (c : Nat) (act : State → Nat → State) (s : State) (_ : Nat) : InstrEnd :=
  if s.dmaOwned c then .ok (act s c) 1 ((s.core q).pc + 1) else .fault 0x0C (BitVec.ofNat 32 c)

/-- A command of `n` from the host, which a channel that the control plane owns discards (R421), or by DSTART. -/
def State.dmaCommand (s : State) (src : DmaSource) (c : Fin 32) (n : BitVec 4) (act : State → Nat → State) : State :=
  match src with
  | .host => if s.dmaOwned c then s else act s c
  | .core q => s.instr q (.dstart c 0 n 0) (effDstart q c act)
  | .coreReg q ga => s.instr q (.dstart 0 ga n 1) (fun s e => effDstart q (((s.core q).rd ga).toNat % 32) act s e)

/-- DMA_GO (R428). -/
def execDmaGo (src : DmaSource) (c : Fin 32) (s : State) : Host.Outcome State Fault Refusal := s.awake <|
  .next (s.dmaCommand src c 0 (fun s c => s.dmaGoAct c))

/-- DMA_RESUME (R434). -/
def execDmaResume (src : DmaSource) (c : Fin 32) (s : State) : Host.Outcome State Fault Refusal := s.awake <|
  .next (s.dmaCommand src c 1 (fun s c => s.dmaRestart c false))

/-- DMA_SKIP (R434). -/
def execDmaSkip (src : DmaSource) (c : Fin 32) (s : State) : Host.Outcome State Fault Refusal := s.awake <|
  .next (s.dmaCommand src c 2 (fun s c => s.dmaRestart c true))

/-- DMA_ABORT (R434). -/
def execDmaAbort (src : DmaSource) (c : Fin 32) (s : State) : Host.Outcome State Fault Refusal := s.awake <|
  .next (s.dmaCommand src c 3 (fun s c => s.dmaAbortAct c))

end Sys2Proof.Machine
end

