-- ==== Sys2Proof/Machine/LoadStore.lean ====
section
/-! DEFINITION. Loads, stores and twins (02 R41, R42, R67; 12 R320, R321). -/

namespace Sys2Proof.Machine

/-- The state with bytes stored from data address a of core q. -/
def State.dataWrite (s : State) (q : Fin 16) (smem : Bool) (a : Nat) (bs : List Byte) : State :=
  if smem then s.smemPut (a - 0x10000) bs else s.modCore q (fun c => { c with dmem := Mem.write c.dmem a bs })

/-- An access of n bytes at `a`, aligned to `al`: its range, none where it faults (R41, R320). -/
def access (a al n : Nat) : Option Bool := if a % al = 0 then dataRange a n else none

/-- The turn of an access of n words, `len` bytes at data address `a`, to SMEM (R42). -/
def State.turn (s : State) (q : Fin 16) (e a len n : Nat) (store : Bool) : Nat × State := s.smemTurn q e (a - 0x10000) (a - 0x10000 + len) n store

/-- An access of n words that loads `len` bytes of SMEM at data address `a` into `regs` registers from gd on: its wait, the bytes, each as
its word's cycle finds it, and the state with it under way (R42). -/
def State.fetch (s : State) (q : Fin 16) (e a len n gd regs : Nat) : Nat × List Byte × State :=
  let t := s.turn q e a len n false
  let u := t.2.smemKeep [] gd regs
  (t.1, u.smemRead, u)

/-- A load of `len` bytes at `a`, written to gd; 1 cycle from DMEM, 2 and the wait of R42 from SMEM. -/
def State.load (s : State) (q : Fin 16) (e : Nat) (smem : Bool) (a len : Nat) (gd : Fin 32) : InstrEnd :=
  if smem then
    let t := s.fetch q e a len 1 gd 1
    t.2.2.retires q (2 + t.1) ((t.2.2.core q).wr gd (BitVec.ofNat 32 (ofBytes t.2.1)))
  else s.retires q 1 ((s.core q).wr gd (BitVec.ofNat 32 (ofBytes (Mem.read (s.core q).dmem a len))))

/-- A store of bytes; 1 cycle to DMEM, 2 and the wait of R42 to SMEM. -/
def State.store (s : State) (q : Fin 16) (e : Nat) (smem : Bool) (a : Nat) (bs : List Byte) : InstrEnd :=
  if smem then
    let t := s.turn q e a bs.length 1 true
    let s := t.2.dataWrite q smem a bs
    s.retires q (2 + t.1) (s.core q)
  else
    let s := s.dataWrite q smem a bs
    s.retires q 1 (s.core q)

/-- LDW (R320): gd = word at ga + sext(imm15). -/
def effLdw (q : Fin 16) (gd ga : Fin 32) (imm : BitVec 15) (s : State) (e : Nat) : InstrEnd :=
  let a := (s.core q).ea ga imm
  match access a.toNat 4 4 with
  | none => .fault 0x03 a
  | some m => s.load q e m a.toNat 4 gd

/-- LDW (R320). -/
def execLdw (q : Fin 16) (gd ga : Fin 32) (imm : BitVec 15) (s : State) : Host.Outcome State Fault Refusal := s.awake <| .next (s.instr q (.ldw gd ga imm) (effLdw q gd ga imm))

/-- LDB (R320): gd = zext(byte). -/
def effLdb (q : Fin 16) (gd ga : Fin 32) (imm : BitVec 15) (s : State) (e : Nat) : InstrEnd :=
  let a := (s.core q).ea ga imm
  match access a.toNat 1 1 with
  | none => .fault 0x03 a
  | some m => s.load q e m a.toNat 1 gd

/-- LDB (R320). -/
def execLdb (q : Fin 16) (gd ga : Fin 32) (imm : BitVec 15) (s : State) : Host.Outcome State Fault Refusal := s.awake <| .next (s.instr q (.ldb gd ga imm) (effLdb q gd ga imm))

/-- STW (R320): word = gd. -/
def effStw (q : Fin 16) (gd ga : Fin 32) (imm : BitVec 15) (s : State) (e : Nat) : InstrEnd :=
  let a := (s.core q).ea ga imm
  match access a.toNat 4 4 with
  | none => .fault 0x03 a
  | some m => s.store q e m a.toNat (leBytes 4 ((s.core q).rd gd).toNat)

/-- STW (R320). -/
def execStw (q : Fin 16) (gd ga : Fin 32) (imm : BitVec 15) (s : State) : Host.Outcome State Fault Refusal := s.awake <| .next (s.instr q (.stw gd ga imm) (effStw q gd ga imm))

/-- STB (R320): byte = gd[7:0]. -/
def effStb (q : Fin 16) (gd ga : Fin 32) (imm : BitVec 15) (s : State) (e : Nat) : InstrEnd :=
  let a := (s.core q).ea ga imm
  match access a.toNat 1 1 with
  | none => .fault 0x03 a
  | some m => s.store q e m a.toNat (leBytes 1 ((s.core q).rd gd).toNat)

/-- STB (R320). -/
def execStb (q : Fin 16) (gd ga : Fin 32) (imm : BitVec 15) (s : State) : Host.Outcome State Fault Refusal := s.awake <| .next (s.instr q (.stb gd ga imm) (effStb q gd ga imm))

/-- The lowest value word whose complement does not match (R321). -/
def twinBad (ws : List W32) (w : Nat) : Option Nat := (List.range w).find? (fun j => ws.getD (w + j) 0 != ~~~ (ws.getD j 0))

/-- LDTW.w (R321): reads all 2w words; a word that fails the check faults TWIN with its address, else gd + j = word j; 2w cycles from
DMEM, 1 + 2w and the wait of R42 from SMEM. -/
def effLdtw (q : Fin 16) (gd ga : Fin 32) (n : BitVec 4) (s : State) (e : Nat) : InstrEnd :=
  let a := (s.core q).rd ga
  let w := n.toNat
  match access a.toNat 4 (8 * w) with
  | none => .fault 0x03 a
  | some m =>
    let t := if m then s.fetch q e a.toNat (8 * w) (2 * w) gd w else (0, Mem.read (s.core q).dmem a.toNat (8 * w), s)
    let k := (if m then 1 + 2 * w else 2 * w) + t.1
    let ws := wordsOf t.2.1
    match twinBad ws w with
    | some j => .fails t.2.2 0x05 (a + BitVec.ofNat 32 (4 * j)) k
    | none => t.2.2.retires q k ((t.2.2.core q).wrN gd (ws.take w))

/-- LDTW (R321). -/
def execLdtw (q : Fin 16) (gd ga : Fin 32) (w : BitVec 4) (s : State) : Host.Outcome State Fault Refusal := s.awake <| .next (s.instr q (.ldtw gd ga w) (effLdtw q gd ga w))

/-- STTW.w (R321): words from gd to gd + w - 1, then their complements, in ascending address order. -/
def effSttw (q : Fin 16) (gd ga : Fin 32) (n : BitVec 4) (s : State) (e : Nat) : InstrEnd :=
  let a := (s.core q).rd ga
  let w := n.toNat
  match access a.toNat 4 (8 * w) with
  | none => .fault 0x03 a
  | some m =>
    let bs := (twinWords ((s.core q).rdN gd w)).flatMap (fun x => leBytes 4 x.toNat)
    if m then
      let t := s.turn q e a.toNat (8 * w) (2 * w) true
      let s := t.2.dataWrite q m a.toNat bs
      s.retires q (1 + 2 * w + t.1) (s.core q)
    else
      let s := s.dataWrite q m a.toNat bs
      s.retires q (2 * w) (s.core q)

/-- STTW (R321). -/
def execSttw (q : Fin 16) (gd ga : Fin 32) (w : BitVec 4) (s : State) : Host.Outcome State Fault Refusal := s.awake <| .next (s.instr q (.sttw gd ga w) (effSttw q gd ga w))

end Sys2Proof.Machine
end

