-- ==== Sys2Proof/Machine/HostControl.lean ====
section
/-! DEFINITION. Host control of the cores: `SEQ_CTRL`, group start, semaphores, cancellation, mailboxes, the IMEM and DMEM windows
(02 R59 to R65; 12 R338). -/

namespace Sys2Proof.Machine

/-! ### One instruction as IMEM spells it -/

/-- The command of a bulk DMA channel that DSTART names (R333). -/
def dmaAct (n : BitVec 4) (s : State) (c : Nat) : State :=
  match n.toNat with
  | 0 => s.dmaGoAct c
  | 1 => s.dmaRestart c false
  | 2 => s.dmaRestart c true
  | _ => s.dmaAbortAct c

/-- What an instruction of core q comes to, begun at an elapsed edge. -/
def Op.eff (q : Fin 16) : Op → State → Nat → InstrEnd
  | .add d a b => effAdd q d a b
  | .addc d a b => effAddc q d a b
  | .sub d a b => effSub q d a b
  | .subc d a b => effSubc q d a b
  | .and d a b => effAnd q d a b
  | .or d a b => effOr q d a b
  | .xor d a b => effXor q d a b
  | .shl d a b => effShl q d a b
  | .shr d a b => effShr q d a b
  | .sar d a b => effSar q d a b
  | .mul d a b => effMul q d a b
  | .mulhu d a b => effMulhu q d a b
  | .cmp a b => effCmp q a b
  | .tst a b => effTst q a b
  | .addi d a i => effAddi q d a i
  | .andi d a i => effAndi q d a i
  | .ori d a i => effOri q d a i
  | .xori d a i => effXori q d a i
  | .shli d a i => effShli q d a i
  | .shri d a i => effShri q d a i
  | .sari d a i => effSari q d a i
  | .cmpi a i => effCmpi q a i
  | .li d w => effLi q d w
  | .ldw d a i => effLdw q d a i
  | .ldb d a i => effLdb q d a i
  | .stw d a i => effStw q d a i
  | .stb d a i => effStb q d a i
  | .ldtw d a n => effLdtw q d a n
  | .sttw d a n => effSttw q d a n
  | .branch c o => effBCond q c o
  | .call o => effCall q o
  | .ret => effRet q
  | .loop a o => effLoop q a o
  | .jr a => effJr q a
  | .halt => effHalt q
  | .nop => effNop q
  | .dwr d a i => effDwr q d a i
  | .dwri a i w => effDwri q a i w
  | .drd d a i => effDrd q d a i
  | .commit d a p => effCommit q d a p
  | .commitev d a src => effCommitev q d a src
  | .cwait d a => effCwait q d a
  | .syncz a m => if m = 0 then effSynczZero q else effSynczOffset q a
  | .tick d => effTick q d
  | .wait d src b => effWait q d src b
  | .waitt a => effWaitt q a
  | .sig n => effSig q n
  | .permit d a b k => effPermit q d a b k
  | .release n => effRelease q n
  | .dstart d a n m => fun s e => effDstart q (if m = 0 then d.val else ((s.core q).rd a).toNat % 32) (dmaAct n) s e
  | .mbx d a n m =>
    let try_ := m.getLsbD 1
    match m.getLsbD 2, m.getLsbD 0 with
    | false, false => effMbxSend q d n try_
    | false, true => effMbxReceive q d a try_
    | true, false => effMbxMgtSend q d n
    | true, true => effMbxMgtReceive q d a try_
  | .semtake n => effSemtake q n
  | .semtry n => effSemtry q n
  | .semgive n => effSemgive q n

/-- The word of IMEM at a word address. -/
def Core.imemWord (c : Core) (pc : Nat) : W32 := Mem.word c.imem (4 * pc)

/-- Core q executes the instruction that IMEM holds at its PC (R314, R322). -/
def State.fetchRun (s : State) (q : Fin 16) : State :=
  let c := s.core q
  let pc := c.pc.toNat
  if 4096 ≤ pc then s.coreFault q 0x02 c.pc
  else match decodeOp (c.imemWord pc) (if pc = 4095 then 0 else c.imemWord (pc + 1)) with
    | some op => s.instr q op (op.eff q)
    | none => s.coreFault q 0x01 (c.imemWord pc)

/-! ### Halt and reset of a waiting core (R61, R338) -/

/-- The state that a command answers, else `s`. -/
def State.after (s : State) : Host.Outcome State Fault Refusal → State
  | .next t => t
  | _ => s

/-- The DRDs that end before elapsed tick t end; `n` bounds them. -/
def State.drdUntil (s : State) (q : Fin 16) (t : Nat) : Nat → State
  | 0 => s
  | n + 1 => match s.drdNext q with
    | some x => if x.2.2 < t then (s.drdEnd q).drdUntil q t n else s
    | none => s

/-- A waiting instruction whose condition is met by the cycle in which a halt or reset takes effect retires first (R338). -/
def State.waitDone (s : State) (q : Fin 16) : State :=
  let t := s.now / 64 * 64
  match (s.core q).waiting with
  | some (.slot _ _) => s.after (execCommitSlotFree q s)
  | some (.mbxSend _ _) => s.after (execMbxWaitDone q s)
  | some (.mbxRecv _ _) => s.after (execMbxWaitDone q s)
  | some (.mgtRecv _ _) => s.after (execMbxWaitDone q s)
  | some (.waitt _ due _) => if due ≤ t then s.after (execWaittReached q s) else s
  | some (.wait _ _ start tmo seen) =>
    if seen.any (fun e => waitHit start tmo e.1) then s.after (execWaitOccurrence q s)
    else if tmo ≠ 0 ∧ start + 64 * tmo ≤ t + 64 then s.after (execWaitTimeout q s)
    else s
  | some (.drd _ _) => s.drdUntil q (t + 64) 4
  | _ => s

/-- A halt takes effect (R61): a core that waits gives its instruction up. -/
def State.haltCore (s : State) (q : Fin 16) : State :=
  let s := if (s.core q).run = .blocked then s.waitDone q else s
  let s := if (s.core q).run = .blocked then s.abandon q else s
  if (s.core q).run = .running ∨ (s.core q).run = .blocked then s.modCore q (fun c => c.toHalt) else s

/-- A core starts at `start_pc` (SEQ_CTRL.start, R63): a HALTED or FAULTED one, its open group discarded. -/
def Core.start (c : Core) : Core :=
  if c.run = .halted ∨ c.run = .faulted then
    { c with run := .running, stepping := false, pc := c.startPc.setWidth 32, openGrp := [], cause := 0, info := 0 }
  else c

/-- Groups that a cancellation reaches at now (R59): those whose boundary does not fall in this CK_CTL cycle or before. -/
def State.cancelled (s : State) (c : Core) : List W32 :=
  (c.groups.filter (fun g => g.due.all (fun b => decide (s.now / 64 * 64 + 64 ≤ b)))).map (·.ticket)

/-- Cancellation of core q (R59): its open group is discarded, and its groups are rejected CANCELLED. -/
def State.cancelGroups (s : State) (q : Fin 16) : State :=
  let ts := s.cancelled (s.core q)
  let s := s.modCore q (fun c => { c with openGrp := [], xferEnd := min c.xferEnd s.now })
  ts.foldl (fun s t => s.rejectGroup q t 7 s.now) s

/-- A core reset (R62). -/
def State.resetCore (s : State) (q : Fin 16) : State :=
  let s := if (s.core q).run = .blocked then s.waitDone q else s
  let s := if (s.core q).run = .blocked then s.abandon q else s
  let s := s.modCore q (fun c => { c with
    g := Vector.replicate 32 0, fz := false, fn := false, fc := false, fv := false, stack := [], pc := c.startPc.setWidth 32
    run := .halted, waiting := none, met := none, stepping := false, drds := [], cause := 0, info := 0
    h2cFull := false, h2cCount := 0, c2hFull := false, c2hCount := 0 })
  let s := s.cancelGroups q
  let s := s.modCore q (fun c => { c with ticket := 0 })
  let s := (List.range 16).foldl (fun s n => if (s.sem n).owner = some q.val then s.freeSem n s.now else s) s
  s.pinCommand q false true

/-! ### SEQ_CTRL -/

/-- The action of a word written to `SEQ_CTRL`: the highest in the order reset, halt, step, resume, start, by its bit; none: 5. -/
def seqAction (w : W32) : Nat := if bit w 4 then 4 else if bit w 2 then 2 else if bit w 3 then 3 else if bit w 1 then 1 else if bit w 0 then 0 else 5

/-- The RW fields of a write to `SEQ_CTRL` take their values before its action is taken. -/
def State.seqFields (s : State) (q : Fin 16) (w : W32) : State :=
  s.modCore q (fun c => { c with waitTrap := bit w 5, startPc := BitVec.ofNat 12 (fld w 8 12) })

/-- SEQ_START: `SEQ_CTRL.start` (R61, R63). -/
def execSeqStart (q : Fin 16) (w : W32) (s : State) : Host.Outcome State Fault Refusal := s.awake <|
  if seqAction w = 0 then .next ((s.seqFields q w).modCore q Core.start) else .next s

/-- SEQ_RESUME: `SEQ_CTRL.resume` (R61): a HALTED core goes on, its open group kept. -/
def execSeqResume (q : Fin 16) (w : W32) (s : State) : Host.Outcome State Fault Refusal := s.awake <|
  if seqAction w = 1 then
    .next ((s.seqFields q w).modCore q (fun c => if c.run = .halted then { c with run := .running, stepping := false } else c))
  else .next s

/-- SEQ_HALT_REQ: `SEQ_CTRL.halt` (R61, R338). -/
def execSeqHaltReq (q : Fin 16) (w : W32) (s : State) : Host.Outcome State Fault Refusal := s.awake <|
  if seqAction w = 2 then .next ((s.seqFields q w).haltCore q) else .next s

/-- A HALTED core executes one instruction and halts again (R61). -/
def State.stepCore (s : State) (q : Fin 16) : State :=
  if (s.core q).run = .halted then (s.modCore q (fun c => { c with run := .running, stepping := true })).fetchRun q else s

/-- SEQ_STEP: `SEQ_CTRL.step` (R61). -/
def execSeqStep (q : Fin 16) (w : W32) (s : State) : Host.Outcome State Fault Refusal := s.awake <|
  if seqAction w = 3 then .next ((s.seqFields q w).stepCore q) else .next s

/-- CORE_RESET: `SEQ_CTRL.reset` (R62). -/
def execCoreReset (q : Fin 16) (w : W32) (s : State) : Host.Outcome State Fault Refusal := s.awake <|
  if seqAction w = 4 then .next ((s.seqFields q w).resetCore q) else .next s

/-- SEQ_HALT_DONE (R61): a HALTING core whose DRDs have all completed is HALTED. -/
def execSeqHaltDone (q : Fin 16) (s : State) : Host.Outcome State Fault Refusal := s.awake <|
  .next (s.modCore q (fun c => if c.run = .halting ∧ c.drds = [] then { c with run := .halted } else c))

/-- SEQ_GROUP_START (R63). -/
def execSeqGroupStart (cores : BitVec 16) (s : State) : Host.Outcome State Fault Refusal := s.awake <|
  .next ((List.finRange 16).foldl (fun s q => if cores.getLsbD q.val then s.modCore q Core.start else s) s)

/-- SEQ_SEM_FORCE (R43, R63): a released semaphore goes to its next waiter. -/
def execSeqSemForce (sems : BitVec 16) (s : State) : Host.Outcome State Fault Refusal := s.awake <|
  .next ((List.range 16).foldl (fun s n => if sems.getLsbD n then s.freeSem n s.now else s) s)

/-- SEQ_COMMIT_CANCEL (R59). -/
def execSeqCommitCancel (q : Fin 16) (s : State) : Host.Outcome State Fault Refusal := s.awake <| .next (s.cancelGroups q)

/-! ### Mailboxes (R64, R65) -/

/-- A write of `SEQ_H2C_CTRL` (R64): `post_err` by its W1C bit, `count` while the mailbox is not full, then the post. -/
def State.h2cCtrl (s : State) (q : Fin 16) (w : W32) : State :=
  let s := s.modCore q (fun c => { c with
    h2cErr := c.h2cErr && !bit w 10, h2cCount := if c.h2cFull then c.h2cCount else fld w 0 4 })
  if bit w 8 then
    s.modCore q (fun c =>
      if c.h2cFull ∨ c.h2cCount = 0 ∨ 8 < c.h2cCount then { c with h2cErr := true, hostWrErr := true }
      else
        let c : Core := { c with h2cFull := true }
        match c.waiting with
        | some (.mbxRecv _ _) => c.meets s.now
        | _ => c)
  else s

/-- SEQ_H2C_POST (R64): a write of `SEQ_H2C_CTRL` with `post` set. -/
def execSeqH2cPost (q : Fin 16) (w : W32) (s : State) : Host.Outcome State Fault Refusal := s.awake <|
  if bit w 8 then .next (s.h2cCtrl q w) else .next s

/-- The host frees the core-to-host mailbox (R65). -/
def Core.c2hAck (c : Core) (t : Nat) : Core :=
  let c := { c with c2hFull := false }
  match c.waiting with
  | some (.mbxSend _ _) => c.meets t
  | _ => c

/-- SEQ_C2H_ACK (R65). -/
def execSeqC2hAck (q : Fin 16) (s : State) : Host.Outcome State Fault Refusal := s.awake <| .next (s.modCore q (fun c => c.c2hAck s.now))

/-! ### IMEM and DMEM windows (R60) -/

/-- A word written by the host to offset `off` of a core's window: discarded with `host_wr_err` while the core runs. -/
def Core.windowWrite (c : Core) (off : Nat) (w : W32) : Core :=
  let o := off / 4 * 4
  if o < 0x4000 ∨ (0x8000 ≤ o ∧ o < 0xA000) then
    if c.run = .halted ∨ c.run = .faulted then
      if o < 0x4000 then { c with imem := Mem.setWord c.imem o w } else { c with dmem := Mem.setWord c.dmem (o - 0x8000) w }
    else { c with hostWrErr := true }
  else c

/-- HOST_IMEM_WRITE (R60). -/
def execHostImemWrite (q : Fin 16) (off : BitVec 16) (w : W32) (s : State) : Host.Outcome State Fault Refusal := s.awake <|
  .next (s.modCore q (fun c => c.windowWrite off.toNat w))

end Sys2Proof.Machine
end

