-- ==== Sys2Proof/Machine/Commit.lean ====
section
/-! DEFINITION. The commit engine at a boundary (02 R52 to R59): how due groups are judged, what their writes do as one change, the
permits they are charged (11 R302), and the datapath soft reset (21 R532, R533). -/

namespace Sys2Proof.Machine

/-! ### Due groups -/

/-- Groups due at elapsed boundary b, with their cores, in the order of R55. -/
def State.dueAt (s : State) (b : Nat) : List (Fin 16 × Group) :=
  (List.finRange 16).flatMap (fun q => ((s.core q).groups.filter (fun g => g.due == some b)).map (fun g => (q, g)))

/-- The earliest boundary at which something falls due: a group, or a host's mode post that waits (21 R517). -/
def State.nextDue (s : State) : Option Nat :=
  let dues := s.cores.toList.flatMap (fun c => c.groups.filterMap (·.due)) ++ (s.mode.hostWait.map (·.2)).toList
  dues.foldl (fun m b => some (match m with
    | some x => min x b
    | none => b)) none

/-- Every staged write of groups, in the order of R55. -/
def stagedOf (gs : List (Fin 16 × Group)) : List Staged := gs.flatMap (fun g => g.2.writes)

/-- A group carries `DP_RESET.go` = 1 (21 R532). -/
def Group.resets (g : Group) : Bool := (lastWrite g.writes R.dpResetReg).any (fun v => bit v 0)

/-- A mask word of the memory mapping (14 R364). -/
def isMask (a : Nat) : Bool := decide (0x8000 ≤ a) && decide (a < 0x8050)

/-- The group writes a mask of the memory mapping that the part has (14 R347, R364). -/
def State.writesMask (s : State) (g : Group) : Bool :=
  g.writes.any (fun w => match w with
    | .reg a _ => isMask a && !(s.is9620 && decide (a < 0x8008))
    | _ => false)

/-- The masks after staged writes, in order (14 R346). -/
def State.masksAfter (s : State) (ws : List Staged) : List (W32 × W32) :=
  ws.foldl (fun ms w => match w with
    | .reg a v =>
      if isMask a && !(s.is9620 && decide (a < 0x8008)) then
        modAt ms ((a - 0x8000) / 8) (fun m => if a % 8 = 0 then (v, m.2) else (m.1, v))
      else ms
    | _ => ms) (s.mem.pendMasks.getD s.mem.masks)

/-! ### Register writes -/

/-- The bits of a register that a staged write changes (R11): on the SLW-9620 not those of absent inputs, of bay 1 and of stack 1 (00 R3;
09 R267); and not a field of `SPAN_CTRL` or `MEM_RATE` staged as 3, which is left as it is (04 R122, 14 R364). -/
def State.changes (s : State) (a : Nat) (v : W32) : W32 :=
  if a = R.spanCtrl ∨ a = R.memRate then
    pack [(0, if fld v 0 2 = 3 then 0 else 3), (2, if fld v 2 2 = 3 ∨ s.is9620 then 0 else 3)]
  else if a = R.recArm ∧ s.is9620 then 0xF
  else writeMask a

/-- The word that a staged write leaves in a stored register. -/
def State.merged (s : State) (a : Nat) (v : W32) : W32 := (s.reg a &&& ~~~ s.changes a v) ||| (v &&& s.changes a v)

/-- A staged write in the channel region (06 R162, R167): banks in force discard it, `load_default` copies a set. -/
def State.chanWrite (final s : State) (a : Nat) (v : W32) : State :=
  let n := (a - 0x200000) / 0x10000
  let o := a % 0x10000
  if o = 0x14 then (if bit v 4 then s.modChan n (fun c => { c with activeWr := false }) else s)
  else if o = 0x18 then (if bit v 0 then final.loadDefault s n else s)
  else if o = 0x20 ∨ (0x1000 ≤ o ∧ o < 0x1600) then s.firWrite n 0 a (s.merged a v)
  else if o = 0x24 ∨ (0x2000 ≤ o ∧ o < 0x2600) then s.firWrite n 1 a (s.merged a v)
  else s.setReg a (s.merged a v)

/-- One staged register write at its point in the order (R11, R45, R55): `before` is the state before the boundary, `final` one
whose spans and full scales govern from it. Read-only fields and addresses without a register discard it (R12, R45), and a counter is cleared by 0 (R9). -/
def State.stagedWrite (before final : State) (opens : Nat → Bool) (s : State) (a : Nat) (v : W32) : State :=
  if (s.is9620 && absent9620 a) || isMask a then s
  else if regKind a = .counter then (if v = 0 then s.setReg a 0 else s)
  else if 0x200000 ≤ a ∧ a < 0x280000 then final.chanWrite s a v
  else if 0x380000 ≤ a ∧ a < 0x400000 then State.tmrRegWrite before s a (s.merged a v)
  else if 0x400000 ≤ a ∧ a < 0x500000 then State.recWrite before s opens a (s.merged a v)
  else s.setReg a (s.merged a v)

/-- The group sets `enable` of directory p (09 R248). -/
def Group.opens (g : Group) (p : Nat) : Bool := (lastWrite g.writes (R.dirCtrl p)).any (fun v => bit v 0)

/-- A root applies its own arm mark (09 R260): it acts on `REC_ARM` under the code that the device accepts. -/
def State.armLocal (s : State) (g : Group) : State :=
  match armSend g.writes with
  | some v =>
    let c := s.reg R.recNodCtrl
    if s.nodRole = 1 ∧ bit c 0 ∧ fld c 1 8 = fld v 2 8 then
      let m := s.armMask (fld v 10 4)
      let w := (s.reg R.recArm).toNat
      s.setReg R.recArm (BitVec.ofNat 32 (if bit v 1 then w ||| m else w - (w &&& m)))
    else s
  | none => s

/-- The register writes of one group. -/
def State.groupWrites (before final s : State) (g : Group) : State :=
  (g.writes.foldl (fun s w => match w with
    | .reg a v => State.stagedWrite before final g.opens s a v
    | _ => s) s).armLocal g

/-- The register writes of groups, in the order of R55. The spans and full scales that govern from the boundary come first, since
`load_default` copies the set that they choose (06 R167). -/
def State.allWrites (before s : State) (gs : List (Fin 16 × Group)) : State :=
  let final := gs.foldl (fun s g => g.2.writes.foldl (fun s w => match w with
    | .reg a v => if a = R.spanCtrl ∨ (upTo 8).any (fun n => a == R.convCtrl n) then State.stagedWrite before s g.2.opens s a v else s
    | _ => s) s) s
  gs.foldl (fun s g => State.groupWrites before final s g.2) s

/-! ### Permits (11 R297, R302) -/

/-- Units of an input's SLICE_UP cost in a bay between two states (R297). -/
def bayPower (old s : State) (bay : Nat) : Units :=
  let slices := (upTo 24).countP (fun sl => sl / 12 == bay && (s.slice sl).powered && !(old.slice sl).powered)
  let heads := (upTo 8).countP (fun n => n / 4 == bay && (s.inp n).running && !(old.inp n).running)
  { core := 3 * slices + 8 * heads, conv := 4 * slices, hbm0 := 0, hbm1 := 0 }

/-- Readmit bits staged for input n (04 R120). -/
def readmitOf (ws : List Staged) (n : Nat) : Nat := fld ((lastWrite ws (R.convCtrl n)).getD 0) 8 3

/-- `rotate_now` staged for input n (05 R142). -/
def rotNowOf (ws : List Staged) (n : Nat) : Bool := (lastWrite ws (0x101004 + 0x10000 * n)).any (fun v => bit v 0)

/-- A faulted slice of input n that the bits readmit. -/
def State.readmits (s : State) (n bits : Nat) : Bool := (upTo 3).any (fun k => bits.testBit k && (s.slice (3 * n + k)).faulted)

/-- Units by which a stack's rate rises between two states: VDD_CORE and VDD_HBM (R297). -/
def rateRise (old s : State) (st : Nat) : Nat × Nat :=
  let a := rateUnits (old.rateReg st)
  let b := rateUnits (s.rateReg st)
  (b.1 - a.1, b.2 - a.2)

/-- The kinds of permit that a group must carry for what its own writes change (04 R113, R120, R121; 10 R269; 14 R364; 19 R482). -/
def State.needs (s : State) (g : Group) : List Nat :=
  let t := State.allWrites s s [(0, g)]
  let up := fun a => !bit (s.reg a) 0 && bit (t.reg a) 0
  (if (upTo 8).any (fun n => up (R.convCtrl n) || s.readmits n (readmitOf g.writes n)) then [1] else []) ++
  (if (upTo 2).any (fun b => decide (s.span b ≠ t.span b)) then [2] else []) ++
  (if (upTo 8).any (fun n => up (R.churnCtrl n)) then [3] else []) ++
  (if (upTo 2).any (fun st => decide (rateRise s t st ≠ (0, 0))) then [5] else []) ++
  (if (upTo 4).any (fun k => up (R.excCtrl k)) then [8] else [])

/-- A cost at a boundary (R302): its kind, its units, and the fields on which it depends as address and mask. -/
structure Cost where
  kind : Nat
  units : Units
  fields : List (Nat × W32)

/-- The costs between the state before a boundary and the one after its groups (R297, R302). -/
def costs (old after : State) (ws : List Staged) (b : Nat) : List Cost :=
  let live := State.convCommit old after b (readmitOf ws) (fun _ => false)
  let span := fun bay => (R.spanCtrl, BitVec.ofNat 32 (3 * 2 ^ (2 * bay)))
  let list : List Cost :=
    (upTo 2).map (fun bay => {
      kind := 1, units := bayPower old live bay
      fields := span bay :: (upTo 4).map (fun i => (R.convCtrl (4 * bay + i), 0x701)) }) ++
    (upTo 2).map (fun bay => {
      kind := 2, units := if old.span bay ≠ after.span bay then { core := 6, conv := 8, hbm0 := 0, hbm1 := 0 } else Units.zero
      fields := [span bay] }) ++
    (upTo 8).map (fun n => {
      kind := 3, units := if !old.churnOn n && after.churnOn n then { Units.zero with core := 8 } else Units.zero
      fields := [(R.churnCtrl n, 1)] }) ++
    (upTo 8).map (fun n => {
      kind := 4
      units := if after.headOf n = n ∧ n < after.inputs then { Units.zero with core := after.firUnits n - old.firUnits n } else Units.zero
      fields := [(R.chFirCtrl n, 0xFFFFFFFF), (R.chFirHdr n 0, 0xFFFFFFFF), (R.chFirHdr n 1, 0xFFFFFFFF), (0x200018 + 0x10000 * n, 1),
                 (R.chDecCtrl n, 0xFFFFFFFF), span (n / 4)] }) ++
    (upTo 2).map (fun st => {
      kind := 5, units := stackUnits st (rateRise old after st).1 (rateRise old after st).2
      fields := [(R.memRate, BitVec.ofNat 32 (3 * 2 ^ (2 * st)))] }) ++
    (upTo 4).map (fun k => {
      kind := 8
      units := if !bit (old.reg (R.excCtrl k)) 0 && bit (after.reg (R.excCtrl k)) 0 then { Units.zero with conv := 1 } else Units.zero
      fields := [(R.excCtrl k, 1)] })
  list.filter (fun c => decide (c.units ≠ Units.zero))

/-- What each write of groups leaves in its register, newest first: core, ticket, address, word, and the word before the boundary. Self-clearing
bits stand in the word as they were staged. -/
def State.writeTrace (before : State) (gs : List (Fin 16 × Group)) : List (Fin 16 × W32 × Nat × W32) :=
  let final := State.allWrites before before gs
  (gs.foldl (fun (acc : State × List (Fin 16 × W32 × Nat × W32)) g =>
    g.2.writes.foldl (fun (acc : State × List (Fin 16 × W32 × Nat × W32)) w => match w with
      | .reg a v =>
        let s := State.stagedWrite before final g.2.opens acc.1 a v
        let sc : W32 := if a % 0x10000 = 0 ∧ 0x100000 ≤ a ∧ a < 0x180000 then 0x700
          else if a % 0x10000 = 0x18 ∧ 0x200000 ≤ a ∧ a < 0x280000 then 1 else 0
        (s, (g.1, g.2.ticket, a, s.reg a ||| (v &&& sc)) :: acc.2)
      | _ => acc) acc) (before, [])).2

/-- A write of the trace sets a field on which a cost depends to a value other than the one before the boundary (R302). -/
def State.setsCost (before : State) (c : Cost) (e : Fin 16 × W32 × Nat × W32) : Bool :=
  c.fields.any (fun f => f.1 == e.2.2.1 && decide (e.2.2.2 &&& f.2 ≠ before.reg f.1 &&& f.2))

/-- The core to which a cost is charged (R302). -/
def State.payer (before : State) (tr : List (Fin 16 × W32 × Nat × W32)) (c : Cost) : Option (Fin 16) :=
  (tr.find? (before.setsCost c)).map (·.1)

/-- The units of a core's GRANTED entry of a kind; none without one that passes its check (R302, R307). -/
def State.grantUnits (s : State) (q kind : Nat) : Option Units :=
  ((s.granted q kind).filter (fun e => (s.entry e).ok)).map (fun e => (s.entry e).units)

/-- The sum of the charges to a core of a kind. -/
def chargeSum (ch : List (Fin 16 × Cost)) (q : Fin 16) (kind : Nat) : Units :=
  (ch.filter (fun c => c.1 = q ∧ c.2.kind = kind)).foldl (fun u c => u.add c.2.units) Units.zero

/-- The charges of groups, each cost with its core (R302). -/
def State.charges (before : State) (gs : List (Fin 16 × Group)) (b : Nat) : List (Fin 16 × Cost) :=
  let tr := before.writeTrace gs
  (costs before (State.allWrites before before gs) (stagedOf gs) b).filterMap (fun c => (before.payer tr c).map (fun q => (q, c)))

/-! ### Judgement (R56) -/

/-- Names one group: core and ticket. -/
abbrev GroupId := Fin 16 × W32

/-- The name of a group. -/
def gid (g : Fin 16 × Group) : GroupId := (g.1, g.2.ticket)

/-- A group fails check 3 (R56, 14 R347): a mask with one word only or words that are no twin, or a mask whose twin has failed is not
rewritten. -/
def State.twinFails (s : State) (g : Group) : Bool :=
  (List.range 10).any (fun k =>
    if s.is9620 && k == 0 then false
    else
      let lo := lastWrite g.writes (0x8000 + 8 * k)
      let hi := lastWrite g.writes (0x8004 + 8 * k)
      match lo, hi with
      | none, none => let m := s.mem.masks.getD k (0, 0xFFFFFFFF); m.2 != ~~~ m.1
      | some v, some w => w != ~~~ v
      | _, _ => true)

/-- The lowest reason for which a group fails by itself, if it does: 2 PERMIT, 3 TWIN, 5 KEYSTONE_FOLLOWER (R56). -/
def State.ownReason (s : State) (g : Fin 16 × Group) : Option Nat :=
  if (s.needs g.2).any (fun k => (s.grantUnits g.1 k).isNone) then some 2
  else if s.twinFails g.2 then some 3
  else if s.nodRole = 2 ∧ g.2.writes.any Staged.isAction then some 5
  else none

/-- The groups that are not yet rejected. -/
def survivors (gs : List (Fin 16 × Group)) (bad : List (GroupId × Nat)) : List (Fin 16 × Group) :=
  gs.filter (fun g => !bad.any (fun r => r.1 == gid g))

/-- The masks after the staged writes of groups are not regular (14 R347). -/
def State.singular (s : State) (gs : List (Fin 16 × Group)) : Bool := !mapRegular s.is9620 ((s.masksAfter (stagedOf gs)).map (·.1))

/-- Of groups that apply together, those that set what a cost past its permit's units depends on (R302). -/
def State.overCharged (s : State) (live : List (Fin 16 × Group)) (b : Nat) : List (Fin 16 × Group) :=
  let tr := s.writeTrace live
  let ch := s.charges live b
  let past := ch.filter (fun c => !((chargeSum ch c.1 c.2.kind).le ((s.grantUnits c.1 c.2.kind).getD Units.zero)))
  live.filter (fun g => past.any (fun c => decide (c.1 = g.1) &&
    tr.any (fun e => e.1 == g.1 && e.2.1 == g.2.ticket && s.setsCost c.2 e)))

/-- Rejections that the survivors bring on one another: MAP_SINGULAR (14 R347), and charges that exceed their permits (R302). -/
def State.judgeRound (s : State) (gs : List (Fin 16 × Group)) (b : Nat) (bad : List (GroupId × Nat)) : List (GroupId × Nat) :=
  let live := survivors gs bad
  if live.any (fun g => s.writesMask g.2) && s.singular live then
    (gs.filter (fun g => s.writesMask g.2 && !bad.any (fun r => r.1 == gid g && decide (r.2 < 4)))).map (fun g => (gid g, 4)) ++ bad
  else (s.overCharged live b).map (fun g => (gid g, 2)) ++ bad

/-- The rounds repeat until nothing more is rejected (R302). -/
def State.judgeAll (s : State) (gs : List (Fin 16 × Group)) (b : Nat) (bad : List (GroupId × Nat)) : Nat → List (GroupId × Nat)
  | 0 => bad
  | fuel + 1 =>
    let bad' := s.judgeRound gs b bad
    if (survivors gs bad').length = (survivors gs bad).length then bad' else s.judgeAll gs b bad' fuel

/-- The lowest code that applies to a group rejected for reason r, each check made as though it applied beside the groups that pass (R56;
log entry 18). -/
def State.lowestReason (s : State) (gs : List (Fin 16 × Group)) (b : Nat) (bad : List (GroupId × Nat)) (g : Fin 16 × Group) (r : Nat) : Nat :=
  let live := gs.filter (fun h => gid h == gid g || !bad.any (fun x => x.1 == gid h))
  if 2 < r ∧ (s.overCharged live b).any (fun h => gid h == gid g) then 2
  else if 4 < r ∧ s.writesMask g.2 ∧ s.singular live then 4
  else r

/-- The rejections of groups judged together, each with its reason (R56). -/
def State.judgeGroups (s : State) (gs : List (Fin 16 × Group)) (b : Nat) : List (GroupId × Nat) :=
  let bad := s.judgeAll gs b (gs.filterMap (fun g => (s.ownReason g).map (fun r => (gid g, r)))) (gs.length + 1)
  gs.filterMap (fun g => (bad.find? (fun r => r.1 == gid g)).map (fun r => (gid g, s.lowestReason gs b bad g r.2)))

/-- The kinds for which the arbiter looks at a group's entries (R302, R307). -/
def State.kindsOf (s : State) (gs : List (Fin 16 × Group)) (b : Nat) : List (Fin 16 × Nat) :=
  gs.flatMap (fun g => (s.needs g.2).map (fun k => (g.1, k))) ++ (s.charges gs b).map (fun c => (c.1, c.2.kind))

/-- The entries that the groups rely on are checked (R307). -/
def State.checkGrants (s : State) (gs : List (Fin 16 × Group)) (b : Nat) : State :=
  (s.kindsOf gs b).foldl (fun s k => match s.granted k.1 k.2 with
    | some e => s.useEntry e
    | none => s) s

/-! ### What the groups do -/

/-- The hand-overs of applied groups (R302): the charges enter the load accounts, and every entry that a group needs becomes SPENT. -/
def State.handOvers (before s : State) (gs : List (Fin 16 × Group)) (b : Nat) : State :=
  let ch := before.charges gs b
  let s := (before.kindsOf gs b).eraseDups.foldl (fun s k => match s.granted k.1 k.2 with
    | some e => s.handOver e (chargeSum ch k.1 k.2) 0
    | none => s) s
  let s := ch.foldl (fun s c =>
    if c.2.kind = 4 then s.modChan (((c.2.fields.getD 0 (0, 0)).1 - 0x200000) / 0x10000) (fun x => { x with firHeld := x.firHeld + c.2.units.core }) else s) s
  let span := (ch.filter (fun c => c.2.kind = 2)).foldl (fun u c => u.add c.2.units) Units.zero
  let s := if span = Units.zero then s else { s with permits := { s.permits with falls := s.permits.falls ++ [{ due := b + 256, units := span }] } }
  (upTo 4).foldl (fun s k =>
    if (before.excOf k).on && ch.any (fun c => c.2.kind == 8 && (c.2.fields.getD 0 (0, 0)).1 == R.excCtrl k) then
      s.loadFall { Units.zero with conv := 1 }
    else s) s

/-- The Keystone actions of groups, as one change of the count (R57, 03 R85, R86). -/
def State.keystoneActions (s : State) (ws : List Staged) (b : Nat) : State :=
  if ws.any Staged.isAction then s.changeCount b (ws.foldl actCount (s.countAt b)) 2 else s

/-- The take and drop bits staged for the cores' pin slots (09 R254). -/
def pinsOf (ws : List Staged) : List (Nat × Bool × Bool) :=
  (upTo 16).filterMap (fun q => (lastWrite ws (R.recCorePin q)).bind (fun v =>
    if bit v 0 || bit v 1 then some (q, bit v 0, bit v 1) else none))

/-- What the boundary does to each block once the registers hold their new values; `old` is the state before the writes. -/
def State.blocksCommit (old s : State) (ws : List Staged) (b : Nat) (paid : Nat → Nat × Nat) : State :=
  let go := fun a => (lastWrite ws a).any (fun v => bit v 0)
  let s := State.convCommit old s b (readmitOf ws) (rotNowOf ws)
  let s := State.chanAnchors old s b
  let s := State.trigCommit old s b
  let s := State.recCommit old s b (fld ((lastWrite ws 0x400804).getD 0) 0 8) (pinsOf ws) false
  let s := State.tmrCommit old s b (lastWrite ws R.tmrCtrl).isSome (go 0x380020) (go R.tmrCalCtrl)
  let s := State.churnCommit old s b ws
  let s := State.memCommit old s (s.masksAfter ws) ((lastWrite ws 0xC030).getD 0) paid
  let s := State.sensCommit old s b (go 0x600008)
  let s := s.tapBandwidth
  let s := s.refSourceChange (old.rf R.refCtrl 0 2)
  s.nodRoleChange (old.reg R.nodCtrl)

/-- The units handed over for each stack's rate (R302; 15 R386). -/
def paidOf (ch : List (Fin 16 × Cost)) (st : Nat) : Nat × Nat :=
  ch.foldl (fun p c => if c.2.kind = 5 ∧ (c.2.units.hbm0 ≠ 0) = (st = 0) then (p.1 + c.2.units.core, p.2 + c.2.units.hbm0 + c.2.units.hbm1) else p) (0, 0)

/-- What the TRIGOUT and sequencer routes of a source did at b is taken back: a pulse that has not begun, and a WAIT's occurrence. -/
def State.unroute (s : State) (src b : Nat) : State :=
  { s with
    trigout := s.trigout.map (fun (l : List Pulse) => l.filter (fun p => !(p.src == src && p.start == b + 512 && !p.on)))
    cores := s.cores.map (fun (c : Core) => { c with waiting := match c.waiting with
      | some (.wait gd sr st tmo (some e)) => some (.wait gd sr st tmo (if sr = src ∧ e.1 = b then none else some e))
      | w => w }) }

/-- The Cairn entry that the route of a source placed at b is placed again under the routes in force. -/
def State.recairn (s : State) (src : Nat) : State :=
  match s.cairn.hw.reverse.find? (fun r => r.code == src) with
  | some r => ({ s with cairn := { s.cairn with hw := (s.cairn.hw.reverse.erase r).reverse } }).evtCairn src r.path
  | none => s

/-- The route in force at b governs an occurrence at b (22 R543, R552): occurrences at b that came before this commit act by the routes
that it leaves. -/
def State.reroute (old s : State) (b : Nat) : State :=
  let outs := (upTo 4).any (fun m => decide (old.reg (R.trigOutCtrl m) ≠ s.reg (R.trigOutCtrl m)))
  (upTo 256).foldl (fun s src =>
    let was := old.reg (R.evtRoute src)
    let now := s.reg (R.evtRoute src)
    if Assoc.get 0 old.evt.last src = b + 1 ∧ (was ≠ now ∨ outs) then
      let s := (s.unroute src b).evtTrigout src b
      let s := if bit was 19 then s.recairn src else s.evtCairn src (pathOfSource src)
      { s with cores := s.cores.mapFinIdx (fun i c _ => c.seeEvent src b (loW (s.countAt b)) (bit now i)) }
    else s) s

/-- The last program post among groups, with its core (21 R517). -/
def modePostOf (gs : List (Fin 16 × Group)) : Option (Fin 16 × Nat) :=
  gs.foldl (fun m g => g.2.writes.foldl (fun m w => match w with
    | .reg a v => if a = R.modeReq ∧ bit v 0 then some (g.1, fld v 1 3) else m
    | _ => m) m) none

/-- Mode posts at the boundary (21 R517): the program's last one, in whose place a host's post ends SUPERSEDED; else the host's. -/
def State.modePosts (s : State) (gs : List (Fin 16 × Group)) (b : Nat) : State :=
  let host := s.mode.hostWait.filter (fun h => decide (h.2 ≤ b))
  let s := if host.isSome then s.modMode (fun m => { m with hostWait := none }) else s
  match modePostOf gs with
  | some p =>
    let s := if host.isSome then s.modeResult 2 16 else s
    (s.modMode (fun m => { m with progAt := b + 1 })).modePost p.2 p.1 b
  | none => match host with
    | some h => s.modePost h.1 16 b
    | none => s

/-- The groups apply at elapsed boundary b as one change (R55): Keystone actions, register writes, hand-overs, and what they do. -/
def State.applyGroups (before : State) (gs : List (Fin 16 × Group)) (b : Nat) : State :=
  let ws := stagedOf gs
  let s := before.keystoneActions ws b
  let s := State.allWrites before s gs
  let s := State.handOvers before s gs b
  let s := State.blocksCommit before s ws b (paidOf (before.charges gs b))
  State.reroute before (State.chanBudgets before s) b

/-! ### Datapath soft reset (21 R531 to R533) -/

/-- The converters at a soft reset (R533): windows are abandoned, running signals settle and their schedules restart, and counters clear. -/
def State.convReset (s : State) (b : Nat) : State :=
  let s := (upTo 8).foldl (fun s n =>
    let s := s.modInput n (fun x => { x with rn := if x.rn = 1 ∨ x.rn = 3 then 6 else x.rn })
    let s := (s.abandonWindow n b true).dropPermit (20 + n) 10
    let s := if (s.inp n).running then (s.settle n b (b + 256)).setOrigin n (b + 256) else s
    (s.setReg64 (R.calLastRot n) 0).setRegs (R.calLastEst n 0) [0, 0, 0]) s
  let s := (upTo 24).foldl (fun s sl => s.modSlice sl (fun x => { x with errs := [] })) s
  s.resetRegs (fun a => (upTo 8).any (fun n => a == R.convOvrCount n || a == R.convLaneErr n || a == R.calRotCount n ||
    a == R.calSkipCount n || a == R.calClampCount n || a == R.calFallbackCount n))

/-- SPAN entries that are granted, spent or frozen are released (11 R306). -/
def State.releaseSpan (s : State) : State :=
  (List.range 64).foldl (fun s e => let t := s.entry e; if t.kind = 2 ∧ 3 ≤ t.st then s.releaseEntry e else s) s

/-- Registers that a soft reset sets to their reset values: the channels' but the default sets, the trigger's, the timer's and
Churn's, without the alert registers (R531; 00 R581). -/
def softReset (a : Nat) : Bool :=
  (decide (0x200000 ≤ a) && decide (a < 0x280000) && decide (a % 0x10000 < 0x3000) && a % 0x10000 != 0x48) ||
  (decide (0x300000 ≤ a) && decide (a < 0x400000) && a != R.trigAlertInfo && a != R.tmrAlertInfo) ||
  (decide (0x500000 ≤ a) && decide (a < 0x600000) && !(upTo 8).any (fun n => a == R.churnAlertInfo n))

/-- The reset itself at elapsed boundary b, in step 4 of R532. -/
def State.softResetAt (s : State) (b : Nat) : State :=
  let before := s
  let s := (s.fgAbort true).releaseSpan.convReset b
  let s := s.tmrStopAll 3 b
  let s := (s.resetRegs softReset).tapRestart 3 0
  let s := { s with chans := s.chans.map (fun (c : Chan) =>
    { Chan.reset with firHeld := c.firHeld, decAnchor := b, toneDue := (c.toneEnd b).toneDue }) }
  let s := s.noteEras b true
  let s := { s with trigout := s.trigout.map (fun (l : List Pulse) => l.filter (fun p => p.src != 256)), trig := { s.trig with
    cells := Vector.replicate 16 TCell.reset, progs := Vector.replicate 4 { TProg.reset with bucketVec := b / 128 }, agg := 2400, aggVec := b / 128 } }
  let s := State.recCommit before s b 0 [] true
  let s := { s with record := { s.record with frame := none } }
  let s := State.tmrCommit before s b false false false
  let cal := if s.tmr.cal.phase = 0 then Timer.reset.cal else { s.tmr.cal with done := 0, failed := 0 }
  let s := { s with tmr := { s.tmr with items := [], fifo := [], n := 0, seq := 0, startTwin := [], early := 0, edgeDrop := false, drops := [], seen := [], cal := cal } }
  let s := State.churnCommit before s b []
  let s := { s with churn := s.churn.map (fun (c : Churn) => { c with published := none, pubValid := false }) }
  let s := (s.sensDpReset.tapRestart 4 0).dmaAbortAll s.dmaOwned
  (List.range 19).foldl (fun s p => s.bucketFill p) s

/-- A load that fell at the reset and runs again from the same boundary stays counted (R302 compares before and after it). -/
def State.keepLoad (s : State) (u : Units) : State :=
  { s with permits := { s.permits with
      load := s.permits.load.add u
      ballast := s.permits.ballast - u.core
      lowering := s.permits.lowering - u.core
      held := { s.permits.held with core := s.permits.held.core - u.core } } }

/-- A soft reset with the groups that carry it (R532 steps 3 to 5). -/
def State.softReset (before : State) (gs : List (Fin 16 × Group)) (b : Nat) : State :=
  let ws := stagedOf gs
  let s := State.handOvers before before gs b
  let s := s.softResetAt b
  let mid := s
  let s := s.keystoneActions ws b
  let s := State.allWrites mid s gs
  let s := State.blocksCommit mid s ws b (paidOf (before.charges gs b))
  let s := State.chanBudgets before s
  let s := (upTo 8).foldl (fun s n => if before.churnOn n && s.churnOn n then s.keepLoad { Units.zero with core := 8 } else s) s
  ((s.setReg64 R.dpResetLast (s.countAt b)).bump16 R.dpResetStatus 0).raise 14

/-! ### Completion (R55, R56, R58) -/

/-- The register to which an address belongs: the low word of an 8-byte register (R7). -/
def regOf (a : Nat) : Nat :=
  let hi :=
    isMask a && a % 8 == 4 || a == 0xC02C || a == 0x380014 || a == 0x38001C || a == 0x380044 || a == 0x60002C ||
    decide (0x200000 ≤ a) && decide (a < 0x280000) && [0x114, 0x11C].contains (a % 0x10000) ||
    decide (0x301000 ≤ a) && decide (a < 0x301400) && [0x1C, 0x24].contains (a % 0x40) ||
    decide (0x302000 ≤ a) && decide (a < 0x302400) && [0x14, 0x1C].contains (a % 0x100) ||
    decide (0x400000 ≤ a) && decide (a < 0x400800) && [0x0C, 0x1C].contains (a % 0x100) ||
    decide (0x401000 ≤ a) && decide (a < 0x401400) && [0x0C, 0x34].contains (a % 0x100) ||
    decide (0x402000 ≤ a) && decide (a < 0x402100) && a % 0x10 == 0xC ||
    decide (0x500000 ≤ a) && decide (a < 0x600000) && [0x1C, 0x24, 0x34, 0x3C].contains (a % 0x20000)
  if hi then a - 4 else a

/-- The register that a staged write names; Keystone actions name one register of their own (03 R85). -/
def Staged.reg? : Staged → Nat
  | .reg a _ => regOf a
  | _ => 2 ^ 32

/-- A group shares a register with an applied group of another core (R55). -/
def conflicts (gs : List (Fin 16 × Group)) (g : Fin 16 × Group) : Bool :=
  gs.any (fun h => h.1 != g.1 && h.2.writes.any (fun w => g.2.writes.any (fun x => w.reg? == x.reg?)))

/-- An applied group completes (R53, R55, R58): APPLIED or APPLIED_LATE, with its conflict bit. -/
def State.completeApplied (s : State) (gs : List (Fin 16 × Group)) (b : Nat) : State :=
  gs.foldl (fun s g =>
    let s := if g.2.late then s.raiseCore 6 R.evtCoresLate g.1 else s
    let s := if conflicts gs g then s.raiseCore 8 R.evtCoresConflict g.1 else s
    s.modCore g.1 (fun c => c.complete g.2.ticket (if g.2.late then 2 else 1) (conflicts gs g) 0 b)) s

/-- Rejected groups complete (R53, R56). -/
def State.completeRejected (s : State) (gs : List (Fin 16 × Group)) (bad : List (GroupId × Nat)) (b : Nat) : State :=
  gs.foldl (fun s g => match bad.find? (fun r => r.1 == gid g) with
    | some r => (if g.2.late then s.raiseCore 6 R.evtCoresLate g.1 else s).rejectGroup g.1 g.2.ticket r.2 b
    | none => s) s

/-- Every group but the reset's own is rejected CANCELLED (R59; 21 R532 step 2). -/
def State.cancelOthers (s : State) (keep : List GroupId) (b : Nat) : State :=
  (List.finRange 16).foldl (fun s q =>
    ((s.core q).groups.map (·.ticket)).foldl (fun s t => if keep.contains (q, t) then s else s.rejectGroup q t 7 b) s) s

/-- Transfers that end by elapsed boundary b end (R51). -/
def State.endTransfers (s : State) (b : Nat) : State :=
  (List.finRange 16).foldl (fun s q =>
    ((s.core q).groups.filter (fun g => !g.armed && decide (g.tEnd ≤ b))).foldl (fun s g => s.transferEnd q g) s) s

/-- Time reaches elapsed boundary b under what is in force before it: the trigger's vectors close, and the buckets fill. -/
def State.closeBefore (s : State) (b : Nat) : State :=
  (((s.advance b).closeTick).closeVectors (b / 128)).bucketsTo b

/-- The groups due at elapsed boundary b, and no reset among those that pass: they are judged, apply as one change, and complete. -/
def State.commitAt (s : State) (gs : List (Fin 16 × Group)) (b : Nat) : State :=
  let late := gs.filter (fun g => g.2.discards)
  let live := gs.filter (fun g => !g.2.discards)
  let s := s.checkGrants live b
  let bad := s.judgeGroups live b
  let ok := survivors live bad
  let s := if ok = [] then s else s.applyGroups ok b
  let s := s.completeApplied ok b
  let s := s.completeRejected gs (late.map (fun g => (gid g, 1)) ++ bad) b
  s.modePosts ok b

/-- COMMIT_APPLY (R52 to R56; 21 R532): at the earliest boundary at which a group falls due, the due groups are judged, and those that
pass apply as one change. Groups that carry a soft reset are judged first. -/
def execCommitApply (s : State) : Host.Outcome State Fault Refusal := s.awake <|
  match s.nextDue with
  | none => .next s
  | some b =>
    let s := (s.endTransfers b).closeBefore b
    let gs := s.dueAt b
    let resets := gs.filter (fun g => g.2.resets && !g.2.discards)
    let s := s.checkGrants resets b
    let bad := s.judgeGroups resets b
    let ok := survivors resets bad
    if ok = [] then
      let s := s.completeRejected resets bad b
      .next (s.commitAt (gs.filter (fun g => !(resets.any (fun r => gid r == gid g)))) b)
    else
      let s := s.cancelOthers (ok.map gid) b
      .next (((s.softReset ok b).completeApplied ok b).modePosts ok b)

end Sys2Proof.Machine
end

