-- ==== Sys2Proof/Machine/RegisterWrite.lean ====
section
/-! DEFINITION. The host's write of one 32-bit word to BAR0 (00 R9, R11, R12; 02 R44, R60; and the register tables of the
chapters). Registers with a behaviour of their own are written by the operation that their command uses. -/

namespace Sys2Proof.Machine

/-- A write to a stored BAR0 register takes effect by access type (R9, R11, R12): RW bits take the word, W1C bits that are written 1
clear, unless an occurrence at this boundary has set them (R13), a counter of the host's clears. -/
def State.hostStore (s : State) (a : Nat) (w : W32) : State :=
  let k := 2 ^ 32 + a
  if regKind k = .hostCounter then s.setReg k 0
  else
    let v := s.reg k
    s.setReg k (((v &&& ~~~ writeMask k) ||| (w &&& writeMask k)) &&& ~~~ (w &&& w1cMask k &&& ~~~ s.freshBits s.boundary k))

/-- `SEQ_CTRL` (02): the fields, then the action of highest priority. -/
def State.seqCtrl (s : State) (q : Fin 16) (w : W32) : State :=
  s.after (match seqAction w with
    | 0 => execSeqStart q w s
    | 1 => execSeqResume q w s
    | 2 => execSeqHaltReq q w s
    | 3 => execSeqStep q w s
    | 4 => execCoreReset q w s
    | _ => .next (s.seqFields q w))

/-- Word o of core q's control block (02). -/
def State.seqWrite (s : State) (q : Fin 16) (o : Nat) (w : W32) : State :=
  if o = 0x000 then s.seqCtrl q w
  else if o = 0x004 then s.modCore q (fun c => { c with hostWrErr := c.hostWrErr && !bit w 3 })
  else if o = 0x014 then s.modCore q (fun c => { c with drdTimeout := w &&& 0xFFFFFF })
  else if o = 0x028 then (if bit w 0 then s.cancelGroups q else s)
  else if 0x100 ≤ o ∧ o < 0x120 then
    s.modCore q (fun c => if c.h2cFull then c else { c with h2c := vmod c.h2c ((o - 0x100) / 4) (fun _ => w) })
  else if o = 0x120 then s.h2cCtrl q w
  else if o = 0x160 then (if bit w 9 then s.modCore q (fun c => c.c2hAck s.now) else s)
  else s

/-- Word o of bulk DMA channel c (17 R421, R423, R441). -/
def State.dmaWrite (s : State) (c : Fin 32) (o : Nat) (w : W32) : State :=
  if o < 0x40 then
    if !s.dmaOwned c && decide ((s.dchan c).state = 0) then s.modDma c (fun x => { x with set := modAt x.set (o / 4) (fun _ => w) }) else s
  else if o = 0x40 then
    let s := if bit w 0 then s.after (execDmaGo .host c s) else s
    let s := if bit w 1 then s.after (execDmaResume .host c s) else s
    let s := if bit w 2 then s.after (execDmaSkip .host c s) else s
    if bit w 3 then s.after (execDmaAbort .host c s) else s
  else if o = 0x44 then s.modDma c (fun x => { x with cmdErr := x.cmdErr && !bit w 7 })
  else if o = 0x48 then s.after (execDmaDoorbell c w s)
  else s

/-- Word o of the PF's taps block (16 R415, R420). -/
def State.tapWrite (s : State) (o : Nat) (w : W32) : State :=
  if o = 0x10 then s.modPort 0 (fun p => { p with sel := fld w 0 12 })
  else if o = 0x14 then
    let op := fld w 0 3
    if op = 1 then s.after (execTapCtxRead 0 s)
    else if op = 2 then s.after (execTapCtxWrite 0 s)
    else if op = 3 then s.after (execTapEnable 0 s)
    else if op = 4 then s.after (execTapDisable 0 s)
    else if op = 5 then s.after (execTapAbort 0 s)
    else s
  else if o = 0x7C then s
  else if 0x40 ≤ o ∧ o < 0x80 then s.modPort 0 (fun p => { p with data := modAt p.data ((o - 0x40) / 4) (fun _ => w &&& ctxMask ((o - 0x40) / 4)) })
  else if 0x1000 ≤ o ∧ o < 0x2000 then
    (upTo 4).foldl (fun s i => s.after (execTapOwnerWrite (BitVec.ofNat 12 (o - 0x1000 + i)) (BitVec.ofNat 8 (fld w (8 * i) 8)) s)) s
  else if 0x4000 ≤ o ∧ o < 0x8000 then s.after (execTapDoorbell 0 (BitVec.ofNat 12 ((o - 0x4000) / 4)) w s)
  else if 0x8000 ≤ o ∧ o < 0xC000 then
    if s.tapOwner ((o - 0x8000) / 4) = 0 ∧ bit w 7 then s.modTap ((o - 0x8000) / 4) (fun x => { x with dbErr := false }) else s
  else s.hostStore (0x50000 + o) w

/-- Word o of the display block (18 R464). -/
def State.dspWrite (s : State) (o : Nat) (w : W32) : State :=
  if o = 0x00 then s.after (execDspEnable (bit w 0) s)
  else if o = 0x04 then s.modDsp (fun d => { d with irqHpd := d.irqHpd && !bit w 2 })
  else if o = 0x1C then
    let s := s.after (execDspFlipReq (BitVec.ofNat 5 (fld w 0 5)) s)
    s.after (execDspFlipCancel (BitVec.ofNat 5 (fld w 8 5)) s)
  else if o = 0x2C then (if bit w 0 then s.after (execDspModeApply s) else s)
  else if 0x100 ≤ o ∧ o < 0x200 ∧ o % 0x40 = 0 ∧ o ≠ 0x140 then s.hostStore (0x60000 + o) (w &&& 0xFFFDFFFF)
  else s.hostStore (0x60000 + o) w

/-- A post of slot 0 (20 R26, R487, R490, R515): refused while the slot is full or Aselm does not serve. -/
def State.mgtPost (s : State) : State :=
  if (s.mslot 0).full || !s.mgtServes then s.modMgt (fun m => { m with refused := true })
  else s.modSlot 0 (fun x => { x with full := true, running := false })

/-- Word o of the management block (20 R515). -/
def State.mgtWrite (s : State) (o : Nat) (w : W32) : State :=
  if o < 0x20 then s.modSlot 0 (fun x => if x.full then x else { x with req := modAt x.req (o / 4) (fun _ => w) })
  else if o = 0x20 then
    let s := s.modMgt (fun m => { m with refused := m.refused && !bit w 2 })
    if bit w 0 then s.mgtPost else s
  else if o = 0x60 then (if bit w 1 then s.after (execMgtAnsAck s) else s)
  else if o = 0x90 then (if bit w 0 then s.after (execMgtRestartReq s) else s)
  else s

/-- A write of the word at BAR0 offset `a`. -/
def State.barWrite (s : State) (a : Nat) (w : W32) : State :=
  if s.stopped && barAsleep a then s
  else if a = 0x100 then
    let s := s.hostStore a w
    if bit w 1 then s.after (execPtmNow s) else s
  else if a = 0x300 then s.after (execModeHostPost w s)
  else if h : 0x10020 ≤ a ∧ a < 0x10040 then s.after (execEvtMaskWrite ⟨(a - 0x10020) / 4, by omega⟩ w s)
  else if 0x11000 ≤ a ∧ a < 0x11400 then s.routeWrite ((a - 0x11000) / 4) w
  else if h : 0x20000 ≤ a ∧ a < 0x30000 then s.seqWrite ⟨(a - 0x20000) / 0x1000, by omega⟩ (a % 0x1000) w
  else if a = 0x30000 then s.after (execSeqGroupStart (w.setWidth 16) s)
  else if a = 0x30004 then s.after (execSeqSemForce (w.setWidth 16) s)
  else if h : 0x40000 ≤ a ∧ a < 0x42000 then s.dmaWrite ⟨(a - 0x40000) / 0x100, by omega⟩ (a % 0x100) w
  else if a = 0x48000 then s.after (execDmaOwnerWrite w s)
  else if 0x50000 ≤ a ∧ a < 0x60000 then s.tapWrite (a - 0x50000) w
  else if 0x60000 ≤ a ∧ a < 0x61000 then s.dspWrite (a - 0x60000) w
  else if 0x90000 ≤ a ∧ a < 0x91000 then s.mgtWrite (a - 0x90000) w
  else if a = 0xA1000 then s.after (execPermitForce (w.setWidth 16) s)
  else if 0x1000000 ≤ a ∧ a < 0x2000000 then s
  else if h : 0x2000000 ≤ a ∧ a < 0x2100000 then
    s.modCore ⟨(a - 0x2000000) / 0x10000, by omega⟩ (fun c => c.windowWrite (a % 0x10000) w)
  else if 0x2100000 ≤ a ∧ a < 0x2140000 then
    let o := a - 0x2100000
    (s.smemHost o 4 true).smemPut o (leBytes 4 w.toNat)
  else s.hostStore a w

/-- REGISTER_WRITE (R11): the host writes the aligned word that holds a BAR0 address. -/
def execRegisterWrite (addr w : W32) (s : State) : Host.Outcome State Fault Refusal := s.clocked <| .next (s.barWrite (addr.toNat / 4 * 4) w)

end Sys2Proof.Machine
end

