-- ==== Sys2Proof/Machine/Dispatch.lean ====
section
/-! DEFINITION. One arm per command: its meaning on everything but the queue. -/

namespace Sys2Proof.Machine

def exec (i : Instr) (s : State) : Host.Outcome State Fault Refusal :=
  match i with
  | .add q gd ga gb => Sys2Proof.Machine.execAdd q gd ga gb s
  | .addc q gd ga gb => Sys2Proof.Machine.execAddc q gd ga gb s
  | .sub q gd ga gb => Sys2Proof.Machine.execSub q gd ga gb s
  | .subc q gd ga gb => Sys2Proof.Machine.execSubc q gd ga gb s
  | .and q gd ga gb => Sys2Proof.Machine.execAnd q gd ga gb s
  | .or q gd ga gb => Sys2Proof.Machine.execOr q gd ga gb s
  | .xor q gd ga gb => Sys2Proof.Machine.execXor q gd ga gb s
  | .shl q gd ga gb => Sys2Proof.Machine.execShl q gd ga gb s
  | .shr q gd ga gb => Sys2Proof.Machine.execShr q gd ga gb s
  | .sar q gd ga gb => Sys2Proof.Machine.execSar q gd ga gb s
  | .mul q gd ga gb => Sys2Proof.Machine.execMul q gd ga gb s
  | .mulhu q gd ga gb => Sys2Proof.Machine.execMulhu q gd ga gb s
  | .cmp q ga gb => Sys2Proof.Machine.execCmp q ga gb s
  | .tst q ga gb => Sys2Proof.Machine.execTst q ga gb s
  | .addi q gd ga imm => Sys2Proof.Machine.execAddi q gd ga imm s
  | .andi q gd ga imm => Sys2Proof.Machine.execAndi q gd ga imm s
  | .ori q gd ga imm => Sys2Proof.Machine.execOri q gd ga imm s
  | .xori q gd ga imm => Sys2Proof.Machine.execXori q gd ga imm s
  | .shli q gd ga imm => Sys2Proof.Machine.execShli q gd ga imm s
  | .shri q gd ga imm => Sys2Proof.Machine.execShri q gd ga imm s
  | .sari q gd ga imm => Sys2Proof.Machine.execSari q gd ga imm s
  | .cmpi q ga imm => Sys2Proof.Machine.execCmpi q ga imm s
  | .li q gd imm32 => Sys2Proof.Machine.execLi q gd imm32 s
  | .ldw q gd ga imm => Sys2Proof.Machine.execLdw q gd ga imm s
  | .ldb q gd ga imm => Sys2Proof.Machine.execLdb q gd ga imm s
  | .stw q gd ga imm => Sys2Proof.Machine.execStw q gd ga imm s
  | .stb q gd ga imm => Sys2Proof.Machine.execStb q gd ga imm s
  | .ldtw q gd ga w => Sys2Proof.Machine.execLdtw q gd ga w s
  | .sttw q gd ga w => Sys2Proof.Machine.execSttw q gd ga w s
  | .bCond q cond off => Sys2Proof.Machine.execBCond q cond off s
  | .call q off => Sys2Proof.Machine.execCall q off s
  | .ret q => Sys2Proof.Machine.execRet q s
  | .loop q ga off => Sys2Proof.Machine.execLoop q ga off s
  | .jr q ga => Sys2Proof.Machine.execJr q ga s
  | .halt q => Sys2Proof.Machine.execHalt q s
  | .nop q => Sys2Proof.Machine.execNop q s
  | .dwr q gd ga imm => Sys2Proof.Machine.execDwr q gd ga imm s
  | .dwri q ga imm imm32 => Sys2Proof.Machine.execDwri q ga imm imm32 s
  | .drd q gd ga imm => Sys2Proof.Machine.execDrd q gd ga imm s
  | .commit q gd ga discard => Sys2Proof.Machine.execCommit q gd ga discard s
  | .commitev q gd ga src => Sys2Proof.Machine.execCommitev q gd ga src s
  | .cwait q gd ga => Sys2Proof.Machine.execCwait q gd ga s
  | .synczZero q => Sys2Proof.Machine.execSynczZero q s
  | .synczOffset q ga => Sys2Proof.Machine.execSynczOffset q ga s
  | .tick q gd => Sys2Proof.Machine.execTick q gd s
  | .wait q gd src gb => Sys2Proof.Machine.execWait q gd src gb s
  | .waitt q ga => Sys2Proof.Machine.execWaitt q ga s
  | .sig q n => Sys2Proof.Machine.execSig q n s
  | .permit q gd ga gb kind => Sys2Proof.Machine.execPermit q gd ga gb kind s
  | .release q kind => Sys2Proof.Machine.execRelease q kind s
  | .mbxSend q gd n try_ => Sys2Proof.Machine.execMbxSend q gd n try_ s
  | .mbxReceive q gd ga try_ => Sys2Proof.Machine.execMbxReceive q gd ga try_ s
  | .mbxMgtSend q gd n try_ => Sys2Proof.Machine.execMbxMgtSend q gd n try_ s
  | .mbxMgtReceive q gd ga try_ => Sys2Proof.Machine.execMbxMgtReceive q gd ga try_ s
  | .semtake q n => Sys2Proof.Machine.execSemtake q n s
  | .semtry q n => Sys2Proof.Machine.execSemtry q n s
  | .semgive q n => Sys2Proof.Machine.execSemgive q n s
  | .drdComplete q => Sys2Proof.Machine.execDrdComplete q s
  | .drdTimeout q => Sys2Proof.Machine.execDrdTimeout q s
  | .waitOccurrence q => Sys2Proof.Machine.execWaitOccurrence q s
  | .waitTimeout q => Sys2Proof.Machine.execWaitTimeout q s
  | .waittReached q => Sys2Proof.Machine.execWaittReached q s
  | .mbxWaitDone q => Sys2Proof.Machine.execMbxWaitDone q s
  | .commitSlotFree q => Sys2Proof.Machine.execCommitSlotFree q s
  | .groupTransferEnd q => Sys2Proof.Machine.execGroupTransferEnd q s
  | .commitApply => Sys2Proof.Machine.execCommitApply s
  | .commitevTriggered q ticket => Sys2Proof.Machine.execCommitevTriggered q ticket s
  | .evExpired q ticket => Sys2Proof.Machine.execEvExpired q ticket s
  | .seqStart q w => Sys2Proof.Machine.execSeqStart q w s
  | .seqResume q w => Sys2Proof.Machine.execSeqResume q w s
  | .seqHaltReq q w => Sys2Proof.Machine.execSeqHaltReq q w s
  | .seqStep q w => Sys2Proof.Machine.execSeqStep q w s
  | .coreReset q w => Sys2Proof.Machine.execCoreReset q w s
  | .seqHaltDone q => Sys2Proof.Machine.execSeqHaltDone q s
  | .seqGroupStart cores => Sys2Proof.Machine.execSeqGroupStart cores s
  | .seqSemForce sems => Sys2Proof.Machine.execSeqSemForce sems s
  | .seqCommitCancel q => Sys2Proof.Machine.execSeqCommitCancel q s
  | .seqH2cPost q w => Sys2Proof.Machine.execSeqH2cPost q w s
  | .seqC2hAck q => Sys2Proof.Machine.execSeqC2hAck q s
  | .hostImemWrite q off w => Sys2Proof.Machine.execHostImemWrite q off w s
  | .registerWrite addr w => Sys2Proof.Machine.execRegisterWrite addr w s
  | .refLost => Sys2Proof.Machine.execRefLost s
  | .refAcquire => Sys2Proof.Machine.execRefAcquire s
  | .refLocked => Sys2Proof.Machine.execRefLocked s
  | .ksWrap => Sys2Proof.Machine.execKsWrap s
  | .ptmNow => Sys2Proof.Machine.execPtmNow s
  | .ptmAutoDialog => Sys2Proof.Machine.execPtmAutoDialog s
  | .ptmDialogDone ok master ticks => Sys2Proof.Machine.execPtmDialogDone ok master ticks s
  | .nodTrainingDone lane => Sys2Proof.Machine.execNodTrainingDone lane s
  | .nodMeasureDone lane roundTrip upLat upFollower id hops eighth => Sys2Proof.Machine.execNodMeasureDone lane roundTrip upLat upFollower id hops eighth s
  | .nodLoadSend lane known lat b => Sys2Proof.Machine.execNodLoadSend lane known lat b s
  | .nodLoad ahead count crc => Sys2Proof.Machine.execNodLoad ahead count crc s
  | .nodAlign => Sys2Proof.Machine.execNodAlign s
  | .nodZero isZero o b crc => Sys2Proof.Machine.execNodZero isZero o b crc s
  | .nodZeroBoundary => Sys2Proof.Machine.execNodZeroBoundary s
  | .nodArmMark arm code programs b crc => Sys2Proof.Machine.execNodArmMark arm code programs b crc s
  | .nodRate count upUnlocked crc => Sys2Proof.Machine.execNodRate count upUnlocked crc s
  | .nodRateSend => Sys2Proof.Machine.execNodRateSend s
  | .nodTrigRx lane origin hops prog ticks word2 crcOk => Sys2Proof.Machine.execNodTrigRx lane origin hops prog ticks word2 crcOk s
  | .nodLinkDown lane => Sys2Proof.Machine.execNodLinkDown lane s
  | .convOvr n hi t => Sys2Proof.Machine.execConvOvr n hi t s
  | .laneError slice t => Sys2Proof.Machine.execLaneError slice t s
  | .sliceFault slice => Sys2Proof.Machine.execSliceFault slice s
  | .settleEnd n => Sys2Proof.Machine.execSettleEnd n s
  | .sliceRejoin slice => Sys2Proof.Machine.execSliceRejoin slice s
  | .shadowWindowOpen n => Sys2Proof.Machine.execShadowWindowOpen n s
  | .calRotation n pairs bad => Sys2Proof.Machine.execCalRotation n pairs bad s
  | .skewEstimateDone slice count dot sq => Sys2Proof.Machine.execSkewEstimateDone slice count dot sq s
  | .refMeasureStart slice => Sys2Proof.Machine.execRefMeasureStart slice s
  | .refMeasureDone slice off gain tone => Sys2Proof.Machine.execRefMeasureDone slice off gain tone s
  | .tableTwinCheck slice flip prevFlip => Sys2Proof.Machine.execTableTwinCheck slice flip prevFlip s
  | .forcedWindowOpen n => Sys2Proof.Machine.execForcedWindowOpen n s
  | .rotateNowDenied n => Sys2Proof.Machine.execRotateNowDenied n s
  | .fgCalStepDone vals bad => Sys2Proof.Machine.execFgCalStepDone vals bad s
  | .chSat n t x => Sys2Proof.Machine.execChSat n t x s
  | .toneBlockDeliver n x mag phase => Sys2Proof.Machine.execToneBlockDeliver n x mag phase s
  | .tcFire c t x => Sys2Proof.Machine.execTcFire c t x s
  | .tcTimeoutExpire c t => Sys2Proof.Machine.execTcTimeoutExpire c t s
  | .tcWindowWaitExpire c t => Sys2Proof.Machine.execTcWindowWaitExpire c t s
  | .tpSeqWindowEnd p => Sys2Proof.Machine.execTpSeqWindowEnd p s
  | .trigoutEdge m => Sys2Proof.Machine.execTrigoutEdge m s
  | .trigoutPulseEnd m => Sys2Proof.Machine.execTrigoutPulseEnd m s
  | .tiEdge k tclk tap falling held flip prevFlip => Sys2Proof.Machine.execTiEdge k tclk tap falling held flip prevFlip s
  | .tiBlindEnd k => Sys2Proof.Machine.execTiBlindEnd k s
  | .tmrItemProcess flip held => Sys2Proof.Machine.execTmrItemProcess flip held s
  | .tmrWindowEnd flip => Sys2Proof.Machine.execTmrWindowEnd flip s
  | .tmrCalCountDone k hits => Sys2Proof.Machine.execTmrCalCountDone k hits s
  | .tmrCalUnitReturn k => Sys2Proof.Machine.execTmrCalUnitReturn k s
  | .tmrCalUnitSkip k => Sys2Proof.Machine.execTmrCalUnitSkip k s
  | .tmrFifoRead q => Sys2Proof.Machine.execTmrFifoRead q s
  | .recChunkWrite n full outs x => Sys2Proof.Machine.execRecChunkWrite n full outs x s
  | .recEnd n full x => Sys2Proof.Machine.execRecEnd n full x s
  | .dirInitDone p => Sys2Proof.Machine.execDirInitDone p s
  | .dirEntryWrite p => Sys2Proof.Machine.execDirEntryWrite p s
  | .dirSeal p => Sys2Proof.Machine.execDirSeal p s
  | .churnFreeOffer n => Sys2Proof.Machine.execChurnFreeOffer n s
  | .churnAutoTimeout n => Sys2Proof.Machine.execChurnAutoTimeout n s
  | .churnWfmComplete n x => Sys2Proof.Machine.execChurnWfmComplete n x s
  | .churnEngineStart n => Sys2Proof.Machine.execChurnEngineStart n s
  | .churnOpEnd n corrected bad => Sys2Proof.Machine.execChurnOpEnd n corrected bad s
  | .churnDecayTimer n => Sys2Proof.Machine.execChurnDecayTimer n s
  | .churnSnapPeriod n => Sys2Proof.Machine.execChurnSnapPeriod n s
  | .churnSnapEvent n => Sys2Proof.Machine.execChurnSnapEvent n s
  | .churnBandRead n => Sys2Proof.Machine.execChurnBandRead n s
  | .churnSnapPublish n => Sys2Proof.Machine.execChurnSnapPublish n s
  | .ballastStepUp => Sys2Proof.Machine.execBallastStepUp s
  | .permitGrantDirect => Sys2Proof.Machine.execPermitGrantDirect s
  | .ballastStepDown => Sys2Proof.Machine.execBallastStepDown s
  | .permitDenied req kind => Sys2Proof.Machine.execPermitDenied req kind s
  | .loadFall => Sys2Proof.Machine.execLoadFall s
  | .permitForce cores => Sys2Proof.Machine.execPermitForce cores s
  | .memLinePresent p write dpa mask data => Sys2Proof.Machine.execMemLinePresent p write dpa mask data s
  | .memLineAccept e write => Sys2Proof.Machine.execMemLineAccept e write s
  | .memReadReturn e out => Sys2Proof.Machine.execMemReadReturn e out s
  | .memMapDrainDone => Sys2Proof.Machine.execMemMapDrainDone s
  | .memMapTwinCheck w flip => Sys2Proof.Machine.execMemMapTwinCheck w flip s
  | .memXlate aselm addr => Sys2Proof.Machine.execMemXlate aselm addr s
  | .memAerr c => Sys2Proof.Machine.execMemAerr c s
  | .memReplayAttemptEnd c dur => Sys2Proof.Machine.execMemReplayAttemptEnd c dur s
  | .memUnfenceDone c ok => Sys2Proof.Machine.execMemUnfenceDone c ok s
  | .memDerr e ix => Sys2Proof.Machine.execMemDerr e ix s
  | .memRowDisturb e sid bank row => Sys2Proof.Machine.execMemRowDisturb e sid bank row s
  | .memRdPenaltyEnd p => Sys2Proof.Machine.execMemRdPenaltyEnd p s
  | .memRdWindow st => Sys2Proof.Machine.execMemRdWindow st s
  | .memTempRead st temp => Sys2Proof.Machine.execMemTempRead st temp s
  | .memRefreshDue e bank => Sys2Proof.Machine.execMemRefreshDue e bank s
  | .memSrEntry c => Sys2Proof.Machine.execMemSrEntry c s
  | .memSrExitDone c dt => Sys2Proof.Machine.execMemSrExitDone c dt s
  | .memRateDone st => Sys2Proof.Machine.execMemRateDone st s
  | .memCommandIssue e rd => Sys2Proof.Machine.execMemCommandIssue e rd s
  | .perstAssert => Sys2Proof.Machine.execPerstAssert s
  | .perstRelease => Sys2Proof.Machine.execPerstRelease s
  | .configReady => Sys2Proof.Machine.execConfigReady s
  | .configRequest f r write w => Sys2Proof.Machine.execConfigRequest f r write w s
  | .hostLinkUp lanes rate => Sys2Proof.Machine.execHostLinkUp lanes rate s
  | .pfFlr => Sys2Proof.Machine.execPfFlr s
  | .vfFlr v => Sys2Proof.Machine.execVfFlr v s
  | .flrDone f dt => Sys2Proof.Machine.execFlrDone f dt s
  | .vfEnableClear => Sys2Proof.Machine.execVfEnableClear s
  | .busMasterChange f bme d3 => Sys2Proof.Machine.execBusMasterChange f bme d3 s
  | .aerError correctable k => Sys2Proof.Machine.execAerError correctable k s
  | .bar2Access off wr n outs => Sys2Proof.Machine.execBar2Access off wr n outs s
  | .tapCtxRead f => Sys2Proof.Machine.execTapCtxRead f s
  | .tapCtxWrite f => Sys2Proof.Machine.execTapCtxWrite f s
  | .tapEnable f => Sys2Proof.Machine.execTapEnable f s
  | .tapDisable f => Sys2Proof.Machine.execTapDisable f s
  | .tapAbort f => Sys2Proof.Machine.execTapAbort f s
  | .tapStopDone t => Sys2Proof.Machine.execTapStopDone t s
  | .tapDoorbell f t w => Sys2Proof.Machine.execTapDoorbell f t w s
  | .tapOwnerWrite t w => Sys2Proof.Machine.execTapOwnerWrite t w s
  | .tapSegmentTake t => Sys2Proof.Machine.execTapSegmentTake t s
  | .tapChurnTake t => Sys2Proof.Machine.execTapChurnTake t s
  | .tapLineReturn t out => Sys2Proof.Machine.execTapLineReturn t out s
  | .tapRecordDone t => Sys2Proof.Machine.execTapRecordDone t s
  | .tapItemDone t => Sys2Proof.Machine.execTapItemDone t s
  | .tapStreamFlush t first => Sys2Proof.Machine.execTapStreamFlush t first s
  | .tapLineTimeout t => Sys2Proof.Machine.execTapLineTimeout t s
  | .tapIrqTime t => Sys2Proof.Machine.execTapIrqTime t s
  | .aspmL1 enter => Sys2Proof.Machine.execAspmL1 enter s
  | .dmaGo src c => Sys2Proof.Machine.execDmaGo src c s
  | .dmaResume src c => Sys2Proof.Machine.execDmaResume src c s
  | .dmaSkip src c => Sys2Proof.Machine.execDmaSkip src c s
  | .dmaAbort src c => Sys2Proof.Machine.execDmaAbort src c s
  | .dmaDoorbell c w => Sys2Proof.Machine.execDmaDoorbell c w s
  | .dmaOwnerWrite w => Sys2Proof.Machine.execDmaOwnerWrite w s
  | .dmaSetLoadDone c out words => Sys2Proof.Machine.execDmaSetLoadDone c out words s
  | .dmaBurstReturn c ix outs data => Sys2Proof.Machine.execDmaBurstReturn c ix outs data s
  | .dmaBurstTimeout c ix => Sys2Proof.Machine.execDmaBurstTimeout c ix s
  | .dmaSetComplete c => Sys2Proof.Machine.execDmaSetComplete c s
  | .dmaFenceDone c => Sys2Proof.Machine.execDmaFenceDone c s
  | .dmaStopDone c => Sys2Proof.Machine.execDmaStopDone c s
  | .dspEnable on => Sys2Proof.Machine.execDspEnable on s
  | .dspFrameStart => Sys2Proof.Machine.execDspFrameStart s
  | .dspFlipReq bits => Sys2Proof.Machine.execDspFlipReq bits s
  | .dspFlipCancel bits => Sys2Proof.Machine.execDspFlipCancel bits s
  | .dspModeApply => Sys2Proof.Machine.execDspModeApply s
  | .dspLineFetch l outs => Sys2Proof.Machine.execDspLineFetch l outs s
  | .dspLayerFault l underrun line => Sys2Proof.Machine.execDspLayerFault l underrun line s
  | .dspFlipDone => Sys2Proof.Machine.execDspFlipDone s
  | .hpdConnect => Sys2Proof.Machine.execHpdConnect s
  | .hpdDisconnect => Sys2Proof.Machine.execHpdDisconnect s
  | .irqHpd lostLock => Sys2Proof.Machine.execIrqHpd lostLock s
  | .sensConvEnd v full => Sys2Proof.Machine.execSensConvEnd v full s
  | .sensResultWrite => Sys2Proof.Machine.execSensResultWrite s
  | .sensStartEvent full => Sys2Proof.Machine.execSensStartEvent full s
  | .sensPowerDown => Sys2Proof.Machine.execSensPowerDown s
  | .sensStartupDone full => Sys2Proof.Machine.execSensStartupDone full s
  | .sensMgtInject source gainExp samp => Sys2Proof.Machine.execSensMgtInject source gainExp samp s
  | .sensInjResult => Sys2Proof.Machine.execSensInjResult s
  | .sensMemWaitEnd cycles => Sys2Proof.Machine.execSensMemWaitEnd cycles s
  | .excRampDone k => Sys2Proof.Machine.execExcRampDone k s
  | .excLimit k => Sys2Proof.Machine.execExcLimit k s
  | .excLimitEnd k => Sys2Proof.Machine.execExcLimitEnd k s
  | .getInfo => Sys2Proof.Machine.execGetInfo s
  | .sensorRead => Sys2Proof.Machine.execSensorRead s
  | .cairnCopy => Sys2Proof.Machine.execCairnCopy s
  | .lifetimeCopy => Sys2Proof.Machine.execLifetimeCopy s
  | .settingsGet => Sys2Proof.Machine.execSettingsGet s
  | .settingsSet flash => Sys2Proof.Machine.execSettingsSet flash s
  | .fgCal => Sys2Proof.Machine.execFgCal s
  | .tableInstall bad => Sys2Proof.Machine.execTableInstall bad s
  | .tmrCal => Sys2Proof.Machine.execTmrCal s
  | .eyeSweep => Sys2Proof.Machine.execEyeSweep s
  | .memSelftest => Sys2Proof.Machine.execMemSelftest s
  | .seqSelftest pass => Sys2Proof.Machine.execSeqSelftest pass s
  | .dpTrain lanes rate pass => Sys2Proof.Machine.execDpTrain lanes rate pass s
  | .updBegin flash => Sys2Proof.Machine.execUpdBegin flash s
  | .updChunk flash => Sys2Proof.Machine.execUpdChunk flash s
  | .updVerify kwador cosign gcm flash => Sys2Proof.Machine.execUpdVerify kwador cosign gcm flash s
  | .updActivate flash => Sys2Proof.Machine.execUpdActivate flash s
  | .updConfirm flash => Sys2Proof.Machine.execUpdConfirm flash s
  | .updRevert flash => Sys2Proof.Machine.execUpdRevert flash s
  | .cosignFuse => Sys2Proof.Machine.execCosignFuse s
  | .cosignFuseTail => Sys2Proof.Machine.execCosignFuseTail s
  | .badCmd => Sys2Proof.Machine.execBadCmd s
  | .eyeSweepStepStart => Sys2Proof.Machine.execEyeSweepStepStart s
  | .eyeSweepStepEnd dt found end_ => Sys2Proof.Machine.execEyeSweepStepEnd dt found end_ s
  | .memSelftestDone pass e bank cell lane => Sys2Proof.Machine.execMemSelftestDone pass e bank cell lane s
  | .bootRom a b reads flash => Sys2Proof.Machine.execBootRom a b reads flash s
  | .thermSample temps => Sys2Proof.Machine.execThermSample temps s
  | .smbSensorSelect id pec => Sys2Proof.Machine.execSmbSensorSelect id pec s
  | .modeHostPost w => Sys2Proof.Machine.execModeHostPost w s
  | .modeConverterEntry => Sys2Proof.Machine.execModeConverterEntry s
  | .modeConverterSwitch => Sys2Proof.Machine.execModeConverterSwitch s
  | .modeConverterExit => Sys2Proof.Machine.execModeConverterExit s
  | .modeDenied => Sys2Proof.Machine.execModeDenied s
  | .retainEntry => Sys2Proof.Machine.execRetainEntry s
  | .retainExit => Sys2Proof.Machine.execRetainExit s
  | .porRelease => Sys2Proof.Machine.execPorRelease s
  | .porAssert => Sys2Proof.Machine.execPorAssert s
  | .vddAonLow => Sys2Proof.Machine.execVddAonLow s
  | .evtCoalTimeout src => Sys2Proof.Machine.execEvtCoalTimeout src s
  | .evtMsixSend => Sys2Proof.Machine.execEvtMsixSend s
  | .evtMaskWrite k w => Sys2Proof.Machine.execEvtMaskWrite k w s
  | .wake => Sys2Proof.Machine.execWake s
  | .jtagExtest capture load => Sys2Proof.Machine.execJtagExtest capture load s
  | .jtagSamplePreload capture load => Sys2Proof.Machine.execJtagSamplePreload capture load s
  | .jtagIdcode => Sys2Proof.Machine.execJtagIdcode s
  | .jtagHighz => Sys2Proof.Machine.execJtagHighz s
  | .jtagClamp => Sys2Proof.Machine.execJtagClamp s
  | .jtagExtestPulse capture load => Sys2Proof.Machine.execJtagExtestPulse capture load s
  | .jtagExtestTrain capture load => Sys2Proof.Machine.execJtagExtestTrain capture load s
  | .jtagBypass code => Sys2Proof.Machine.execJtagBypass code s
  | .testLogicReset => Sys2Proof.Machine.execTestLogicReset s
  | .vddAonRestore => Sys2Proof.Machine.execVddAonRestore s
  | .nodLinkReturn lane => Sys2Proof.Machine.execNodLinkReturn lane s
  | .fgCalInstall => Sys2Proof.Machine.execFgCalInstall s
  | .trigDecision => Sys2Proof.Machine.execTrigDecision s
  | .tmrCalGrant => Sys2Proof.Machine.execTmrCalGrant s
  | .tmrCalDenied => Sys2Proof.Machine.execTmrCalDenied s
  | .mgtAnsAck => Sys2Proof.Machine.execMgtAnsAck s
  | .mgtRestartReq => Sys2Proof.Machine.execMgtRestartReq s
  | .mgtWatchdog => Sys2Proof.Machine.execMgtWatchdog s
  | .mgtReady => Sys2Proof.Machine.execMgtReady s
  | .supplyCheck => Sys2Proof.Machine.execSupplyCheck s
  | .lifeSecond => Sys2Proof.Machine.execLifeSecond s
  | .lifeSave => Sys2Proof.Machine.execLifeSave s
  | .cairnDrain => Sys2Proof.Machine.execCairnDrain s
  | .cairnOvf => Sys2Proof.Machine.execCairnOvf s
  | .confirmWindowExpiry => Sys2Proof.Machine.execConfirmWindowExpiry s
  | .autoConfirm => Sys2Proof.Machine.execAutoConfirm s
  | .smbStatus => Sys2Proof.Machine.execSmbStatus s
  | .smbTemperature => Sys2Proof.Machine.execSmbTemperature s
  | .smbSensorRead => Sys2Proof.Machine.execSmbSensorRead s
  | .smbVersions => Sys2Proof.Machine.execSmbVersions s
  | .smbLife => Sys2Proof.Machine.execSmbLife s
  | .smbCairnIndex => Sys2Proof.Machine.execSmbCairnIndex s
  | .smbAlertCauses => Sys2Proof.Machine.execSmbAlertCauses s
  | .smbAlertResponse => Sys2Proof.Machine.execSmbAlertResponse s
  | .fgCalPermitDenied => Sys2Proof.Machine.execFgCalPermitDenied s

end Sys2Proof.Machine
end

