-- ==== Sys2Proof/Safety.lean ====
section
/-! DEFINITION. The words in which the statements speak: a command that goes on, a core ready to begin an instruction, what an instruction
leaves alone, and the canonical form of the memories. -/

namespace Sys2Proof.Machine

/-- The command goes on, to a state of which P holds. -/
def Does (i : Instr) (s : State) (P : State → Prop) : Prop := ∃ t, exec i s = .next t ∧ P t

/-- The data plane and the cores run: the clock does, and the device is not in RETAIN. -/
abbrev State.up (s : State) : Prop := s.stopped = false

/-- The clock runs. -/
abbrev State.ticking (s : State) : Prop := s.clockless = false

/-- Core q is ready for an instruction (12 R314, R316, R337): RUNNING, both words of it in IMEM and no reserved encoding, and no
outstanding DRD is to write a register that it uses. -/
abbrev State.ready (s : State) (q : Fin 16) (op : Op) : Prop :=
  s.up ∧ (s.core q).run = .running ∧ (s.core q).pc.toNat + op.size ≤ 4096 ∧ op.ok = true ∧
  ∀ d ∈ (s.core q).drds, d.gd = 0 ∨ op.uses.contains d.gd = false

/-- The state in which core q's next instruction begins (12 R316): time has come to the core's next edge. -/
def State.begun (s : State) (q : Fin 16) : State := s.advance (s.startEdge q)

/-- Core q went on with the instruction at `pc` after k cycles (12 R316); a stepped core halts (02 R61). -/
def Core.wentOn (c : Core) (e k : Nat) (pc : W32) (d : Core) : Prop :=
  d.pc = pc ∧ d.edge = e + 64 * k ∧ d.run = (if c.stepping then (if c.drds = [] then .halted else .halting) else .running) ∧
  d.waiting = none ∧ d.met = none ∧ d.stepping = false

/-- What an instruction that uses only registers and flags leaves of its core: all but registers, flags, PC and run state. -/
def Core.sameButRegs (c d : Core) : Prop :=
  d = { c with g := d.g, fz := d.fz, fn := d.fn, fc := d.fc, fv := d.fv, pc := d.pc, edge := d.edge, run := d.run,
               stepping := d.stepping, waiting := d.waiting, met := d.met }

/-- The registers of a core but those listed are unchanged. -/
def Core.regsBut (c d : Core) (rs : List Nat) : Prop := ∀ k, k < 32 → k ∉ rs → d.rd k = c.rd k

/-- The flags of a core are unchanged. -/
def Core.sameFlags (c d : Core) : Prop := d.fz = c.fz ∧ d.fn = c.fn ∧ d.fc = c.fc ∧ d.fv = c.fv

/-- Every core but q is unchanged. -/
def State.othersKept (s t : State) (q : Fin 16) : Prop := ∀ p, p ≠ q → t.core p = s.core p

/-- Only core q has changed, and time has passed. -/
def State.onlyCore (s t : State) (q : Fin 16) : Prop := t = { s with now := t.now, cores := t.cores } ∧ s.othersKept t q

/-- Core q has executed an instruction of k cycles and `size` words: gd holds v (a write to g0 is discarded), the flags are as
given, and nothing else has changed but the PC and the time. -/
def State.computes (s t : State) (q : Fin 16) (gd : Nat) (v : W32) (z n c o : Bool) (k size : Nat) : Prop :=
  s.onlyCore t q ∧ (s.core q).sameButRegs (t.core q) ∧ (s.core q).regsBut (t.core q) [gd] ∧ (gd ≠ 0 → (t.core q).rd gd = v) ∧
  (t.core q).fz = z ∧ (t.core q).fn = n ∧ (t.core q).fc = c ∧ (t.core q).fv = o ∧
  (s.core q).wentOn (s.startEdge q) k ((s.core q).pc + BitVec.ofNat 32 size) (t.core q)

/-- The cycles that an access of core q to n words, `len` bytes at data address `a`, waits for the SMEM arbiter, and the state with it under
way (02 R42): it stores `data`, or loads `regs` registers from gd on. None and the state itself where the access is to DMEM. -/
def State.afterTurn (s : State) (q : Fin 16) (smem : Bool) (a len n : Nat) (store : Bool) (data : List Byte) (gd regs : Nat) : Nat × State :=
  if smem then
    let t := s.turn q (s.startEdge q) a len n store
    (t.1, t.2.smemKeep data gd regs)
  else (0, s)

/-- The bytes that a load of core q reads, `u` being the state with it under way: those of DMEM, or those that its turns in SMEM find. -/
def State.loaded (s u : State) (q : Fin 16) (smem : Bool) (a len : Nat) : List Byte :=
  if smem then u.smemRead else Mem.read (s.core q).dmem a len

/-- Core q has stored n words, the bytes `bs`, from data address `a` on, in k cycles and the arbiter's wait, at most 16 cycles for each word: those
bytes of DMEM or SMEM read as stored, but a byte of SMEM that a store served in a later cycle holds; every other byte reads as before, and
no register and no flag has changed. -/
def State.stores (s t : State) (q : Fin 16) (smem : Bool) (a n : Nat) (bs : List Byte) (k : Nat) : Prop :=
  let u := s.afterTurn q smem a bs.length n true bs 0 0
  let c := u.2.core q
  let d := t.core q
  let o := a - 0x10000
  t = { u.2 with now := t.now, cores := t.cores, smem := t.smem } ∧ u.1 ≤ 16 * n ∧
  u.2.othersKept t q ∧
  d = { c with dmem := d.dmem, pc := d.pc, edge := d.edge, run := d.run, stepping := d.stepping, waiting := d.waiting, met := d.met } ∧
  c.wentOn (s.startEdge q) (k + u.1) (c.pc + 1) d ∧
  (∀ x, Mem.byte t.smem x =
    if smem = true ∧ o ≤ x ∧ x < o + bs.length ∧ u.2.smemLater x ((x - o) / 4) = false then bs.getD (x - o) 0 else Mem.byte s.smem x) ∧
  ∀ x, Mem.byte d.dmem x = if smem = false ∧ a ≤ x ∧ x < a + bs.length then bs.getD (x - a) 0 else Mem.byte c.dmem x

/-- Core q has executed an instruction that changed its DCS side (open group, groups, outstanding reads) or its sending state only:
no register but those listed, no flag, no memory of its own. -/
def Core.keepsBut (c d : Core) (rs : List Nat) : Prop := c.sameFlags d ∧ c.regsBut d rs ∧ d.stack = c.stack ∧ d.imem = c.imem ∧ d.dmem = c.dmem

/-- Registers that an occurrence of source `src` may write: its status word, its count, and the queue's overflow. -/
def raiseWrites (src a : Nat) : Bool :=
  a == R.evtStatus (src / 32) || a == R.evtCount src || a == R.evtQueueOvf || (List.range 64).any (fun i => a == R.evtOvfVec i)

/-- Source `src` had no occurrence at boundary b yet, and its block is present. -/
abbrev State.fresh (s : State) (b src : Nat) : Prop := Assoc.get 0 s.evt.last src ≠ b + 1 ∧ (s.is9620 && absentSource src) = false

/-- Source `src` has had its occurrence at boundary b (22 R537, R538): its status bit is set and it is counted once. -/
def State.occurred (s t : State) (b src : Nat) : Prop :=
  bit (t.reg (R.evtStatus (src / 32))) (src % 32) = true ∧ t.reg (R.evtCount src) = satInc (s.reg (R.evtCount src)) 1 ∧
  Assoc.get 0 t.evt.last src = b + 1

/-- The register of a block that is present. -/
abbrev State.present (s : State) (a : Nat) : Prop := (s.is9620 && absent9620 a) = false

/-- Every byte memory of the state is in its canonical form. -/
def State.memWf (s : State) : Bool :=
  Mem.wf s.smem && Mem.wf s.hostMem && Mem.wf s.hbm && s.cores.toList.all (fun c => Mem.wf c.imem && Mem.wf c.dmem)

/-- The state s with what occurrences of events change taken from t. -/
def State.withEvents (s t : State) : State :=
  { s with regs := t.regs, evt := t.evt, cairn := t.cairn, trigout := t.trigout, cores := t.cores }

/-- Between s and t only the registers listed and those that an occurrence of `src` writes have changed, and of the cores only what they
wait for and their groups. -/
def State.eventKept (s t : State) (src : Nat) (as : List Nat) : Prop :=
  (∀ a, a ∉ as → raiseWrites src a = false → t.reg a = s.reg a) ∧ ∀ q, ∃ w gs, t.core q = { s.core q with waiting := w, groups := gs }

/-- Every register but those listed reads as before. -/
def State.regsKept (s t : State) (as : List Nat) : Prop := ∀ a, a ∉ as → t.reg a = s.reg a

/-- The reference path is r, but for what a KTS of a tick that has passed reads of it (03 R70; log entry 39). -/
def State.refIs (t : State) (r : RefPath) : Prop :=
  t.ref = { r with lockTick := t.ref.lockTick, lockWas := t.ref.lockWas, alignWas := t.ref.alignWas }

/-- What the Nodric messages handed to the downstream lanes whose link is up become with one more (03 R92, R94). -/
def State.handed (s : State) (m : NodMsg) : List (Nat × NodMsg) := s.nodDown.map (fun l => (l, m)) ++ s.nod.sent

/-- Aselm, RUNNING, serves slot k next (20 R490, R491): its request's command is `cmd`, its header is in order, and no host reset
discards its answer. -/
abbrev State.asked (s : State) (k cmd : Nat) : Prop :=
  s.ticking ∧ s.mgt.state = 1 ∧ s.nextSlot = some k ∧ (s.mslot k).cmd = cmd ∧ fld ((s.mslot k).arg 0) 8 8 = 0 ∧ (s.mslot k).drop = false

/-- Slot k holds the running request of a command that Aselm, RUNNING, works on. -/
abbrev State.working (s : State) (k cmd : Nat) : Prop :=
  s.mgt.state = 1 ∧ s.slotOf cmd = some k ∧ (s.mslot k).drop = false

/-- Slot k has been answered with a status and result words (20 R490); the other slots are as they were. -/
def State.answered (s t : State) (k st : Nat) (ws : List W32) : Prop :=
  let x := s.mslot k
  t.mslot k = { x with
    full := false, running := false, valid := true
    ans := (pack [(0, x.cmd), (8, st), (16, fld (x.arg 0) 16 16)] :: ws ++ List.replicate 8 0).take 8 } ∧
  ∀ j, j ≠ k → t.mslot j = s.mslot j

/-- Only the management plane has changed, to m but for its slots, and what occurrences of these sources change; a core that waits for
an answer may have it. -/
def State.onlyMgt (s t : State) (m : Mgt) (srcs : List Nat) : Prop :=
  t = { s.withEvents t with freeCtr := t.freeCtr, mgt := { m with slots := t.mgt.slots, last := t.mgt.last } } ∧
  (∀ a, (∀ src ∈ srcs, raiseWrites src a = false) → t.reg a = s.reg a) ∧
  ∀ q, ∃ w gs mt, t.core q = { s.core q with waiting := w, groups := gs, met := mt }

/-- Commands of what stays powered without a clock: supplies, POR_N, PERST# and the boundary-scan port. -/
def alwaysOn : Instr → Bool
  | .porRelease => true
  | .porAssert => true
  | .vddAonLow => true
  | .vddAonRestore => true
  | .perstAssert => true
  | .perstRelease => true
  | .jtagExtest _ _ => true
  | .jtagSamplePreload _ _ => true
  | .jtagIdcode => true
  | .jtagHighz => true
  | .jtagClamp => true
  | .jtagExtestPulse _ _ => true
  | .jtagExtestTrain _ _ => true
  | .jtagBypass _ => true
  | .testLogicReset => true
  | _ => false

end Sys2Proof.Machine
end

