-- ==== Sys2Proof/Certificates/Slice0/Obligations.lean ====
section
/-! DEFINITION. The statements for the provers. -/

open Sys2Proof Sys2Proof.Machine

/-- A step takes the command at the front of the queue and is its meaning with the queue's rest. -/
def Obligations.StepRunsFrontCommand : Prop :=
  ∀ (s : State) (c : Instr), step { s with pending := c :: s.pending } = exec c s

/-- From 12 R317, R319: ADD, ADDC, SUB, SUBC, ADDI, CMP and CMPI: result, carry (no borrow), signed overflow, one cycle, and nothing
else changed. -/
def Obligations.AddAndSubtractSetResultAndFlags : Prop :=
  ∀ (s : State) (q : Fin 16) (gd ga gb : Fin 32) (imm : BitVec 15),
    let a := (s.core q).rd ga
    let b := (s.core q).rd gb
    let i := imm.signExtend 32
    let cin : W32 := if (s.core q).fc then 1 else 0
    let cn : Nat := if (s.core q).fc then 1 else 0
    (s.ready q (.add gd ga gb) → Does (.add q gd ga gb) s (fun t => s.computes t q gd (a + b) (decide (a + b = 0)) (a + b).msb
      (decide (2 ^ 32 ≤ a.toNat + b.toNat)) (decide (a.toInt + b.toInt ≠ (a + b).toInt)) 1 1)) ∧
    (s.ready q (.addc gd ga gb) → Does (.addc q gd ga gb) s (fun t => s.computes t q gd (a + b + cin) (decide (a + b + cin = 0))
      (a + b + cin).msb (decide (2 ^ 32 ≤ a.toNat + b.toNat + cn)) (decide (a.toInt + b.toInt + cn ≠ (a + b + cin).toInt)) 1 1)) ∧
    (s.ready q (.sub gd ga gb) → Does (.sub q gd ga gb) s (fun t => s.computes t q gd (a - b) (decide (a - b = 0)) (a - b).msb
      (decide (b.toNat ≤ a.toNat)) (decide (a.toInt - b.toInt ≠ (a - b).toInt)) 1 1)) ∧
    (s.ready q (.subc gd ga gb) → Does (.subc q gd ga gb) s (fun t => s.computes t q gd (a - b - (1 - cin))
      (decide (a - b - (1 - cin) = 0)) (a - b - (1 - cin)).msb (decide (b.toNat + (1 - cn) ≤ a.toNat))
      (decide (a.toInt - b.toInt - ((1 - cn : Nat) : Int) ≠ (a - b - (1 - cin)).toInt)) 1 1)) ∧
    (s.ready q (.addi gd ga imm) → Does (.addi q gd ga imm) s (fun t => s.computes t q gd (a + i) (decide (a + i = 0)) (a + i).msb
      (decide (2 ^ 32 ≤ a.toNat + i.toNat)) (decide (a.toInt + i.toInt ≠ (a + i).toInt)) 1 1)) ∧
    (s.ready q (.cmp ga gb) → Does (.cmp q ga gb) s (fun t => s.computes t q 0 0 (decide (a - b = 0)) (a - b).msb
      (decide (b.toNat ≤ a.toNat)) (decide (a.toInt - b.toInt ≠ (a - b).toInt)) 1 1)) ∧
    (s.ready q (.cmpi ga imm) → Does (.cmpi q ga imm) s (fun t => s.computes t q 0 0 (decide (a - i = 0)) (a - i).msb
      (decide (i.toNat ≤ a.toNat)) (decide (a.toInt - i.toInt ≠ (a - i).toInt)) 1 1))

/-- From 12 R317, R319: AND, OR, XOR, TST and their immediate forms set Z and N, MUL and MULHU too in 3 cycles; LI sets no flag and takes 2 cycles
and 2 words; C and V are kept. The shifts take their amount from the low five bits; C is the last bit shifted out, 0 for a shift of 0; V
is kept. -/
def Obligations.LogicProductsAndShiftsSetFlags : Prop :=
  (∀ (s : State) (q : Fin 16) (gd ga gb : Fin 32) (imm : BitVec 15) (w : W32),
      let c := s.core q
      let a := c.rd ga
      let b := c.rd gb
      let i := imm.setWidth 32
      let p := a.toNat * b.toNat
      (s.ready q (.and gd ga gb) → Does (.and q gd ga gb) s (fun t => s.computes t q gd (a &&& b) (decide (a &&& b = 0)) (a &&& b).msb c.fc c.fv 1 1)) ∧
      (s.ready q (.or gd ga gb) → Does (.or q gd ga gb) s (fun t => s.computes t q gd (a ||| b) (decide (a ||| b = 0)) (a ||| b).msb c.fc c.fv 1 1)) ∧
      (s.ready q (.xor gd ga gb) → Does (.xor q gd ga gb) s (fun t => s.computes t q gd (a ^^^ b) (decide (a ^^^ b = 0)) (a ^^^ b).msb c.fc c.fv 1 1)) ∧
      (s.ready q (.tst ga gb) → Does (.tst q ga gb) s (fun t => s.computes t q 0 0 (decide (a &&& b = 0)) (a &&& b).msb c.fc c.fv 1 1)) ∧
      (s.ready q (.andi gd ga imm) → Does (.andi q gd ga imm) s (fun t => s.computes t q gd (a &&& i) (decide (a &&& i = 0)) (a &&& i).msb c.fc c.fv 1 1)) ∧
      (s.ready q (.ori gd ga imm) → Does (.ori q gd ga imm) s (fun t => s.computes t q gd (a ||| i) (decide (a ||| i = 0)) (a ||| i).msb c.fc c.fv 1 1)) ∧
      (s.ready q (.xori gd ga imm) → Does (.xori q gd ga imm) s (fun t => s.computes t q gd (a ^^^ i) (decide (a ^^^ i = 0)) (a ^^^ i).msb c.fc c.fv 1 1)) ∧
      (s.ready q (.mul gd ga gb) → Does (.mul q gd ga gb) s (fun t => s.computes t q gd (a * b) (decide (a * b = 0)) (a * b).msb c.fc c.fv 3 1)) ∧
      (s.ready q (.mulhu gd ga gb) → Does (.mulhu q gd ga gb) s (fun t =>
        let r : W32 := BitVec.ofNat 32 (p / 2 ^ 32)
        s.computes t q gd r (decide (r = 0)) r.msb c.fc c.fv 3 1)) ∧
      (s.ready q (.li gd w) → Does (.li q gd w) s (fun t => s.computes t q gd w c.fz c.fn c.fc c.fv 2 2))) ∧
  (∀ (s : State) (q : Fin 16) (gd ga gb : Fin 32) (imm : BitVec 15),
      let c := s.core q
      let a := c.rd ga
      let n := (c.rd gb).toNat % 32
      let m := imm.toNat % 32
      let left := fun (k : Nat) (t : State) => s.computes t q gd (a <<< k) (decide (a <<< k = 0)) (a <<< k).msb
        (decide (k ≠ 0) && a.getLsbD (32 - k)) c.fv 1 1
      let right := fun (r : W32) (k : Nat) (t : State) => s.computes t q gd r (decide (r = 0)) r.msb (decide (k ≠ 0) && a.getLsbD (k - 1)) c.fv 1 1
      (s.ready q (.shl gd ga gb) → Does (.shl q gd ga gb) s (left n)) ∧
      (s.ready q (.shr gd ga gb) → Does (.shr q gd ga gb) s (right (a >>> n) n)) ∧
      (s.ready q (.sar gd ga gb) → Does (.sar q gd ga gb) s (right (a.sshiftRight n) n)) ∧
      (s.ready q (.shli gd ga imm) → Does (.shli q gd ga imm) s (left m)) ∧
      (s.ready q (.shri gd ga imm) → Does (.shri q gd ga imm) s (right (a >>> m) m)) ∧
      (s.ready q (.sari gd ga imm) → Does (.sari q gd ga imm) s (right (a.sshiftRight m) m)))

/-- From 02 R41, R42; 12 R320, R321: a load whose address is aligned and in one range of the data space writes what memory holds and sets no
flag; one from SMEM adds the arbiter's wait, at most 16 cycles for each word, and finds each word as its cycle does. A store there changes the
bytes it names and no other byte; STTW stores the words and then their complements; of two stores to a byte of SMEM the one that the arbiter
serves later wins, and a load finds a store that is served before it. The arbiter serves an access at once where nothing waits, and of two that
begin in one cycle the one whose requester comes first after the one served last.
Readings of the model that it rests on: log entry 11. -/
def Obligations.LoadsReadAndStoresChangeTheirBytes : Prop :=
  (∀ (s : State) (q : Fin 16) (gd ga : Fin 32) (imm : BitVec 15) (n : BitVec 4) (m : Bool),
      let c := s.core q
      let a := (c.rd ga + imm.signExtend 32).toNat
      let b := (c.rd ga).toNat
      let w := n.toNat
      let one := s.afterTurn q m a 4 1 false [] gd 1
      let low := s.afterTurn q m a 1 1 false [] gd 1
      let all := s.afterTurn q m b (8 * w) (2 * w) false [] gd w
      let word := BitVec.ofNat 32 (ofBytes (s.loaded one.2 q m a 4))
      let byte := BitVec.ofNat 32 (ofBytes (s.loaded low.2 q m a 1))
      let ws := wordsOf (s.loaded all.2 q m b (8 * w))
      let d := all.2.core q
      (s.ready q (.ldw gd ga imm) → access a 4 4 = some m → Does (.ldw q gd ga imm) s (fun t => one.1 ≤ 16 ∧
        one.2.computes t q gd word c.fz c.fn c.fc c.fv ((if m then 2 else 1) + one.1) 1)) ∧
      (s.ready q (.ldb gd ga imm) → access a 1 1 = some m → Does (.ldb q gd ga imm) s (fun t => low.1 ≤ 16 ∧
        low.2.computes t q gd byte c.fz c.fn c.fc c.fv ((if m then 2 else 1) + low.1) 1)) ∧
      (s.ready q (.ldtw gd ga n) → access b 4 (8 * w) = some m → (∀ j < w, ws.getD (w + j) 0 = ~~~ (ws.getD j 0)) →
        Does (.ldtw q gd ga n) s (fun t => all.1 ≤ 16 * (2 * w) ∧ all.2.onlyCore t q ∧ d.sameButRegs (t.core q) ∧ d.sameFlags (t.core q) ∧
          (∀ j < w, gd.val + j ≠ 0 → (t.core q).rd (gd + j) = ws.getD j 0) ∧
          d.regsBut (t.core q) ((List.range w).map (fun j => gd + j)) ∧
          d.wentOn (s.startEdge q) ((if m then 1 + 2 * w else 2 * w) + all.1) (c.pc + 1) (t.core q)))) ∧
  (∀ (s : State) (q : Fin 16) (gd ga : Fin 32) (imm : BitVec 15) (n : BitVec 4) (m : Bool),
      let c := s.core q
      let a := (c.rd ga + imm.signExtend 32).toNat
      let b := (c.rd ga).toNat
      let w := n.toNat
      let ws := (List.range w).map (fun j => c.rd (gd + j))
      (s.ready q (.stw gd ga imm) → access a 4 4 = some m → Does (.stw q gd ga imm) s (fun t =>
        s.stores t q m a 1 (leBytes 4 (c.rd gd).toNat) (if m then 2 else 1))) ∧
      (s.ready q (.stb gd ga imm) → access a 1 1 = some m → Does (.stb q gd ga imm) s (fun t =>
        s.stores t q m a 1 [(c.rd gd).setWidth 8] (if m then 2 else 1))) ∧
      (s.ready q (.sttw gd ga n) → access b 4 (8 * w) = some m → Does (.sttw q gd ga n) s (fun t =>
        s.stores t q m b (2 * w) ((ws ++ ws.map (fun x => ~~~ x)).flatMap (fun x => leBytes 4 x.toNat)) (if m then 1 + 2 * w else 2 * w)))) ∧
  (∀ (s : State) (q : Fin 16) (a len n gd regs x k : Nat) (store : Bool) (data : List Byte),
      let u := s.afterTurn q true a len n store data gd regs
      (s.smemJobs = [] → u.1 = 0 ∧ u.2.cores = s.cores ∧ u.2.smem = s.smem ∧ u.2.smemLater x k = false ∧
        (store = false → u.2.smemRead = Mem.read s.smem (a - 0x10000) len)) ∧
      ((∀ j ∈ s.smemJobs, j.req ≠ q) → u.2.core q = s.core q)) ∧
  (∀ (s : State) (q p : Fin 16) (e lo hi x : Nat) (store : Bool) (j : SmemJob),
      let u := s.smemTurn q e lo hi 1 store
      let place := fun (r : Fin 16) => (r.val + 16 - s.smemLast) % 17
      let read := (u.2.smemKeep [] 0 0).smemRead
      let bytes := fun (l : List Byte) => (List.range 4).map (fun o => l.getD o 0)
      let meet := s.smemJobs = [j] ∧ s.smemNext = e ∧ s.smemLast ≤ 16 ∧ j.req = p ∧ j.start = e ∧ j.words = 1 ∧ j.left = 1 ∧ j.waited = 0
      let same := store = false ∧ j.store = true ∧ j.lo = lo ∧ j.hi = lo + 4 ∧ hi = lo + 4
      (meet → place q < place p → u.1 = 0 ∧ (u.2.core p).edge = (s.core p).edge + 64 ∧
        u.2.smemLater x 0 = (j.store && decide (j.lo ≤ x) && decide (x < min j.hi (j.lo + 4)))) ∧
      (meet → place p < place q → u.1 = 1 ∧ u.2.cores = s.cores ∧ u.2.smemLater x 0 = false) ∧
      (meet → same → place q < place p → read = bytes j.under) ∧
      (meet → same → place p < place q → read = bytes j.data))

/-- From 12 R318, R322, R323: branches, calls, returns, loops, jumps, HALT and NOP: where the PC goes and in how many cycles, and nothing
else changed but the return stack of CALL and RET, ga of LOOP and the run state of HALT. -/
def Obligations.FlowOfControl : Prop :=
  ∀ (s : State) (q : Fin 16) (ga : Fin 32) (cond : BitVec 4) (off : BitVec 13) (top : W32) (rest : List W32),
    let c := s.core q
    let e := s.startEdge q
    let goal := c.pc + off.signExtend 32
    let kept := fun (t : State) => s.onlyCore t q ∧ c.sameFlags (t.core q) ∧ c.regsBut (t.core q) []
    (s.ready q (.branch cond off) → Does (.bCond q cond off) s (fun t => kept t ∧ (t.core q).stack = c.stack ∧
      (if c.cond cond then c.wentOn e 2 goal (t.core q) else c.wentOn e 1 (c.pc + 1) (t.core q)))) ∧
    (s.ready q (.call off) → c.stack.length < 16 → Does (.call q off) s (fun t => kept t ∧ (t.core q).stack = (c.pc + 1) :: c.stack ∧
      c.wentOn e 2 goal (t.core q))) ∧
    (s.ready q .ret → c.stack = top :: rest → Does (.ret q) s (fun t => kept t ∧ (t.core q).stack = rest ∧ c.wentOn e 2 top (t.core q))) ∧
    (s.ready q (.loop ga off) → Does (.loop q ga off) s (fun t =>
      let v := if ga.val = 0 then 0 else c.rd ga - 1
      s.onlyCore t q ∧ c.sameButRegs (t.core q) ∧ c.sameFlags (t.core q) ∧ c.regsBut (t.core q) [ga] ∧ (t.core q).rd ga = v ∧
      (if v = 0 then c.wentOn e 1 (c.pc + 1) (t.core q) else c.wentOn e 2 goal (t.core q)))) ∧
    (s.ready q (.jr ga) → Does (.jr q ga) s (fun t => kept t ∧ (t.core q).stack = c.stack ∧ c.wentOn e 2 (c.rd ga) (t.core q))) ∧
    (s.ready q .halt → c.pc.toNat < 4095 → Does (.halt q) s (fun t => kept t ∧ (t.core q).stack = c.stack ∧
      (t.core q).run = (if c.drds = [] then .halted else .halting) ∧ (t.core q).pc = c.pc + 1 ∧ (t.core q).openGrp = c.openGrp)) ∧
    (s.ready q .nop → Does (.nop q) s (fun t => kept t ∧ (t.core q).stack = c.stack ∧ c.wentOn e 1 (c.pc + 1) (t.core q)))

/-- From 02 R45, R48, R49, R57; 12 R324, R325: a DWR, DWRI or SYNCZ joins the open group of fewer than 256 writes; a DRD with fewer than 4
outstanding is issued, to end after its latency.
Readings of the model that it rests on: log entry 9. -/
def Obligations.StagingAndReadsJoinTheCore : Prop :=
  ∀ (s : State) (q : Fin 16) (gd ga : Fin 32) (imm : BitVec 15) (w : W32),
    let c := s.core q
    let e := s.startEdge q
    let a := ((c.rd ga + imm.signExtend 32) &&& 0xFFFFFF).toNat
    let mapped := a % 4 = 0 ∧ a < 0x800000
    let staged := fun (x : Staged) (k : Nat) (t : State) => s.onlyCore t q ∧ c.keepsBut (t.core q) [] ∧
      (t.core q).openGrp = c.openGrp ++ [x] ∧ (t.core q).groups = c.groups ∧ c.wentOn e k (c.pc + BitVec.ofNat 32 k) (t.core q)
    (s.ready q (.dwr gd ga imm) → mapped → c.openGrp.length < 256 → Does (.dwr q gd ga imm) s (staged (.reg a (c.rd gd)) 1)) ∧
    (s.ready q (.dwri ga imm w) → mapped → c.openGrp.length < 256 → Does (.dwri q ga imm w) s (staged (.reg a w) 2)) ∧
    (s.ready q (.syncz 0 0) → c.openGrp.length < 256 → Does (.synczZero q) s (staged .zero 1)) ∧
    (s.ready q (.syncz ga 1) → c.openGrp.length < 256 → Does (.synczOffset q ga) s (staged (.offset (c.rd ga)) 1)) ∧
    (s.ready q (.drd gd ga imm) → mapped → c.drds.length < 4 → Does (.drd q gd ga imm) s (fun t =>
      s.onlyCore t q ∧ c.keepsBut (t.core q) [] ∧ (t.core q).openGrp = c.openGrp ∧
      (t.core q).drds = c.drds ++ [{ gd := gd, addr := a, issued := e, due := e + 64 * drdLatency a, pc := c.pc, val := none }] ∧
      (t.core q).pc = c.pc + 1 ∧ (t.core q).edge = e + 64))

/-- From 02 R50 to R52, R54, R58: COMMIT and COMMITEV close the open group when a slot is free: the ticket goes to gd, the group is held with
its writes and its condition, transferred in a CK_DP per 8 writes after earlier transfers, and the next group is empty. A CWAIT for a
group that has completed returns its status.
Readings of the model that it rests on: log entry 18. -/
def Obligations.CommitClosesTheOpenGroup : Prop :=
  ∀ (s : State) (q : Fin 16) (gd ga : Fin 32) (discard : Bool) (src : BitVec 8) (st : W32 × W32),
    let c := s.core q
    let e := s.startEdge q
    let held := fun (cond : GroupCond) (t : State) => s.onlyCore t q ∧ c.keepsBut (t.core q) [gd] ∧ (gd.val ≠ 0 → (t.core q).rd gd = c.ticket) ∧
      (t.core q).openGrp = [] ∧ (t.core q).ticket = c.ticket + 1 ∧ c.wentOn e 1 (c.pc + 1) (t.core q) ∧
      ∃ g, (t.core q).groups = c.groups ++ [g] ∧ g.ticket = c.ticket ∧ g.writes = c.openGrp ∧ g.cond = cond ∧ g.armed = false ∧
        g.tEnd = max (e + 64) c.xferEnd + 128 * ((c.openGrp.length + 7) / 8) ∧ (t.core q).xferEnd = g.tEnd ∧
        (s.nodRole ≠ 1 → g.bMin = alignUp (g.tEnd + 256) 128)
    (s.ready q (.commit gd ga discard) → c.groups.length < 8 → Does (.commit q gd ga discard) s (held (.tick (c.pair ga) discard))) ∧
    (s.ready q (.commitev gd ga src) → c.groups.length < 8 → Does (.commitev q gd ga src) s (held (.event src.toNat (c.pair ga)))) ∧
    (s.ready q (.cwait gd ga) → (c.rd ga).toNat < c.ticket.toNat → c.groups.any (fun g => g.ticket == c.rd ga) = false →
      c.done.find? (fun x => x.1 == c.rd ga) = some st → Does (.cwait q gd ga) s (fun t =>
        s.computes t q gd st.2 c.fz c.fn c.fc c.fv 1 1))

/-- From 12 R315, R327 to R330: TICK writes the count at the edge that begins it; WAIT blocks from that edge; WAITT blocks until its target,
passes with C = 0 in the cycle that holds it, and finds a later target missed with C = 1; SIG makes one occurrence of its source at
the first boundary at or after it retires. -/
def Obligations.TimeAndEventInstructions : Prop :=
  ∀ (s : State) (q : Fin 16) (gd ga gb : Fin 32) (src : BitVec 8) (n : BitVec 4),
    let c := s.core q
    let e := s.startEdge q
    let now := s.countAt e
    let k := c.pair ga
    (s.ready q (.tick gd) → Does (.tick q gd) s (fun t => s.onlyCore t q ∧ c.sameButRegs (t.core q) ∧ c.sameFlags (t.core q) ∧
      c.regsBut (t.core q) [gd, gd + 1] ∧ (gd.val ≠ 0 → (t.core q).rd gd = BitVec.ofNat 32 now ∧ (t.core q).rd (gd + 1) = BitVec.ofNat 32 (now / 2 ^ 32)) ∧
      c.wentOn e 1 (c.pc + 1) (t.core q))) ∧
    (s.ready q (.wait gd src gb) → Does (.wait q gd src gb) s (fun t => s.onlyCore t q ∧ c.sameButRegs (t.core q) ∧ c.sameFlags (t.core q) ∧
      c.regsBut (t.core q) [] ∧ (t.core q).run = .blocked ∧ (t.core q).pc = c.pc ∧
      (t.core q).waiting = some (.wait gd src.toNat e (c.rd gb).toNat none))) ∧
    (s.ready q (.waitt ga) → now < k → Does (.waitt q ga) s (fun t => s.onlyCore t q ∧ c.sameButRegs (t.core q) ∧ c.sameFlags (t.core q) ∧
      c.regsBut (t.core q) [] ∧ (t.core q).run = .blocked ∧ (t.core q).waiting = some (.waitt k (alignUp (e + (k - now)) 64) false))) ∧
    (s.ready q (.waitt ga) → k ≤ now → now < k + 64 → Does (.waitt q ga) s (fun t => s.computes t q 0 0 c.fz c.fn false c.fv 1 1)) ∧
    (s.ready q (.waitt ga) → k + 64 ≤ now → c.waitTrap = false → Does (.waitt q ga) s (fun t => s.computes t q 0 0 c.fz c.fn true c.fv 1 1)) ∧
    (s.ready q (.sig n) →
      let b := (s.begun q).boundaryFrom (e + 64)
      s.fresh b (248 + n.toNat) → Does (.sig q n) s (fun t => s.occurred t b (248 + n.toNat) ∧ c.keepsBut (t.core q) [] ∧
        (t.core q).pc = c.pc + 1 ∧ (t.core q).edge = e + 64 ∧ ∀ a, raiseWrites (248 + n.toNat) a = false → t.reg a = s.reg a))

/-- From 02 R64, R65; 11 R298, R299; 12 R331, R332, R334, R335: PERMIT queues a request that is not refused and not held, and waits; RELEASE
frees the entry; a send fills an empty mailbox and a receive empties a full one, with Z = 0.
Readings of the model that it rests on: log entry 45. -/
def Obligations.PermitAndMailboxInstructions : Prop :=
  ∀ (s : State) (q : Fin 16) (gd ga gb : Fin 32) (kind n : BitVec 4) (try_ : Bool) (e0 : Nat),
    let c := s.core q
    let e := s.startEdge q
    let v := c.pair ga
    let u := permitUnits v
    (s.ready q (.permit gd ga gb kind) → v < 2 ^ 34 → coreKind kind.toNat = true → u.le s.limits = true → s.findEntry q kind.toNat = none →
      Does (.permit q gd ga gb kind) s (fun t => (t.core q).run = .blocked ∧ c.keepsBut (t.core q) [] ∧ (∃ r ∈ t.permits.queue,
        r.req = q.val ∧ r.kind = kind.toNat ∧ r.units = u ∧ r.arrival = e) ∧
        t = { s with now := t.now, cores := t.cores, permits := t.permits })) ∧
    (s.ready q (.permit gd ga gb kind) → v < 2 ^ 34 → coreKind kind.toNat = true → u.le s.limits = true → s.granted q kind.toNat = some e0 →
      Does (.permit q gd ga gb kind) s (fun t => s.computes t q gd 3 c.fz c.fn c.fc c.fv 2 1)) ∧
    (s.ready q (.release kind) → s.findEntry q kind.toNat = some e0 → Does (.release q kind) s (fun t => (t.entry e0).v = 0 ∧
      (∀ i, i ≠ e0 → t.entry i = s.entry i) ∧ c.keepsBut (t.core q) [] ∧ c.openGrp = (t.core q).openGrp)) ∧
    (s.ready q (.mbx gd 0 n (if try_ then 2 else 0)) → c.c2hFull = false → Does (.mbxSend q gd n try_) s (fun t =>
      (t.core q).c2hFull = true ∧ (t.core q).c2hCount = n.toNat ∧ (∀ i, i < 8 → i < n.toNat → (t.core q).c2h[i]? = some (c.rd (gd + i))) ∧
      (∀ i, i < 8 → n.toNat ≤ i → (t.core q).c2h[i]? = c.c2h[i]?) ∧ (t.core q).fz = false ∧ c.regsBut (t.core q) [] ∧
      (t.core q).edge = e + 64 * (2 + n.toNat))) ∧
    (s.ready q (.mbx gd ga 0 (if try_ then 3 else 1)) → c.h2cFull = true → gd.val + c.h2cCount ≤ 32 → c.h2cCount ≤ 8 → Does (.mbxReceive q gd ga try_) s (fun t =>
      s.onlyCore t q ∧ (t.core q).h2cFull = false ∧ (t.core q).fz = false ∧ (ga.val ≠ 0 → (t.core q).rd ga = BitVec.ofNat 32 c.h2cCount) ∧
      (∀ i, i < c.h2cCount → gd.val + i ≠ 0 → gd.val + i ≠ ga.val → some ((t.core q).rd (gd + i)) = c.h2c[i]?) ∧
      c.regsBut (t.core q) (ga.val :: (List.range c.h2cCount).map (fun i => gd + i)) ∧ c.wentOn e (2 + c.h2cCount) (c.pc + 1) (t.core q))) ∧
    (s.ready q (.mbx gd 0 n (if try_ then 6 else 4)) → (s.mslot (q + 1)).full = false → s.mgtServes = true → Does (.mbxMgtSend q gd n try_) s (fun t =>
      (t.mslot (q + 1)).full = true ∧ (t.mslot (q + 1)).valid = false ∧ ((t.mslot (q + 1)).req.take n.toNat) = c.rdN gd n.toNat ∧
      (t.core q).fz = false ∧ c.regsBut (t.core q) [] ∧ (t.core q).edge = e + 64 * (2 + n.toNat))) ∧
    (s.ready q (.mbx gd ga 0 (if try_ then 7 else 5)) → (s.mslot (q + 1)).valid = true → (s.mslot (q + 1)).ans.length = 8 → gd.val ≤ 24 →
      Does (.mbxMgtReceive q gd ga try_) s (fun t => (t.mslot (q + 1)).valid = false ∧ (t.core q).fz = false ∧ (ga.val ≠ 0 → (t.core q).rd ga = 8) ∧
        (∀ i, i < 8 → gd.val + i ≠ 0 → gd.val + i ≠ ga.val → (t.core q).rd (gd + i) = (s.mslot (q + 1)).ans.getD i 0) ∧
        (t.core q).edge = e + 64 * 10))

/-- From 02 R43; 12 R336: a free semaphore is taken; SEMTAKE of one that another core owns waits, SEMTRY of it reports Z = 1; of two cores that
ask for one in the same cycle the next after its last owner gets it, and the other waits or finds Z = 1; SEMGIVE frees it and the next
waiter after its last owner acquires it. -/
def Obligations.SemaphoreInstructions : Prop :=
  ∀ (s : State) (q : Fin 16) (n : BitVec 4) (w : Fin 16),
    let c := s.core q
    let e := s.startEdge q
    let x := s.sem n.toNat
    let owned := fun (t : State) => (t.sem n.toNat).owner = some q.val ∧ (∀ k, k ≠ n.toNat → t.sem k = s.sem k) ∧ c.regsBut (t.core q) [] ∧
      c.wentOn e 1 (c.pc + 1) (t.core q)
    let yields := fun (t : State) => if x.tried then (t.core w).fz = true ∧ (t.core w).waiting = (s.core w).waiting else
      (t.core w).run = .blocked ∧ (t.core w).waiting = some (.semtake n.toNat) ∧ (t.sem n.toNat).waiters = x.waiters ++ [w.val]
    (s.ready q (.semtake n) → x.owner = none → Does (.semtake q n) s (fun t => owned t ∧ c.sameFlags (t.core q))) ∧
    (s.ready q (.semtry n) → x.owner = none → Does (.semtry q n) s (fun t => owned t ∧ (t.core q).fz = false)) ∧
    (s.ready q (.semtake n) → x.owner = some w.val → w ≠ q → s.semRival n.toNat q e = none → Does (.semtake q n) s (fun t =>
      (t.sem n.toNat).owner = some w.val ∧ (t.sem n.toNat).waiters = x.waiters ++ [q.val] ∧ (t.core q).run = .blocked ∧
      (t.core q).waiting = some (.semtake n.toNat) ∧ c.keepsBut (t.core q) [])) ∧
    (s.ready q (.semtake n) → s.semRival n.toNat q e = some w → Does (.semtake q n) s (fun t => owned t ∧ c.sameFlags (t.core q) ∧ yields t)) ∧
    (s.ready q (.semtry n) → s.semRival n.toNat q e = some w → Does (.semtry q n) s (fun t => owned t ∧ (t.core q).fz = false ∧ yields t)) ∧
    (s.ready q (.semtry n) → x.owner = some w.val → w ≠ q → s.semRival n.toNat q e = none → Does (.semtry q n) s (fun t => t.sems = s.sems ∧ (t.core q).fz = true ∧
      c.regsBut (t.core q) [] ∧ c.wentOn e 1 (c.pc + 1) (t.core q))) ∧
    (s.ready q (.semgive n) → x.owner = some q.val → x.nextWaiter = none → Does (.semgive q n) s (fun t => (t.sem n.toNat).owner = none ∧
      (∀ k, k ≠ n.toNat → t.sem k = s.sem k) ∧ c.keepsBut (t.core q) [] ∧ c.wentOn e 1 (c.pc + 1) (t.core q))) ∧
    (s.ready q (.semgive n) → x.owner = some q.val → x.nextWaiter = some w.val → w ≠ q → Does (.semgive q n) s (fun t =>
      (t.sem n.toNat).owner = some w.val ∧ (t.sem n.toNat).waiters.contains w.val = false ∧ (t.core w).edge = e / 64 * 64 + 128 ∧
      (t.core w).waiting = none ∧ c.keepsBut (t.core q) [] ∧ c.wentOn e 1 (c.pc + 1) (t.core q)))


/-- From 02 R66, R67; 12 R314, R320 to R326, R332, R336: an instruction that faults halts its core as FAULTED with its cause, the PC and the detail,
before it retires: no register, no flag and no staged write changes.
Readings of the model that it rests on: log entry 45. -/
def Obligations.FaultingInstructionsHaltTheCore : Prop :=
  ∀ (s : State) (q : Fin 16) (gd ga : Fin 32) (imm : BitVec 15) (off : BitVec 13) (kind n : BitVec 4) (op : Op) (i : Instr) (j : Nat),
    let c := s.core q
    let a := c.rd ga + imm.signExtend 32
    let dcs := a &&& 0xFFFFFF
    let faults := fun (cause : Nat) (info : W32) (t : State) => (t.core q).run = .faulted ∧
      (t.core q).cause = pack [(0, cause), (8, c.pc.toNat % 4096)] ∧ (t.core q).info = info ∧ (t.core q).pc = c.pc ∧
      c.keepsBut (t.core q) [] ∧ (t.core q).openGrp = c.openGrp
    (s.ready q (.ldw gd ga imm) → access a.toNat 4 4 = none → Does (.ldw q gd ga imm) s (faults 0x03 a)) ∧
    (s.ready q (.stw gd ga imm) → access a.toNat 4 4 = none → Does (.stw q gd ga imm) s (faults 0x03 a)) ∧
    (s.ready q (.ldtw gd ga n) → access (c.rd ga).toNat 4 (8 * n.toNat) = some false → j < n.toNat →
      (∀ k < j, Mem.word c.dmem ((c.rd ga).toNat + 4 * (n.toNat + k)) = ~~~ Mem.word c.dmem ((c.rd ga).toNat + 4 * k)) →
      Mem.word c.dmem ((c.rd ga).toNat + 4 * (n.toNat + j)) ≠ ~~~ Mem.word c.dmem ((c.rd ga).toNat + 4 * j) →
      Does (.ldtw q gd ga n) s (faults 0x05 (c.rd ga + BitVec.ofNat 32 (4 * j)))) ∧
    (s.ready q (.dwr gd ga imm) → (dcs.toNat % 4 ≠ 0 ∨ 0x800000 ≤ dcs.toNat) → Does (.dwr q gd ga imm) s (faults 0x04 dcs)) ∧
    (s.ready q (.dwr gd ga imm) → dcs.toNat % 4 = 0 → dcs.toNat < 0x800000 → 256 ≤ c.openGrp.length → Does (.dwr q gd ga imm) s (faults 0x07 dcs)) ∧
    (s.ready q (.drd gd ga imm) → (dcs.toNat % 4 ≠ 0 ∨ 0x800000 ≤ dcs.toNat) → Does (.drd q gd ga imm) s (faults 0x04 dcs)) ∧
    (s.ready q (.call off) → c.stack.length = 16 → Does (.call q off) s (faults 0x0B 16)) ∧
    (s.ready q .ret → c.stack = [] → Does (.ret q) s (faults 0x0B 0)) ∧
    (s.ready q (.release kind) → s.findEntry q kind.toNat = none → Does (.release q kind) s (faults 0x0A (kind.setWidth 32))) ∧
    (s.ready q (.semgive n) → (s.sem n.toNat).owner ≠ some q.val → Does (.semgive q n) s (faults 0x09 (n.setWidth 32))) ∧
    (s.up → c.run = .running → i.op = some (q, op) → op.ok = false → c.pc.toNat + op.size ≤ 4096 → Does i s (faults 0x01 (op.words.headD 0))) ∧
    (s.up → c.run = .running → i.op = some (q, op) → 4096 ≤ c.pc.toNat → Does i s (faults 0x02 c.pc))

/-- From 02 R47, R48, R61; 12 R316, R325, R326, R328, R329, R334: the outstanding DRD writes what its address reads at its end; one that the watchdog
ends faults the core with the address of the DRD. How a waiting instruction ends: WAIT by an occurrence or its timeout, WAITT at its target, a
mailbox instruction by its mailbox, each with its flags, its registers and its retire edge.
Readings of the model that it rests on: log entries 9, 45. -/
def Obligations.OutstandingReadsAndWaitsEnd : Prop :=
  (∀ (s : State) (q : Fin 16) (d : Drd) (i x y : Nat),
      let c := s.core q
      (s.up → c.drds = [d] → s.drdExpiry q d = none → d.val = none → 0 < d.gd → d.gd < 32 → c.waiting = none → Does (.drdComplete q) s (fun t =>
        (t.core q).drds = [] ∧ (t.core q).rd d.gd = ((s.advance d.due).dcsRead q d.addr).1 ∧ c.regsBut (t.core q) [d.gd] ∧ c.sameFlags (t.core q))) ∧
      (s.up → s.drdNext q = some (i, d, x) → s.drdExpiry q d = some y → Does (.drdTimeout q) s (fun t => (t.core q).run = .faulted ∧
        (t.core q).cause = pack [(0, 8), (8, d.pc.toNat % 4096)] ∧ (t.core q).info = BitVec.ofNat 32 d.addr))) ∧
  (∀ (s : State) (q : Fin 16) (gd ga src start tmo x w k n : Nat) (low : W32) (missed : Bool),
      let c := s.core q
      let on := fun (e : Nat) (t : State) => (t.core q).waiting = none ∧ (t.core q).edge = e ∧ (t.core q).pc = c.pc + 1 ∧
        (c.stepping = false → (t.core q).run = .running)
      (s.up → c.waiting = some (.wait gd src start tmo (some (x, low))) → (tmo = 0 ∨ x < start + 64 * tmo) → gd < 32 →
        Does (.waitOccurrence q) s (fun t => on (x / 64 * 64 + 128) t ∧ (t.core q).fc = false ∧ (gd ≠ 0 → (t.core q).rd gd = low) ∧
          c.regsBut (t.core q) [gd] ∧ s.onlyCore t q)) ∧
      (s.up → c.waiting = some (.wait gd src start tmo none) → tmo ≠ 0 → c.waitTrap = false →
        Does (.waitTimeout q) s (fun t => on (start + 64 * tmo) t ∧ (t.core q).fc = true ∧ c.regsBut (t.core q) [] ∧ s.onlyCore t q)) ∧
      (s.up → c.waiting = some (.wait gd src start tmo none) → tmo ≠ 0 → c.waitTrap = true →
        Does (.waitTimeout q) s (fun t => (t.core q).run = .faulted ∧ (t.core q).info = BitVec.ofNat 32 src ∧ c.regsBut (t.core q) [])) ∧
      (s.up → c.waiting = some (.waitt k x missed) → c.waitTrap = false →
        Does (.waittReached q) s (fun t => on (x + 64) t ∧ (t.core q).fc = missed ∧ c.regsBut (t.core q) [] ∧ s.onlyCore t q)) ∧
      (s.up → c.waiting = some (.mbxSend gd n) → c.met = some w → c.c2hFull = false → Does (.mbxWaitDone q) s (fun t =>
        on (w / 64 * 64 + 64 + 64 * (2 + n)) t ∧ (t.core q).c2hFull = true ∧ (t.core q).c2hCount = n ∧ (t.core q).fz = false)) ∧
      (s.up → c.waiting = some (.mbxRecv gd ga) → c.met = some w → c.h2cFull = true → ga < 32 → Does (.mbxWaitDone q) s (fun t =>
        on (w / 64 * 64 + 64 + 64 * (2 + c.h2cCount)) t ∧ (t.core q).h2cFull = false ∧ (t.core q).fz = false ∧
        (ga ≠ 0 → (t.core q).rd ga = BitVec.ofNat 32 c.h2cCount))))

/-- From 02 R50 to R56, R58, R59: the life of a group up to its boundary: a slot that comes free closes a waiting COMMIT's group, a transfer's end
arms it, an occurrence makes an event group due at the next boundary, a deadline that passes rejects it with reason 6, and at its boundary
every due group completes, with its status among the core's last 16, and is held no longer; one that stages a register alone, with nothing
against it, is APPLIED, and the register holds its word.
Readings of the model that it rests on: log entry 18. -/
def Obligations.GroupsLiveAndComplete : Prop :=
  ∀ (s : State) (q : Fin 16) (gd b x w : Nat) (cond : GroupCond) (g : Group) (ticket v : W32),
    let c := s.core q
    let gone := fun (k : W32) (t : State) => (t.core q).groups.all (fun y => y.ticket != k) = true
    (s.up → c.waiting = some (.slot gd cond) → c.met = some w → c.groups.length < 8 → gd < 32 → Does (.commitSlotFree q) s (fun t =>
      s.onlyCore t q ∧ (t.core q).edge = w / 64 * 64 + 128 ∧ (t.core q).openGrp = [] ∧ (t.core q).ticket = c.ticket + 1 ∧
      (gd ≠ 0 → (t.core q).rd gd = c.ticket) ∧ (t.core q).waiting = none ∧
      ∃ y, (t.core q).groups = c.groups ++ [y] ∧ y.ticket = c.ticket ∧ y.writes = c.openGrp ∧ y.cond = cond ∧ y.armed = false)) ∧
    (s.up → c.groups.find? (fun y => !y.armed) = some g → Does (.groupTransferEnd q) s (fun t =>
      t = { s with now := t.now, cores := t.cores, nod := t.nod } ∧ s.othersKept t q ∧
      t.core q = { c with groups := c.groups.map (fun y => if y.ticket = g.ticket then { y with armed := true } else y) })) ∧
    (s.up → c.groups.find? (fun y => y.ticket == ticket) = some g → g.armed = true → g.seen = some b → g.due = none →
      Does (.commitevTriggered q ticket) s (fun t => t = { s with now := t.now, cores := t.cores, nod := t.nod } ∧ s.othersKept t q ∧
        t.core q = { c with groups := c.groups.map (fun y => if y.ticket = ticket then { y with due := some ((b / 128 + 1) * 128) } else y) })) ∧
    (s.up → c.groups.find? (fun y => y.ticket == ticket) = some g → g.expire = some x → g.seen = none → Does (.evExpired q ticket) s (fun t =>
      gone ticket t ∧ (t.core q).done.head? = some (ticket, groupStatus ticket 3 false 6))) ∧
    (s.up → s.nextDue = some b → g ∈ c.groups → g.due = some b → Does .commitApply s (fun t =>
      gone g.ticket t ∧ (c.groups.length ≤ 8 → (t.core q).done.any (fun d => d.1 == g.ticket) = true))) ∧
    (s.up → s.nextDue = some b → s.dueAt b = [(q, g)] → g.writes = [.reg R.nodLead v] → g.late = false → s.twinFails g = false →
      Does .commitApply s (fun t => (t.core q).done.head? = some (g.ticket, groupStatus g.ticket 1 false 0) ∧
        t.reg R.nodLead = s.merged R.nodLead v))

/-- From 02 R59, R61 to R63; 12 R338: what the bits of SEQ_CTRL do to a core in the state that they act on.
Readings of the model that it rests on: log entry 46. -/
def Obligations.HostControlsTheCores : Prop :=
  ∀ (s : State) (q : Fin 16) (w : W32) (cores sems : BitVec 16),
    let c := s.core q
    let pc : W32 := BitVec.ofNat 32 (w.toNat / 256 % 4096)
    let c1 := { c with waitTrap := w.getLsbD 5, startPc := BitVec.ofNat 12 (w.toNat / 256 % 4096) }
    (s.up → seqAction w = 0 → (c.run = .halted ∨ c.run = .faulted) → Does (.seqStart q w) s (fun t => s.onlyCore t q ∧ (t.core q).run = .running ∧
      (t.core q).pc = pc ∧ (t.core q).openGrp = [] ∧ (t.core q).groups = c.groups ∧ c.keepsBut (t.core q) [])) ∧
    (s.up → seqAction w = 1 → c.run = .halted → Does (.seqResume q w) s (fun t => s.onlyCore t q ∧
      t.core q = { c1 with run := .running, stepping := false })) ∧
    (s.up → seqAction w = 2 → c.run = .running → Does (.seqHaltReq q w) s (fun t => s.onlyCore t q ∧ c.keepsBut (t.core q) [] ∧
      (t.core q).pc = c.pc ∧ (t.core q).openGrp = c.openGrp ∧ (t.core q).run = (if c.drds = [] then .halted else .halting))) ∧
    (s.up → seqAction w = 3 → c.run = .halted → c.drds = [] → c.pc.toNat < 4095 →
      decodeOp (c.imemWord c.pc.toNat) (c.imemWord (c.pc.toNat + 1)) = some .nop → Does (.seqStep q w) s (fun t =>
        s.onlyCore t q ∧ c.keepsBut (t.core q) [] ∧ (t.core q).run = .halted ∧ (t.core q).pc = c.pc + 1)) ∧
    (s.up → seqAction w = 4 → c.run = .running → (∀ n < 16, (s.sem n).waiters.contains q.val = false) → Does (.coreReset q w) s (fun t =>
      (t.core q).run = .halted ∧ (t.core q).pc = pc ∧ (∀ k < 32, (t.core q).rd k = 0) ∧ (t.core q).fz = false ∧ (t.core q).fn = false ∧
      (t.core q).fc = false ∧ (t.core q).fv = false ∧ (t.core q).stack = [] ∧ (t.core q).openGrp = [] ∧ (t.core q).drds = [] ∧
      (t.core q).ticket = 0 ∧ (t.core q).imem = c.imem ∧ (t.core q).dmem = c.dmem ∧ ∀ n < 16, (t.sem n).owner ≠ some q.val)) ∧
    (s.up → c.run = .halting → c.drds = [] → Does (.seqHaltDone q) s (fun t => t = s.setCore q { c with run := .halted })) ∧
    (s.up → Does (.seqGroupStart cores) s (fun t => t = { s with cores := t.cores } ∧ ∀ p : Fin 16, t.core p =
      if cores.getLsbD p ∧ ((s.core p).run = .halted ∨ (s.core p).run = .faulted) then { s.core p with run := .running, stepping := false, pc := (s.core p).startPc.setWidth 32, openGrp := [], cause := 0, info := 0 } else s.core p)) ∧
    (s.up → (∀ n < 16, (s.sem n).waiters = []) → Does (.seqSemForce sems) s (fun t => t = { s with sems := t.sems } ∧
      ∀ n < 16, (t.sem n).owner = if sems.getLsbD n then none else (s.sem n).owner)) ∧
    (s.up → Does (.seqCommitCancel q) s (fun t => (t.core q).openGrp = [] ∧
      ∀ g ∈ c.groups, g.due = none → (t.core q).groups.all (fun y => y.ticket != g.ticket) = true))

/-- From 02 R60, R64, R65; 00 R11, R13; 22 R539: a host post fills an empty mailbox, an acknowledgement empties one, a word written to the window of a
halted core is in its IMEM, and a 1 written to EVT_STATUS clears its bit, unless an occurrence of this very cycle has set it, and nothing else.
Readings of the model that it rests on: log entries 44, 47. -/
def Obligations.HostWindowsAndRegisters : Prop :=
  ∀ (s : State) (q : Fin 16) (off : BitVec 16) (w : W32) (i : Fin 8),
    let c := s.core q
    (s.up → w.getLsbD 8 = true → c.h2cFull = false → 1 ≤ w.toNat % 16 → w.toNat % 16 ≤ 8 → Does (.seqH2cPost q w) s (fun t => s.onlyCore t q ∧
      (t.core q).h2cFull = true ∧ (t.core q).h2cCount = w.toNat % 16 ∧ (t.core q).h2c = c.h2c ∧ (t.core q).hostWrErr = c.hostWrErr ∧
      c.keepsBut (t.core q) [])) ∧
    (s.up → Does (.seqC2hAck q) s (fun t => s.onlyCore t q ∧ (t.core q).c2hFull = false ∧ c.keepsBut (t.core q) [])) ∧
    (s.up → (c.run = .halted ∨ c.run = .faulted) → off.toNat < 0x4000 → off.toNat % 4 = 0 → Does (.hostImemWrite q off w) s (fun t => s.onlyCore t q ∧
      Mem.word (t.core q).imem off.toNat = w ∧ (∀ a, (a < off.toNat ∨ off.toNat + 4 ≤ a) → Mem.byte (t.core q).imem a = Mem.byte c.imem a) ∧
      (t.core q).dmem = c.dmem)) ∧
    (s.up → Does (.registerWrite (BitVec.ofNat 32 (0x10000 + 4 * i)) w) s (fun t => t = { s with regs := t.regs } ∧
      t.reg (R.evtStatus i) = s.reg (R.evtStatus i) &&& ~~~ (w &&& ~~~ s.freshBits s.boundary (R.evtStatus i)) ∧ ∀ a, a ≠ R.evtStatus i → t.reg a = s.reg a))


/-- From 03 R73, R74, R76, R77, R87, R92, R100: the reference path: a lost reference is HOLDOVER, counted and raised; sixteen good periods of a
selected reference begin ACQUIRING, with slip_possible after a holdover that was too long or a change of source; lock is LOCKED, raised, and
lets a waiting Nodric follower measure; a follower that loses lane 0 enters HOLDOVER. The wrap of the Keystone count is one
change of it, to 0, at which KS_WRAP and not KS_ACTION is raised and the epoch steps.
Readings of the model that it rests on: log entry 29. -/
def Obligations.ReferencePathAndCountWrap : Prop :=
  (∀ (s : State), s.up →
      ((s.ref.state = .locked ∨ s.ref.state = .acquiring) → s.fresh s.boundary 0 → Does .refLost s (fun t =>
        t = { s.withEvents t with ref := t.ref } ∧ s.eventKept t 0 [] ∧ s.occurred t s.boundary 0 ∧
        t.refIs { s.ref with state := .holdover, present := false, slip := false, losses := min (s.ref.losses + 1) 0xFFFF, holdStart := s.now })) ∧
      ((s.ref.state = .free ∨ s.ref.state = .holdover) → s.refSel ≠ 3 → Does .refAcquire s (fun t => t = { s with ref := t.ref } ∧
        t.refIs { s.ref with state := .acquiring, present := true, slip := t.ref.slip
                             holdTicks := if s.ref.state = .holdover then s.now - s.ref.holdStart else s.ref.holdTicks } ∧
        (t.ref.slip = true ↔ s.ref.slip = true ∨ s.ref.changed = true ∨ (s.ref.state = .holdover ∧
          ((s.refSel = 0 ∧ 16000000000 < s.now - s.ref.holdStart) ∨ (s.refSel = 1 ∧ 4800000000 < s.now - s.ref.holdStart)))))) ∧
      (s.ref.state = .acquiring → s.fresh s.boundary 1 → Does .refLocked s (fun t =>
        t = { s.withEvents t with ref := t.ref, nod := t.nod } ∧ s.eventKept t 1 [] ∧ s.occurred t s.boundary 1 ∧
        t.refIs { s.ref with state := .locked, present := true, lockedSel := some s.refSel, changed := false } ∧
        t.nod = (if s.nod.waitRef then { s.nod with waitRef := false, state := 2, link0 := 2 } else s.nod))) ∧
      (s.nodRole = 2 → s.nod.state ≠ 0 → s.ref.state = .locked → s.fresh s.boundary 0 → s.fresh s.boundary 4 → Does (.nodLinkDown false) s (fun t =>
        s.occurred t s.boundary 0 ∧ s.occurred t s.boundary 4 ∧ t.ref.state = .holdover ∧ t.ref.present = false ∧ t.ref.holdStart = s.now ∧
        t.nod = { s.nod with state := 0, link0 := 0, lane0 := [], waitRef := false, pendingLoad := none, pendingZero := [] } ∧
        t.now = s.now ∧ t.ks = s.ks))) ∧
  (∀ (s : State), s.up → s.ks.held = false → (s.now + (2 ^ 64 - s.count)) % 128 = 0 →
      s.fresh (s.now + (2 ^ 64 - s.count)) 3 → Does .ksWrap s (fun t =>
        t.now = s.now + (2 ^ 64 - s.count) ∧ t.count = 0 ∧ s.occurred t t.now 3 ∧ t.reg (R.evtCount 2) = s.reg (R.evtCount 2) ∧
        t.rf R.ksEpoch 0 4 = (s.rf R.ksEpoch 0 4 + 1) % 16 ∧ t.reg64 R.ksLastNew = 0 ∧
        t = { s.withEvents t with now := t.now, ks := t.ks } ∧
        s.eventKept t 3 [R.ksEpoch, R.ksLastOld, R.ksLastOld + 4, R.ksLastNew, R.ksLastNew + 4]))

/-- From 03 R89, R90: PTM dialogs: one starts on PTM_CTRL.now or by the automatic period, or fails where configuration space does not enable
PTM; one that ends writes its results and steps seq, or sets err. -/
def Obligations.PtmDialogs : Prop :=
  ∀ (s : State) (master ticks : W64),
    (s.ticking → bit (s.reg R.ptmCtrl) 0 = true → s.ptm.cfgEnable = true → Does .ptmNow s (fun t =>
      t = { s with ptm := { s.ptm with dialog := true } })) ∧
    (s.ticking → bit (s.reg R.ptmCtrl) 0 = true → s.ptm.cfgEnable = false → Does .ptmNow s (fun t =>
      t = { s with regs := t.regs, evt := { s.evt with fresh := t.evt.fresh } } ∧ s.regsKept t [R.ptmStatus] ∧
      bit (t.reg R.ptmStatus) 17 = true)) ∧
    (s.up → s.ks.held = false → bit (s.reg R.ptmCtrl) 0 = true → bit (s.reg R.ptmCtrl) 2 = true → s.ptm.cfgEnable = true →
      Does .ptmAutoDialog s (fun t => t = { s with now := t.now, ptm := { s.ptm with dialog := true, lastAuto := t.now } } ∧
        t.now = max s.now (s.ptm.lastAuto + 2 ^ min (s.rf R.ptmCtrl 4 4) 10 * 80000000))) ∧
    (s.up → s.ptm.dialog = true → Does (.ptmDialogDone true master ticks) s (fun t =>
      t = { s with regs := t.regs, ptm := { s.ptm with dialog := false } } ∧ t.reg64 R.ptmMaster = master.toNat ∧
      t.reg (R.ptmKts 0) = loW ticks.toNat ∧ t.reg (R.ptmKts 1) = hiW ticks.toNat ∧
      t.rf R.ptmStatus 0 16 = (s.rf R.ptmStatus 0 16 + 1) % 65536 ∧ bit (t.reg R.ptmStatus) 16 = true ∧
      s.regsKept t [R.ptmStatus, R.ptmMaster, R.ptmMaster + 4, R.ptmKts 0, R.ptmKts 1, R.ptmKts 2])) ∧
    (s.up → s.ptm.dialog = true → Does (.ptmDialogDone false master ticks) s (fun t =>
      t = { s with regs := t.regs, ptm := { s.ptm with dialog := false }, evt := { s.evt with fresh := t.evt.fresh } } ∧ s.regsKept t [R.ptmStatus] ∧
      bit (t.reg R.ptmStatus) 17 = true ∧ t.rf R.ptmStatus 0 16 = s.rf R.ptmStatus 0 16))

/-- From 03 R91, R92, R94, R96, R100: how a Nodric link comes up: training, measuring (the latency to the root), the LOAD that the root
sends on the arm of a follower, which takes the next ID (the follower then counts, and NOD_LEAD covers it) and that a LINKED follower takes and
hands on, the count loaded at the boundary named, as one change where it is one, and a link that returns.
Readings of the model that it rests on: log entries 14, 29. -/
def Obligations.NodricAlignment : Prop :=
  ∀ (s : State) (lane upF : Bool) (rt up : W32) (id hops : BitVec 3) (lat ahead : W32) (b count : W64) (x k : Nat), s.up →
    let l := b2n lane
    let moved := fun (st : Nat) (t : State) => t.nodLink l = st ∧ t.nodLink (1 - l) = s.nodLink (1 - l) ∧
      t = { s with nod := { s.nod with state := max t.nod.link0 t.nod.link1, link0 := t.nod.link0, link1 := t.nod.link1 } }
    let adj := (BitVec.ofNat 16 (s.rf R.nodAsymAdj 0 16)).toInt / 2
    let nth := s.nod.ids.length + 1
    (s.nodRole = 1 → s.nodLink l = 1 → Does (.nodTrainingDone lane) s (moved 2)) ∧
    (s.nodRole = 2 → s.nod.link0 = 1 → s.refSel = 2 → s.ref.state ≠ .locked → Does (.nodTrainingDone false) s (fun t =>
      t = { s with ref := t.ref, nod := { s.nod with waitRef := true } } ∧ t.ref.state = .acquiring)) ∧
    (s.nodRole = 2 → s.nod.link0 = 1 → s.ref.state = .locked → Does (.nodTrainingDone false) s (fun t =>
      t = { s with nod := { s.nod with state := 2, link0 := 2 } })) ∧
    (s.nodRole = 1 → s.nodLink l = 2 → Does (.nodMeasureDone lane rt up upF id hops false) s (moved 3)) ∧
    (s.nodRole = 2 → s.nod.link0 = 2 → Does (.nodMeasureDone false rt up upF id hops false) s (fun t =>
      t = { s with regs := t.regs, nod := { s.nod with state := 3, link0 := 3, id := id.toNat, hops := hops.toNat } } ∧ s.regsKept t [R.nodLat] ∧
      t.reg R.nodLat = BitVec.ofInt 32 ((up.toNat + (if upF then 2048 * 16 else 0) + rt.toNat / 2 : Nat) + adj))) ∧
    (s.nodRole = 2 → s.nod.link0 = 2 → Does (.nodMeasureDone false rt up upF id hops true) s (fun t => t = { s with nod := { s.nod with state := 5 } })) ∧
    (s.nodRole = 1 → s.nodDown.contains l = true → s.actionHeld = false → nth ≤ 7 → Does (.nodLoadSend lane 0 lat b) s (fun t =>
      t = { s with regs := t.regs, nod := t.nod } ∧ s.regsKept t [R.nodLead] ∧ t.nod.state = s.nod.state ∧ t.nod.ids = s.nod.ids ++ [lane] ∧
      t.nod.followers = (nth, lat.toNat) :: s.nod.followers.filter (fun f => f.1 ≠ nth) ∧
      t.nod.sent = (l, .load (alignUp b.toNat 128) (alignUp b.toNat 128)) :: s.nod.sent ∧
      (s.nod.followers = [] → t.reg R.nodLead = BitVec.ofNat 32 (alignUp (ceilDiv lat.toNat 16 + 1024) 128)))) ∧
    (s.nodRole = 2 → s.nod.state = 3 → Does (.nodLoad ahead count 7) s (fun t =>
      t = { s with regs := t.regs, nod := { s.nod with
        pendingLoad := some (alignUp (s.now + ahead.toNat) 128, count.toNat), sent := s.handed (.load count.toNat count.toNat) } } ∧ s.regsKept t [])) ∧
    (s.nodRole = 2 → s.nod.state = 4 → Does (.nodLoad ahead count 7) s (fun t =>
      t = { s with regs := t.regs, nod := { s.nod with sent := s.handed (.load count.toNat count.toNat) } } ∧ s.regsKept t [])) ∧
    (s.nod.pendingLoad = some (x, k) → s.now ≤ x → x % 128 = 0 → k < 2 ^ 64 → s.ks.held = false → s.fresh x 2 → s.countAt x ≠ k → Does .nodAlign s (fun t =>
      t.now = x ∧ t.count = k ∧ t.nod.state = 4 ∧ t.nod.pendingLoad = none ∧ s.occurred t x 2 ∧
      t.rf R.ksEpoch 0 4 = (s.rf R.ksEpoch 0 4 + 1) % 16)) ∧
    (s.nod.pendingLoad = some (x, k) → s.now ≤ x → x % 128 = 0 → s.ks.held = false → s.countAt x = k → Does .nodAlign s (fun t =>
      t = { s with now := x, ref := t.ref, nod := { s.nod with state := 4, pendingLoad := none } })) ∧
    (s.nodRole = 2 → s.nod.link0 = 0 → Does (.nodLinkReturn false) s (fun t => t = { s with nod := { s.nod with state := 1, link0 := 1 } })) ∧
    (s.nodRole = 1 → s.nodArms.contains l = true → s.nodLink l = 0 → Does (.nodLinkReturn lane) s (moved 1))

/-- From 03 R85, R86, R94, R97 to R100: the marks of Nodric on a follower and on the root: a ZERO mark is handed on, and in time waits for its
boundary, where all the marks that fall there act as one change; one that is late acts 256 ticks after it came, with the root's count; a mark
with three bad copies is lost and leaves ALIGNED; RATE marks are sent, handed on and compared.
Readings of the model that it rests on: log entries 14, 17, 29. -/
def Obligations.NodricMarks : Prop :=
  ∀ (s : State) (isZero up : Bool) (o : W32) (b count : W64) (a : NodAction) (d : Nat), s.up →
    let at_ := s.elapsedOf b.toNat
    let waits := fun (due : Nat) (late : Bool) (t : State) => s.regsKept t [] ∧ t = { s with regs := t.regs, nod := { s.nod with
      pendingZero := s.nod.pendingZero ++ [{ isZero := isZero, o := o, b := b.toNat, at_ := at_, due := due, late := late }],
      sent := s.handed (.zero isZero o b.toNat) } }
    let now_ := s.nod.pendingZero.filter (fun a => a.due == d)
    (s.nodRole = 2 → s.nod.state = 4 → s.count + 256 ≤ b.toNat → Does (.nodZero isZero o b 7) s (waits at_ false)) ∧
    (s.nodRole = 2 → s.nod.state = 4 → b.toNat < s.count + 256 → Does (.nodZero isZero o b 7) s (waits (alignUp (s.now + 256) 128) true)) ∧
    (s.nodRole = 2 → s.nod.state = 4 → s.fresh s.boundary 5 → Does (.nodZero isZero o b 0) s (fun t => t.nod = { s.nod with state := 3 } ∧
      s.occurred t s.boundary 5 ∧ t.reg R.nodMsgErr = satInc (s.reg R.nodMsgErr) 3 ∧ bit (t.reg R.evtNodCause) 0 = true ∧
      s.eventKept t 5 [R.nodMsgErr, R.evtNodCause])) ∧
    (s.zeroDue = some d → s.ks.held = false → s.now ≤ d → d % 128 = 0 → (∀ a ∈ now_, a.late = false) → s.fresh d 2 →
      Does .nodZeroBoundary s (fun t => t.now = d ∧ t.nod = { s.nod with pendingZero := s.nod.pendingZero.filter (fun a => a.due != d) } ∧ s.occurred t d 2 ∧
        (t.count : Int) = (now_.foldl (fun (c : Int) a => if a.isZero then 0 else c + a.o.toInt * 128) (s.countAt d : Int)) % 2 ^ 64 ∧
        t.reg64 R.ksLastOld = s.countAt d ∧ t.reg64 R.ksLastNew = t.count ∧ t.rf R.ksEpoch 0 4 = (s.rf R.ksEpoch 0 4 + 1) % 16)) ∧
    (s.nod.pendingZero = [a] → s.ks.held = false → s.now ≤ a.due → a.due % 128 = 0 → a.late = true → a.isZero = true → a.at_ ≤ a.due → a.due < 2 ^ 64 →
      s.fresh a.due 2 → s.fresh a.due 5 → Does .nodZeroBoundary s (fun t => t.now = a.due ∧ t.count = a.due - a.at_ ∧ t.nod.pendingZero = [] ∧
        s.occurred t a.due 2 ∧ s.occurred t a.due 5 ∧ bit (t.reg R.evtNodCause) 1 = true)) ∧
    (s.nodRole = 2 → s.nod.state = 4 → 16 * s.count = 16 * count.toNat + (s.reg R.nodLat).toNat → Does (.nodRate count up 7) s (fun t =>
      t = { s with regs := t.regs, ref := t.ref, nod := { s.nod with upUnlocked := up, sent := s.handed (.rate count.toNat up) } } ∧ t.refIs s.ref ∧
      s.regsKept t [])) ∧
    (s.nodRole = 2 → s.nod.state = 4 → bit (s.reg R.nodCtrl) 3 = false → 16 * count.toNat + (s.reg R.nodLat).toNat + 16 < 16 * s.count →
      s.fresh s.boundary 5 → Does (.nodRate count up 7) s (fun t => t.nod = { s.nod with state := 3, upUnlocked := up, sent := s.handed (.rate count.toNat up) } ∧
        s.occurred t s.boundary 5 ∧ bit (t.reg R.evtNodCause) 2 = true ∧ t.count = s.count)) ∧
    (s.nodRole = 1 → s.ks.held = false → Does .nodRateSend s (fun t => s.now < t.now ∧ t.now ≤ s.now + 0x800000 ∧ t.count % 0x800000 = 0 ∧
      t = { s with now := t.now, nod := { s.nod with sent := s.handed (.rate t.count (decide (s.ref.state ≠ .locked))) } }))

/-- From 04 R105, R114, R116 to R120, R122: a limit code flags its vector, is counted and raised when the vector has reached the logic die, and marks
the other signals of its bay NBR; a sample of an empty slot carries both flags; a lane error of a resting slice is counted and kept with its
lane, one of an active slice flags its vector; the sixteenth retires the slice at the next vector boundary, and its load falls; a settle window
ends; a readmitted slice takes the lowest empty slot.
Readings of the model that it rests on: log entries 19, 21. -/
def Obligations.SamplesAndSlices : Prop :=
  ∀ (s : State) (n : Fin 8) (slice : Fin 24) (hi : Bool) (tk : W64) (x i : Nat), s.up → s.ks.held = false →
    let own := slice.val / 3
    let h := s.headOf own
    let y := s.slice slice
    let e := s.elapsedOf tk.toNat
    let v := e / 128
    let slot := (s.inp n).slots.getD (slotOf (s.period n) (s.inp n).slots.length e) none
    let tables := ∀ k, k < 24 → s.tableFails k = false
    let alone := ∀ m : Fin 8, m ≠ n → (s.inp m).running = false
    let sampled := (s.inp n).running = true ∧ e % s.period n = 0 ∧ s.now ≤ e ∧ s.inSettle n e = false
    let flagged := fun (f : Nat) (t : State) => t = { s.withEvents t with now := e, conv := { s.conv with flags := t.conv.flags } } ∧
      s.eventKept t (16 + 4 * n) [R.convOvrCount n] ∧ s.occurred t (v * 128 + 512) (16 + 4 * n) ∧
      t.reg (R.convOvrCount n) = satInc (s.reg (R.convOvrCount n)) 1 ∧ Assoc.get 0 t.conv.flags (n + 8 * v) = f
    let first := Assoc.get 0 s.conv.flags (n + 8 * v) = 0 ∧ s.fresh (v * 128 + 512) (16 + 4 * n) ∧ s.present (R.convOvrCount n)
    (sampled → slot ≠ none → alone → (e + 12) / 128 = v → first → Does (.convOvr n hi tk) s (flagged (if hi then 1 else 2))) ∧
    (sampled → slot = none → first → Does (.convOvr n hi tk) s (flagged 3)) ∧
    (sampled → slot ≠ none → Does (.convOvr n hi tk) s (fun t => ∀ m : Fin 8, m ≠ n → m.val / 4 = n.val / 4 → (s.inp m).running = true →
      (Assoc.get 0 t.conv.flags (m + 8 * v)).testBit 2 = true)) ∧
    (y.powered = true → (s.inp h).running = true → s.now ≤ e → s.inSettle h e = false →
      (s.inp h).slots.contains (some slice.val) = false → s.present (R.convLaneErr own) → Does (.laneError slice tk) s (fun t =>
        t = { s with now := e, regs := t.regs, conv := t.conv } ∧ s.regsKept t [R.convLaneErr own] ∧
        t.reg (R.convLaneErr own) = satInc (s.reg (R.convLaneErr own)) 1 ∧ (t.slice slice).errs.head? = some e ∧ (t.slice slice).errs.length ≤ 16 ∧
        (t.slice slice).lane = tk.toNat / 8 % 32 ∧ ∀ k, k ≠ slice.val → t.slice k = s.slice k)) ∧
    (y.powered = true → (s.inp h).running = true → s.now ≤ e → s.inSettle h e = false →
      (s.inp h).slots.contains (some slice.val) = true → Does (.laneError slice tk) s (fun t =>
        Assoc.get 0 t.conv.flags (h + 8 * v) % 4 = 3 ∧ (t.slice slice).errs.head? = some e ∧ (t.slice slice).lane = tk.toNat / 8 % 32)) ∧
    (y.powered = true → y.errs.length = 16 → (s.inp h).window = none → tables → s.fresh s.boundary (17 + 4 * own) →
      s.present (R.convFaultInfo own) → Does (.sliceFault slice) s (fun t => t.now = boundaryAfter s.now ∧
        t = { s.withEvents t with now := t.now, conv := t.conv, permits := t.permits } ∧ s.eventKept t (17 + 4 * own) [R.convFaultInfo own] ∧
        s.occurred t s.boundary (17 + 4 * own) ∧ t.reg (R.convFaultInfo own) = pack [(0, slice.val % 3), (2, y.lane), (7, 1)] ∧
        (t.slice slice).faulted = true ∧ (t.slice slice).powered = false ∧ (t.slice slice).errs = [] ∧
        t.permits.load = s.permits.load.sub sliceUnits ∧ t.permits.ballast = s.permits.ballast + 3)) ∧
    ((s.inp n).settling = true → Does (.settleEnd n) s (fun t => t = { s with now := max s.now (s.inp n).settleEnd, conv := t.conv } ∧
      t.inp n = { s.inp n with settling := false } ∧ (∀ m : Fin 8, m ≠ n → t.inp m = s.inp m) ∧ t.conv.slices = s.conv.slices ∧ t.conv.flags = s.conv.flags)) ∧
    (y.joinAt = some x → (s.inp h).slots.findIdx? (· == none) = some i → tables → Does (.sliceRejoin slice) s (fun t =>
      t = { s with now := max s.now x, conv := t.conv } ∧ (t.inp h).slots = modAt (s.inp h).slots i (fun _ => some slice.val) ∧
      (t.slice slice).joinAt = none ∧ (t.slice slice).since = x ∧ ∀ k, k ≠ slice.val → t.slice k = s.slice k)) ∧
    (y.joinAt = some x → (s.inp h).slots.findIdx? (· == none) = none → Does (.sliceRejoin slice) s (fun t =>
      t = { s with now := max s.now x, conv := t.conv } ∧ t.conv.inputs = s.conv.inputs ∧ (t.slice slice).joinAt = none))

/-- From 05 R129 to R135, R138, R142: a scheduled rotation opens its shadow window or is skipped; at its end the incoming slice takes the slot
and is reported; a residual of the window's admitted pairs above the limit cancels it; a rotation on request takes a granted permit or is
denied.
Readings of the model that it rests on: log entry 21. -/
def Obligations.RotationsTurnTheSlices : Prop :=
  ∀ (s : State) (n : Fin 8) (a b j e : Nat) (w : Shadow) (pairs : List (BitVec 12 × BitVec 12)) (bad : BitVec 24), s.up → s.ks.held = false →
    let x := s.inp n
    let sums := Sums.of (s.admitted n w pairs)
    let at_ := s.now ≤ w.rot ∧ w.rot % 128 = 0 ∧ w.forced = false ∧ x.rn ≠ 3 ∧ s.present (R.calSkipCount n) ∧ s.present (R.calRotCount n) ∧
      s.present (R.calAlertInfo n)
    (x.running = true → s.underFg n = false → bit (s.reg (R.calCtrl n)) 5 = true → s.incoming n = some a → s.outgoing n = some b →
      x.slots.contains none = false → 32768 ≤ x.next → x.settleEnd + 32768 ≤ x.next → x.window = none → Does (.shadowWindowOpen n) s (fun t =>
        t = { s with now := max s.now (x.next - 32768), conv := t.conv } ∧
        t.inp n = { x with next := x.next + s.rotInterval n, window := some { inc := a, out := b, rot := x.next, forced := false } } ∧
        ∀ m : Fin 8, m ≠ n → t.inp m = s.inp m)) ∧
    (x.running = true → s.underFg n = false → bit (s.reg (R.calCtrl n)) 5 = true → s.incoming n = none → s.present (R.calSkipCount n) →
      Does (.shadowWindowOpen n) s (fun t => t = { s with now := t.now, regs := t.regs, conv := t.conv } ∧ s.regsKept t [R.calSkipCount n] ∧
        t.reg (R.calSkipCount n) = satInc (s.reg (R.calSkipCount n)) 1 ∧ t.inp n = { x with next := x.next + s.rotInterval n })) ∧
    (x.window = some w → at_ → sums.offQ = true → sums.over (4 * s.rf (R.calLimits n) 24 8 : Nat) = true → s.fresh w.rot (19 + 4 * n) →
      Does (.calRotation n pairs bad) s (fun t => t.now = w.rot ∧ t.inp n = { x with window := none } ∧
        s.occurred t w.rot (19 + 4 * n) ∧ t.reg (R.calAlertInfo n) = pack [(0, 2), (3, w.inc), (8, 1)] ∧
        t.reg (R.calSkipCount n) = satInc (s.reg (R.calSkipCount n)) 1 ∧ t.conv.slices = s.conv.slices ∧
        t.reg (R.calRotCount n) = s.reg (R.calRotCount n))) ∧
    (x.window = some w → at_ → sums.offQ = false → bit (s.reg (R.calCtrl n)) 6 = false → s.headOf (w.inc / 3) = n.val →
      (∀ k, k < 24 → s.tableFails k = false) → w.inc < 24 → (s.slice w.inc).faulted = false → w.inc ≠ w.out →
      x.slots.findIdx? (· == some w.out) = some j → s.fresh w.rot (18 + 4 * n) → s.present (R.calLastRot n) →
      Does (.calRotation n pairs bad) s (fun t => t.now = w.rot ∧
        t.inp n = { x with window := none, slots := modAt x.slots j (fun _ => some w.inc), eras := (t.inp n).eras } ∧ s.occurred t w.rot (18 + 4 * n) ∧
        t.reg (R.calRotCount n) = satInc (s.reg (R.calRotCount n)) 1 ∧ t.reg64 (R.calLastRot n) = s.countAt w.rot ∧
        s.eventKept t (18 + 4 * n) [R.calLastRot n, R.calLastRot n + 4, R.calRotCount n] ∧ (t.slice w.inc).since = w.rot ∧
        ∀ k, k ≠ w.inc → k ≠ w.out → t.slice k = s.slice k)) ∧
    (s.granted (20 + n) 10 = some e → x.rn = 1 → x.running = true → s.underFg n = false → x.window = none → s.incoming n = some a → s.outgoing n = some b →
      Does (.forcedWindowOpen n) s (fun t => t.now = boundaryAfter s.now ∧ (t.inp n).rn = 3 ∧
        (t.inp n).window = some { inc := a, out := b, rot := boundaryAfter s.now + 32768, forced := true })) ∧
    (s.findEntry (20 + n) 10 = none → x.rn = 1 → s.fresh (alignUp (max s.now x.rnEnd) 128) (19 + 4 * n) → s.present (R.calAlertInfo n) →
      Does (.rotateNowDenied n) s (fun t => t.now = max s.now x.rnEnd ∧ t.inp n = { x with rn := 5 } ∧
        s.occurred t (alignUp t.now 128) (19 + 4 * n) ∧ t.reg (R.calAlertInfo n) = pack [(0, 6), (3, 0), (8, 1)] ∧
        t.permits.queue = s.permits.queue.filter (fun r => ¬ (r.req = 20 + n.val ∧ r.kind = 10))))

/-- From 05 R126 to R128, R136, R137: the estimates that calibration keeps of a slice, a skew estimate from enough samples alone, and the check of
the tables in force: a current table that fails gives way to the previous one from the next vector boundary, which is counted; good tables
change nothing.
Readings of the model that it rests on: log entry 21. -/
def Obligations.TablesAndEstimates : Prop :=
  ∀ (s : State) (slice : Fin 24) (count off gain tone flip : W32) (dot sq : W64), s.up → s.ks.held = false →
    let x := s.slice slice
    let h := s.headOf (slice.val / 3)
    let f := s.fs h
    let est : Int × Int := (dot.toInt * (1250 * s.period h : Nat), (sq.toNat : Int))
    let b := alignUp (max x.since x.readyAt) 128
    let k := alignUp s.now 131072
    ((s.inp h).running = true → (s.inp h).slots.contains (some slice.val) = true → s.underFg h = false → s.present (R.calLastEst h 2) →
      65536 ≤ count.toNat → 65536 * count.toNat ≤ sq.toNat → Does (.skewEstimateDone slice count dot sq) s (fun t =>
        t = { s with regs := t.regs, conv := t.conv } ∧ s.regsKept t [R.calLastEst h 2] ∧ t.slice slice = { x with skewEst := some est } ∧
        ((∀ m, (s.inp h).slots.contains (some m) = true → (s.slice m).meas = none) →
          t.reg (R.calLastEst h 2) = BitVec.ofInt 32 ((2 * est.1 + est.2) / (2 * est.2))) ∧
        ∀ m, m ≠ slice.val → t.slice m = s.slice m)) ∧
    ((count.toNat < 65536 ∨ sq.toNat < 65536 * count.toNat) → Does (.skewEstimateDone slice count dot sq) s (fun t => t = s)) ∧
    ((s.inp h).running = true → bit (s.reg (R.calCtrl h)) 7 = true → (bit (s.reg (R.calCtrl h)) 5 = false ∨ b + 61440 ≤ (s.inp h).next - 32768) →
      (s.resting h).contains slice.val = true → x.refPhase = 0 → (s.inp h).window = none → s.underFg h = false → s.now ≤ b →
      Does (.refMeasureStart slice) s (fun t =>
        t = { s with now := b, conv := t.conv } ∧ t.slice slice = { x with refPhase := 1, refStart := b } ∧ ∀ m, m ≠ slice.val → t.slice m = s.slice m)) ∧
    (x.refPhase = 1 → Does (.refMeasureDone slice off gain tone) s (fun t => t = { s with now := max s.now (x.refStart + 61440), conv := t.conv } ∧
      t.slice slice = { x with refPhase := 2, meas := some (off.toInt, gain.toInt, tone.toInt) } ∧ ∀ m, m ≠ slice.val → t.slice m = s.slice m)) ∧
    ((∀ m, m < 24 → s.serving m = true → s.tableFails m = false) → Does (.tableTwinCheck slice 0 0) s (fun t => t = { s with now := k })) ∧
    ((∀ m, m < 24 → m ≠ slice.val → s.serving m = false) → s.serving slice = true → x.tables.length = 4 → flip ≠ 0 →
      tableOk (x.table f 0) = true → tableOk (x.table f 1) = true → s.present (R.calFallbackCount h) → s.present (R.calAlertInfo h) →
      s.fresh k 11 → s.fresh k (19 + 4 * h) → Does (.tableTwinCheck slice flip 0) s (fun t => t.now = k + 128 ∧
        (t.slice slice).table f 0 = x.table f 1 ∧ (t.slice slice).faulted = x.faulted ∧
        t.reg (R.calFallbackCount h) = satInc (s.reg (R.calFallbackCount h)) 1 ∧ t.reg (R.calAlertInfo h) = pack [(0, 3), (3, slice.val), (8, 1)] ∧
        s.occurred t k 11 ∧ s.occurred t k (19 + 4 * h)))

/-- From 06 R153 to R157, R173 to R177, R180: a vector's saturated outputs are counted by stage, in decimating form those that the decimator keeps, and
reported when the vector has left the stage; a tone block that ends is delivered with its magnitude, phase and state, counted, and raised on
a rise of the tone that asks for it.
Readings of the model that it rests on: log entries 7, 19, 22. -/
def Obligations.ChannelsCountAndDeliver : Prop :=
  (∀ (s : State) (n : Fin 8) (tk : W64) (x : Samples) (e : Era), s.up →
    let v := s.elapsedOf tk.toNat / 128
    let u := s.advance (v * 128)
    let q := u.path n (v * 128) e.period x
    let own := (List.range (128 / e.period)).map (fun i => v * (128 / e.period) + i)
    let kept := if e.decim then own.filter (fun i => decide (e.anchor ≤ i) && (i - e.anchor) % e.ratio == 0) else own
    let k := own.countP (fun i => (q.corrected i).2)
    let f := kept.countP (fun i => (q.fir i).2)
    let b2 := u.boundaryFrom (v * 128 + 1119)
    let b3 := u.boundaryFrom (v * 128 + 3167)
    let here := (s.inp n).eraAt (v * 128) = some e ∧ e.period ≠ 0 ∧ s.present (R.chSatCorr n) ∧ s.present (R.chSatFir n) ∧ s.present (R.chAlertInfo n)
    (here → k = 0 → f = 0 → Does (.chSat n tk x) s (fun t => t = u)) ∧
    (here → k ≠ 0 → f = 0 → s.headOf n = n.val → s.fresh b2 (64 + n) → Does (.chSat n tk x) s (fun t =>
      t = { s.withEvents t with now := u.now } ∧ s.eventKept t (64 + n) [R.chSatCorr n, R.chAlertInfo n] ∧ s.occurred t b2 (64 + n) ∧
      t.reg (R.chSatCorr n) = satInc (s.reg (R.chSatCorr n)) k ∧ t.reg (R.chAlertInfo n) = pack [(0, 2), (3, 1)])) ∧
    (here → k = 0 → f ≠ 0 → s.headOf n = n.val → s.fresh b3 (64 + n) → Does (.chSat n tk x) s (fun t =>
      t = { s.withEvents t with now := u.now } ∧ s.eventKept t (64 + n) [R.chSatFir n, R.chAlertInfo n] ∧ s.occurred t b3 (64 + n) ∧
      t.reg (R.chSatFir n) = satInc (s.reg (R.chSatFir n)) f ∧ t.reg (R.chAlertInfo n) = pack [(0, 3), (3, 1)])) ∧
    (here → k ≠ 0 → f ≠ 0 → Does (.chSat n tk x) s (fun t =>
      t.reg (R.chSatCorr n) = satInc (s.reg (R.chSatCorr n)) k ∧ t.reg (R.chSatFir n) = satInc (s.reg (R.chSatFir n)) f ∧
      t.reg (R.chAlertInfo n) = pack [(0, 3), (3, 1)]))) ∧
  (∀ (s : State) (n : Fin 8) (x : Samples) (mag : W64) (phase : BitVec 16) (r : ToneRun), s.up →
    let c := s.chan n
    let t0 := r.anchor + r.block * r.ticks
    let tl := t0 + r.ticks - r.period
    let b := alignUp (tl + 3552) 128
    let u := s.advance b
    let us := (u.path n t0 r.period x).toneBlock r (t0 / max 1 r.period)
    let d := toneMag us r.freq.toNat
    let raw := toneMagOf d mag.toNat
    let m := min raw (2 ^ 48 - 1)
    let p := tonePhaseOf us r.freq.toNat d phase.toNat
    let ovr := decide (s.tapFlags n t0 tl ≠ 0)
    let thr := (((s.inp n).eraAt tl).map (fun e => (e.thrHi, e.thrLo))).getD (0, 0)
    let ab := toneAbove r.above m thr.1 thr.2
    (c.toneRun = some r → s.ks.held = false → s.now ≤ b → s.trig.items = [] → s.trig.cands = [] → s.present (R.toneBlkCount n) →
      (∀ k, k < 16 → s.cellOn k = true → s.cellKind k ≠ 1) → s.fresh b (72 + n) → Does (.toneBlockDeliver n x mag phase) s (fun t =>
        t = { s.withEvents t with now := b, chans := t.chans, trig := { s.trig with tick := b } } ∧
        t.reg (R.toneBlkCount n) = satInc (s.reg (R.toneBlkCount n)) 1 ∧
        t.chan n = { c.toneStep { r with block := r.block + 1, above := ab } with
          mag := BitVec.ofNat 64 m, start := BitVec.ofNat 64 (s.countAt t0)
          info := pack [(0, p), (16, b2n ab), (17, b2n ovr), (18, b2n (decide (2 ^ 48 ≤ raw))), (19, 1)] } ∧
        (r.above = false → ab = true → bit r.ctrl 6 = true → s.occurred t b (72 + n)) ∧
        (r.above = ab → t.evt = s.evt))))

/-- From 07 R182 to R194, R198, R582, R583: a cell takes its first value without a fire; an EDGE cell fires when its level rises, at the straight
line's crossing when only one earlier sample stands; a sample in a settle vector is not evaluated; TIMEOUT and WINDOW cells fire at their times; an ARMED sequence's window ends.
Readings of the model that it rests on: log entries 23, 24. -/
def Obligations.CellsFire : Prop :=
  ∀ (s : State) (c : Fin 16) (p : Fin 4) (tk : W64) (x : Samples) (t0 t1 : Nat) (b : Int) (i enter : Bool), s.up → s.ks.held = false →
    let n := s.cellHead c
    let e := s.elapsedOf tk.toNat
    let k := s.cell c
    let u := s.levelU c
    let live := s.cellOn c = true ∧ s.cellInvalid c = false ∧ s.now ≤ e ∧ s.trig.tick = e
    let stream := s.cellKind c = 0 ∧ (s.inp n).running = true ∧ s.headOf n = n ∧ s.inSettle n e = false ∧ s.passedSettle c e = false
    let sampled := e % s.period n = 0
    let v := ((s.advance e).path n e (s.period n) x).tapped (e / s.period n)
    let fires := fun (at_ : Nat) (t : State) => t.reg (R.tcFireCount c) = satInc (s.reg (R.tcFireCount c)) 1 ∧
      (∃ y ∈ t.trig.items, y.cell = c.val ∧ y.fire = true ∧ y.kts.at_ = at_) ∧ s.regsKept t [R.tcFireCount c] ∧
      t = { s with now := e, regs := t.regs, trig := { s.trig with cells := t.trig.cells, items := t.trig.items } }
    let due := t0 + s.reg64 (R.tcT1 c) * 65536
    (s.inSettle n e = true → Does (.tcFire c tk x) s (fun t => t = s)) ∧
    (live → stream → sampled → k.started = false → Does (.tcFire c tk x) s (fun t => (t.cell c).started = true ∧ (t.cell c).qU = decide (u ≤ v) ∧
      (t.cell c).qLo = decide (s.levelLo c ≤ v) ∧ t.regs = s.regs ∧ (∀ y ∈ t.trig.items, y ∈ s.trig.items ∨ y.fire = false) ∧
      ∀ j : Fin 16, j ≠ c → t.cell j = s.cell j)) ∧
    (live → stream → sampled → s.cellType c = 0 → s.cellSlope c = 0 → bit (s.reg (R.tcCtrl c)) 24 = false → k.started = true → k.rU = true → k.wait = none →
      k.prev = [(t1, b, i)] → b < u → u ≤ v → Does (.tcFire c tk x) s (fun t => (t.cell c).qU = true ∧
        fires (t1 * 65536 + (2 * ((u - b).natAbs * (s.period n * 65536)) + (v - b).natAbs) / (2 * (v - b).natAbs)) t)) ∧
    (live → stream → s.cellType c = 5 → bit (s.reg (R.tcCtrl c)) 24 = false → k.openP = some (t0, i) → k.openN = none → due ≤ e * 65536 →
      Does (.tcTimeoutExpire c tk) s (fun t => t.cell c = { k with openP := none } ∧ fires due t)) ∧
    (live → stream → s.cellType c = 3 → s.cellSlope c = 2 → bit (s.reg (R.tcCtrl c)) 24 = false → k.wait = some (t0, enter, i) → due ≤ e * 65536 →
      Does (.tcWindowWaitExpire c tk) s (fun t => t.cell c = { k with wait := none } ∧ fires due t)) ∧
    (bit (s.reg (R.tpCtrl p)) 0 = true → bit (s.reg (R.tpCtrl p)) 1 = true → bit (s.reg (R.tpCtrl p)) 3 = false → (s.prog p).armed = true →
      (s.prog p).ended = none → s.trig.items = [] → s.trig.cands = [] → Does (.tpSeqWindowEnd p) s (fun t =>
        let stop := (s.prog p).tA + s.reg64 (R.tpSeqWin p) * 65536
        t.prog p = { s.prog p with ended := some stop } ∧ t.now = max s.now (stop / 65536 + 1) ∧ t = { s with now := t.now, trig := t.trig } ∧
        t.trig.cells = s.trig.cells ∧ ∀ j : Fin 4, j ≠ p → t.prog j = s.prog j))

/-- From 03 R94 to R96; 07 R200 to R206: what follows candidates: a decision falls at its tick and is delivered or dropped; a TRIGOUT pulse
begins and ends at its ticks; a TRIG message that is sound goes on to the other lanes and fires the REMOTE cells that name its origin.
Readings of the model that it rests on: log entries 24, 25. -/
def Obligations.TriggersAreDelivered : Prop :=
  ∀ (s : State) (c : Cand) (td src : Nat) (m : Fin 4) (pl : Pulse) (lane : Bool) (origin hops : BitVec 3) (prog : Fin 4) (ticks : W64)
    (word2 : W32) (j : Fin 16), s.up → s.ks.held = false → s.trig.items = [] → s.trig.cands = [] →
    let quiet := (s.dir c.prog).bound = false ∧ (∀ n, n < 8 → (s.ch n).changes = [] ∧ s.churnRuns n td = false) ∧ bit (s.reg R.nodTrigTx) c.prog = false ∧
      (∀ k, k < 4 → bit (s.reg (R.trigOutCtrl k)) 0 = false) ∧ bit (s.reg R.sensInjCtrl) 0 = false
    (s.trig.decisions = [.drop td src] → td % 128 = 0 → s.now ≤ td → src < 256 → s.fresh td src → Does .trigDecision s (fun t =>
      t.now = td ∧ t.trig.decisions = [] ∧ s.occurred t td src ∧ s.eventKept t src [])) ∧
    (s.trig.decisions = [.final td c] → td % 128 = 0 → s.now ≤ td → c.prog < 4 → quiet → s.fresh td (120 + c.prog) → s.fresh td (48 + c.prog) →
      Does .trigDecision s (fun t => t.now = td ∧ t.trig.decisions = [] ∧ s.occurred t td (48 + c.prog) ∧
        t.reg (R.tpFinalCount c.prog) = satInc (s.reg (R.tpFinalCount c.prog)) 1 ∧
        t.reg (R.tpLastKts c.prog 0) = loW c.kts.ticks.toNat ∧ t.reg (R.tpLastKts c.prog 1) = hiW c.kts.ticks.toNat ∧
        t.reg (R.tpLastKts c.prog 2) = c.kts.word2 ∧ t.reg64 (R.tpLastDec c.prog) = s.countAt td ∧
        t.tmr.items = insertItem { kts := c.kts, kind := .trigger c.prog } s.tmr.items)) ∧
    (s.trigout[m.val] = [pl] → pl.on = false → Does (.trigoutEdge m) s (fun t => t = { s with now := max s.now pl.start, trigout := t.trigout } ∧
      t.trigout[m.val] = [{ pl with on := true }] ∧ ∀ k : Fin 4, k ≠ m → t.trigout[k.val] = s.trigout[k.val])) ∧
    (s.trigout[m.val] = [pl] → pl.on = true → Does (.trigoutPulseEnd m) s (fun t => t = { s with now := max s.now pl.stop, trigout := t.trigout } ∧
      t.trigout[m.val] = [] ∧ ∀ k : Fin 4, k ≠ m → t.trigout[k.val] = s.trigout[k.val])) ∧
    (s.nodLanes.contains (b2n lane) = true → Does (.nodTrigRx lane origin hops prog ticks word2 false) s (fun t =>
      t = { s with regs := t.regs } ∧ s.regsKept t [R.nodMsgErr] ∧ t.reg R.nodMsgErr = satInc (s.reg R.nodMsgErr) 1)) ∧
    (s.nodRole = 2 → s.nod.link0 = 3 → s.nod.link1 = 3 → origin.toNat ≠ s.nod.id → s.nod.lane1 = [] → s.cellOn j = true → s.cellKind j = 4 → s.cellInvalid j = false →
      (s.cellIndex j).testBit prog.val = true → (s.cellIndex j).testBit (4 + origin.toNat) = true →
      Does (.nodTrigRx false origin hops prog ticks word2 true) s (fun t => t.reg (R.tcFireCount j) = satInc (s.reg (R.tcFireCount j)) 1 ∧
        (∃ y ∈ t.trig.items, y.cell = j.val ∧ y.fire = true ∧ y.kts.ticks = ticks) ∧
        t.nod.sent = (1, .trig { origin := origin.toNat, hops := hops.toNat + 1, prog := prog.val, ticks := ticks, word2 := word2 }) :: s.nod.sent)) ∧
    (s.nodLanes.contains (b2n lane) = true → origin.toNat = s.nod.id → Does (.nodTrigRx lane origin hops prog ticks word2 true) s (fun t => t = s))

/-- From 08 R212 to R217, R220 to R228: an edge of an enabled unit becomes an item with its KTS, or is dropped in the dead time; the timer takes
its items in order: a start opens a measurement and writes its two entries, a stop writes its interval, the window end writes END; a DRD
takes the head entry of the FIFO.
Readings of the model that it rests on: log entry 27. -/
def Obligations.TimerMeasures : Prop :=
  ∀ (s : State) (k : Fin 10) (tclk : W64) (tap : Fin 512) (falling : Bool) (held : BitVec 8) (hold : BitVec 7) (q : Fin 16) (l i p : Nat) (ent : List W32)
    (fifo : List (List W32)) (e : TItem) (r : List TItem), s.up → s.ks.held = false →
    let w := s.reg (R.tiCtrl k)
    let u := s.unit k
    let at_ := alignUp (s.elapsedOf tclk.toNat) 64
    let entry := (if u.use = 0 then u.cur else u.prev).getD tap (0, 0)
    let bin : Nat := if u.use = 2 then nominalBin tap else fld entry.1 0 23
    let fine := ((at_ * 65536 : Nat) + sextInt 24 (s.rf (R.tiSkew k) 0 24) - (bin : Nat) : Int).toNat
    let tick := fine / 65536
    let seen := bit w 0 = true ∧ (fld w 14 2 = 2 ∨ fld w 14 2 = b2n falling ∨ (fld w 14 2 = 3 ∧ falling = false)) ∧ fld w 16 8 ≤ held.toNat ∧ u.out = falling ∧ u.prior = none ∧
      (u.use = 2 ∨ binOk entry = true) ∧ u.calibrating = false ∧ u.blind = false ∧ u.resumeAt ≤ tick ∧ s.now ≤ at_
    let unit' := { u with level := !falling, out := !falling }
    let pt := procPoint (e.kts.at_ / 65536)
    let next := s.tmr.items = e :: r ∧ s.tmr.seen = [] ∧ (∀ y ∈ r, y.kts.at_ ≠ e.kts.at_) ∧ s.now ≤ pt
    let words := [loW e.kts.ticks.toNat, hiW e.kts.ticks.toNat, e.kts.word2]
    let gap := e.kts.at_ - s.tmr.startAt
    (seen → k.val < 8 → u.last.any (fun l => decide (tick < l + 128)) = false → Does (.tiEdge k tclk tap falling held 0 0) s (fun t =>
      t = { s with now := at_, regs := t.regs, tmr := t.tmr } ∧
      t.reg (R.tiEdgeCount k) = satInc (s.reg (R.tiEdgeCount k)) 1 ∧ s.regsKept t [R.tiEdgeCount k] ∧ t.unit k = { unit' with last := some tick } ∧
      t.tmr.items = insertItem { kts := s.ktsOf fine true 2, kind := .edge k falling (u.use == 2) } s.tmr.items)) ∧
    (seen → 8 ≤ k.val → u.last.any (fun l => decide (tick < l + 128)) = false → s.trig.items = [] → s.trig.cands = [] →
      Does (.tiEdge k tclk tap falling held 0 0) s (fun t => t.reg (R.tiEdgeCount k) = satInc (s.reg (R.tiEdgeCount k)) 1 ∧
        t.unit k = { unit' with last := some tick } ∧ t.tmr.items = insertItem { kts := s.ktsOf fine true 2, kind := .edge k falling (u.use == 2) } s.tmr.items ∧
        ∀ j : Fin 16, s.cellOn j = true → s.cellKind j = 3 → s.cellInvalid j = false → s.cellIndex j % 2 = k.val - 8 →
          t.reg (R.tcFireCount j) = satInc (s.reg (R.tcFireCount j)) 1)) ∧
    (seen → u.last = some l → tick < l + 128 → s.fresh (alignUp at_ 128) 87 →
      Does (.tiEdge k tclk tap falling held 0 0) s (fun t => t.reg (R.tiDeadDrop k) = satInc (s.reg (R.tiDeadDrop k)) 1 ∧ t.unit k = unit' ∧
        s.occurred t (alignUp at_ 128) 87 ∧ t.tmr.items = s.tmr.items ∧ t.reg (R.tiEdgeCount k) = s.reg (R.tiEdgeCount k))) ∧
    ((held.toNat < fld w 16 8 ∨ u.out = !falling) → u.use = 2 → Does (.tiEdge k tclk tap falling held 0 0) s (fun t =>
      t = { s with now := max s.now at_, tmr := t.tmr } ∧ t.unit k = { u with level := !falling } ∧ t.tmr.items = s.tmr.items)) ∧
    (u.blind = true → Does (.tiBlindEnd k) s (fun t => t = { s with now := max s.now u.blindEnd, tmr := t.tmr } ∧
      t.unit k = { u with blind := false } ∧ t.tmr.items = s.tmr.items ∧ ∀ j : Fin 10, j ≠ k → t.unit j = s.unit j)) ∧
    (next → e.kind = .trigger p → s.rf R.tmrCtrl 2 4 = 10 + p → s.rf R.tmrCtrl 10 2 = 0 → s.tmr.state = 1 → s.tmr.armedAt * 65536 ≤ e.kts.at_ →
      s.tmr.fifo.length ≤ 1006 → s.fresh pt 80 →
      Does (.tmrItemProcess 0 hold) s (fun t => t.now = pt ∧ t.tmr.items = r ∧ t.tmr.state = 2 ∧ t.tmr.n = 0 ∧ t.tmr.seq = (s.tmr.seq + 1) % 65536 ∧
        t.tmr.startAt = e.kts.at_ ∧ t.tmr.startTwin = twinWords words ∧ t.tmr.src = 10 + p ∧ t.tmr.dest = 0 ∧ t.tmr.again = bit (s.reg R.tmrCtrl) 1 ∧
        s.occurred t pt 80 ∧
        t.tmr.fifo = s.tmr.fifo ++ [pack [(0, 0), (2, 10 + p), (6, 0), (16, t.tmr.seq)] :: words, pack [(0, 1), (16, t.tmr.seq)] :: words.map (~~~ ·)])) ∧
    (next → e.kind = .edge k falling false → s.tmr.src ≠ k.val → s.tmr.dest = 0 → s.tmr.state = 2 → bit (s.reg R.tmrStopMask) k = true →
      s.tmr.startAt < e.kts.at_ → gap < 2 ^ 62 → s.reg64 R.tmrWinOpen = 0 → s.reg64 R.tmrWinClose = 0 → bit (s.reg R.tmrFrame) 0 = false →
      twinOk s.tmr.startTwin = true → s.tmr.n + 1 < s.stopMax e.kts.at_ → Does (.tmrItemProcess 0 hold) s (fun t => t.now = pt ∧ t.tmr.items = r ∧
        t.tmr.state = 2 ∧ t.tmr.n = s.tmr.n + 1 ∧ t.tmr.fifo = s.tmr.fifo ++ [[
          pack [(0, 2), (2, s.tmr.n + 1), (6, k), (10, b2n falling), (11, 0), (12, b2n (bit e.kts.word2 16)), (13, 0), (14, 0), (15, 0), (16, gap % 65536)],
          loW (gap / 65536), pack [(0, gap / 65536 / 2 ^ 32 % 2 ^ 14), (16, s.tmr.seq)], 0]])) ∧
    (s.tmr.items = [] → s.tmr.seen = [] → s.tmr.state = 2 → s.reg64 R.tmrWinClose ≠ 0 → twinOk s.tmr.startTwin = true → s.tmr.dest = 0 →
      let pw := procPoint ((s.tmr.startAt + s.reg64 R.tmrWinClose * 65536) / 65536)
      s.now ≤ pw → s.fresh pw 81 → Does (.tmrWindowEnd 0) s (fun t => t.now = pw ∧ s.occurred t pw 81 ∧
        t.tmr.fifo.length = s.tmr.fifo.length + 1 ∧ t.tmr.state = (if s.tmr.again && bit (s.reg R.tmrCtrl) 0 then 1 else 0))) ∧
    ((s.core q).drds.findIdx? (fun d => d.addr = fifoData ∧ d.val = none) = some i → s.tmr.fifo = ent :: fifo → Does (.tmrFifoRead q) s (fun t =>
      t.tmr = { s.tmr with fifo := fifo } ∧ (t.core q).drds = modAt (s.core q).drds i (fun d => { d with val := some (ent.getD 0 0) }) ∧
      (∀ j, j < 3 → t.latchGet q (fifoData + 4 * (j + 1)) = some (ent.getD (j + 1) 0)) ∧ t.regs = s.regs))

/-- From 08 R216, R218: a timer calibration: a granted permit switches the free units to the oscillator, an accepted count becomes the table, a
count that is not accepted fails its unit, units return or are skipped, and the request ends with its result and its event.
Readings of the model that it rests on: log entries 27, 33. -/
def Obligations.TimerCalibrates : Prop :=
  ∀ (s : State) (k : Fin 10) (hits : List W32) (e : Nat), s.up → s.ks.held = false →
    let c := s.tmr.cal
    let u := s.unit k
    (c.phase = 1 → c.waiting = [k.val] → s.granted 18 7 = some e → (s.entry e).ok = true → s.unitFree k = true → Does .tmrCalGrant s (fun t =>
      t = { s with tmr := t.tmr, permits := t.permits } ∧ (t.unit k).calibrating = true ∧ (t.unit k).calCounted = false ∧
      (t.unit k).calDue = s.now + 320000000 ∧ t.tmr.cal = { c with phase := 2, due := s.now + 8000000000, waiting := [] } ∧
      t.permits.load = s.permits.load.add { Units.zero with conv := (bitsOf 10 c.units).length } ∧ (t.entry e).st = 4)) ∧
    (u.calibrating = true → u.calCounted = false → hitsOk hits = true → hits.length = 512 → Does (.tmrCalCountDone k hits) s (fun t =>
      t = { s with now := max s.now u.calDue, tmr := t.tmr } ∧ (t.unit k).cur = binTable hits ∧ (t.unit k).prev = (if u.use = 0 then u.cur else u.prev) ∧ (t.unit k).use = 0 ∧
      (t.unit k).calCounted = true ∧ t.tmr.cal = { c with done := c.done ||| 2 ^ k.val })) ∧
    (u.calibrating = true → u.calCounted = false → hitsOk hits = false → s.fresh (alignUp (max s.now u.calDue) 128) 85 →
      Does (.tmrCalCountDone k hits) s (fun t => (t.unit k).cur = u.cur ∧ (t.unit k).prev = u.prev ∧ t.tmr.cal = { c with failed := c.failed ||| 2 ^ k.val } ∧
        s.occurred t (alignUp (max s.now u.calDue) 128) 85 ∧ t.reg R.tmrAlertInfo = pack [(0, 3), (3, k), (7, 1)])) ∧
    (u.calibrating = true → u.calCounted = true → c.phase = 2 → c.waiting ≠ [] → Does (.tmrCalUnitReturn k) s (fun t =>
      t = { s with now := max s.now u.calDue, tmr := t.tmr } ∧ t.unit k = { u with calibrating := false, calCounted := false } ∧ t.tmr.cal = c)) ∧
    (u.calibrating = true → u.calCounted = true → c.phase = 2 → c.waiting = [] → (∀ j : Fin 10, j ≠ k → (s.unit j).calibrating = false) →
      s.findEntry 18 7 = none → c.byMgt = false → s.fresh (alignUp (max s.now u.calDue) 128) 84 → Does (.tmrCalUnitReturn k) s (fun t =>
        t.tmr.cal = { c with phase := 0, result := c.outcome } ∧ s.occurred t (alignUp (max s.now u.calDue) 128) 84 ∧
        t.permits.load = s.permits.load.sub { Units.zero with conv := (bitsOf 10 c.units).length })) ∧
    (c.phase = 2 → c.waiting.contains k.val = true → c.waiting.filter (· ≠ k.val) ≠ [] → Does (.tmrCalUnitSkip k) s (fun t =>
      t = { s with now := max s.now c.due, tmr := { s.tmr with cal := { c with waiting := c.waiting.filter (· ≠ k.val), failed := c.failed ||| 2 ^ k.val } } })) ∧
    (c.phase = 1 → s.findEntry 18 7 = none → c.byMgt = false → s.fresh (alignUp (max s.now c.due) 128) 84 → Does .tmrCalDenied s (fun t =>
      t.tmr.cal = { c with phase := 0, result := 5, waiting := [] } ∧ s.occurred t (alignUp (max s.now c.due) 128) 84 ∧ t.permits.load = s.permits.load))

/-- From 09 R234, R237, R243, R248 to R252, R260: the record writer and the directories: a chunk is issued and counted, or lost to a full
writer as a gap; the closing chunk, padded if it is short, ends the record; a directory becomes ready, its oldest entry is written and sealed; an arm mark from
Nodric acts at its boundary.
Readings of the model that it rests on: log entries 15, 26. -/
def Obligations.RecordsAndDirectories : Prop :=
  ∀ (s : State) (n : Fin 8) (p : Fin 4) (full : Bool) (outs : BitVec 6) (v : Samples) (r : RecRun) (c : Closing) (cs : List Closing) (g : Seg) (code : BitVec 8)
    (programs : BitVec 4) (b : W64), s.up → s.ks.held = false →
    let x := s.ring n
    let j := x.issued / r.q
    let k := j * r.q + min outs.toNat r.q
    let at_ := max s.now (r.packerAt (k - 1))
    let v0 := (r.blockEnd (j * r.q) - 1) * r.ts / 128
    let gapAt := alignUp (max at_ ((v0 + 28) * 128)) 128
    let issue := x.closing = [] ∧ x.run = some r ∧ 0 < r.q ∧ x.issued < k ∧ (∀ m, s.outputsOf n r = some m → k ≤ m) ∧
      (k = (j + 1) * r.q ∨ s.windowEnds r k = true) ∧ s.protectedStart n = none
    let jc := c.issued / c.run.q
    let endAt := alignUp (max s.now (c.run.packerAt (c.total - 1))) 128
    let sealAt := max s.now (g.run.packerAt (g.kRef + g.post - 1) + 256)
    (issue → r.a0 + (j + 1) * r.cb < 2 ^ 64 → s.present (R.recWrCount n) → Does (.recChunkWrite n full outs v) s (fun t => t.now = at_ ∧
      t.reg64 (R.recWrCount n) = r.a0 + (j + 1) * r.cb ∧
      t.ring n = { x with issued := max x.issued k, gapChunk := (t.ring n).gapChunk, gapVec := (t.ring n).gapVec } ∧
      ∀ m : Fin 8, m ≠ n → t.ring m = s.ring m)) ∧
    (issue → x.gapVec ≤ v0 → x.gapChunk ≠ some ((r.a0 + j * r.cb) / r.cb) → s.present (R.recGapCount n) → s.fresh gapAt (96 + n) →
      Does (.recChunkWrite n true outs v) s (fun t => bit (t.reg (R.evtStatus ((96 + n) / 32))) ((96 + n) % 32) = true ∧
        t.reg (R.recGapCount n) = satInc (s.reg (R.recGapCount n)) 1)) ∧
    (x.closing = c :: cs → 0 < c.total → 0 < c.run.q → c.issued = c.total → c.total % c.run.q = 0 → s.present (R.recEndTick n) →
      s.fresh endAt (104 + n) → Does (.recEnd n full v) s (fun t =>
        t.ring n = { x with closing := cs } ∧ s.occurred t endAt (104 + n) ∧
        t.reg64 (R.recEndTick n) = s.countAt (match c.run.stop with
          | some g => g * c.run.ts
          | none => c.run.label c.total * c.run.ts) ∧
        s.eventKept t (104 + n) [R.recEndTick n, R.recEndTick n + 4] ∧ t.hbm = s.hbm)) ∧
    (x.closing = c :: cs → 0 < c.run.q → c.issued < c.total → c.total ≤ (jc + 1) * c.run.q → s.protectedStart n = none →
      c.run.a0 + (jc + 1) * c.run.cb < 2 ^ 64 → s.present (R.recWrCount n) → Does (.recEnd n full v) s (fun t => (t.ring n).closing = cs ∧
        t.reg64 (R.recWrCount n) = c.run.a0 + (jc + 1) * c.run.cb)) ∧
    ((s.dir p).init = true → Does (.dirInitDone p) s (fun t => (t.dir p).init = false ∧ (t.dir p).segs = (s.dir p).segs ∧
      (∀ q : Fin 4, q ≠ p → (t.dir q).init = (s.dir q).init) ∧ t.record.rings = s.record.rings)) ∧
    ((s.dir p).segs.find? (fun y => !y.written) = some g → g.kts.length = 3 → s.lineStatus (s.slotAddr p g.seq) = 0 → Does (.dirEntryWrite p) s (fun t =>
      t.dpaWords (s.slotAddr p g.seq) 14 = s.entryWords p g ∧ s.regsKept t [R.memPortLines 8, R.memSrLate] ∧
      t.dir p = { s.dir p with segs := (s.dir p).segs.map (fun y => if y.seq = g.seq then { y with written := true } else y) })) ∧
    ((s.dir p).segs.find? (fun y => !y.sealed) = some g → g.written = true → g.lost = false → g.seq + 1 < 2 ^ 64 →
      (bitsOf 8 g.inputs).all (s.windowIssued g) = true → s.lineStatus (s.slotAddr p g.seq) = 0 → s.fresh (alignUp sealAt 128) (112 + p) →
      Does (.dirSeal p) s (fun t => t.now = sealAt ∧ t.reg64 (R.dirSealed p) = g.seq + 1 ∧ s.occurred t (alignUp sealAt 128) (112 + p) ∧
        t.dpaWords (s.slotAddr p g.seq + 56) 2 = [sealWord 5 g.seq, ~~~ sealWord 5 g.seq] ∧
        (t.dir p).segs = (s.dir p).segs.map (fun y => if y.seq = g.seq then { y with sealed := true } else y))) ∧
    (s.nodRole = 2 → s.nod.state ≠ 0 → bit (s.reg R.recNodCtrl) 0 = true → s.rf R.recNodCtrl 1 8 = code.toNat → s.count + 256 ≤ b.toNat → s.converterMode = false →
      (∀ m : Fin 8, (s.ring m).state = 0) → (∀ q : Fin 4, (s.dir q).bound = false) → Does (.nodArmMark true code programs b 7) s (fun t =>
        t.now = max s.now (alignUp (s.elapsedOf b.toNat) 128) ∧ s.regsKept t [R.recArm] ∧
        t.nod = { s.nod with sent := s.handed (.arm true code.toNat programs.toNat b.toNat) } ∧
        t.reg R.recArm = s.reg R.recArm ||| BitVec.ofNat 32 (s.armMask programs.toNat)))

/-- From 10 R270 to R274, R280 to R282: Churn takes waveforms and its engine works on them: a free waveform is accepted, completes with its
outputs, a pending clear, decay or pass starts and ends, each with what it does to the counts. No change of its settings is under way.
Readings of the model that it rests on: log entries 15, 28. -/
def Obligations.ChurnEngineWorks : Prop :=
  ∀ (s : State) (n : Fin 8) (v : Samples) (e : Era) (w : Wfm) (r : List Wfm) (x sh : Nat), s.up → s.ks.held = false →
    (s.ch n).changes = [] → (s.ch n).seen = [] →
    let c := s.ch n
    let b := s.boundary
    let here := s.present (R.churnWfmCount n) ∧ s.present (R.churnAvgCount n)
    let first := fun (t : Nat) => ceilDiv t e.period
    let jRef := ceilDiv (first (b - 3296) + 1 - e.anchor) e.ratio - 1
    let held := s.churnPre n b + max (ceilDiv (first (c.histFrom - 3296) - e.anchor) e.ratio) (((b - 3296) / e.period + 1 - e.anchor) / e.ratio - 32768)
    (s.churnRuns n b = true → c.bufs.length < 2 → (s.churnMode n b = 1 ∨ (s.churnMode n b = 2 ∧ c.autoFree = true)) →
      (s.inp n).eraAt (b - 3296) = some e → 0 < e.period → held ≤ jRef → Does (.churnFreeOffer n) s (fun t => t = { s with now := b, churn := t.churn } ∧
        ∃ y, y.ref = e.anchor + jRef * e.ratio ∧ y.ratio = e.ratio ∧ y.ts = e.period ∧ y.mode = e.mode ∧
        y.len = s.churnLen n b ∧ y.pre = s.churnPre n b ∧ y.phi = 0 ∧ y.complete = false ∧ t.ch n = { c with bufs := c.bufs ++ [y], lastAccept := b })) ∧
    (s.churnRuns n s.now = true → s.churnMode n s.now = 2 → c.autoFree = false → Does (.churnAutoTimeout n) s (fun t =>
      t = { s with now := max s.now (alignUp (c.lastAccept + max 16384 (s.reg64 (R.churnAutoTimeout n))) 128), churn := t.churn } ∧
      t.ch n = { c with autoFree := true })) ∧
    (c.bufs = [w] → w.complete = false → ((s.inp n).stream (w.label 0 * w.ts)).2 = none → Does (.churnWfmComplete n v) s (fun t =>
      t = { s with now := max s.now w.due, churn := t.churn } ∧
      ∃ y, t.ch n = { c with bufs := [y] } ∧ y = { w with complete := true, outs := y.outs, ovr := y.ovr } ∧ y.outs.length = w.len + 1)) ∧
    (c.op = none → s.churnOn n = true → c.pendClear = true → here → Does (.churnEngineStart n) s (fun t => t.now = b ∧ (t.ch n).db = [] ∧
      (t.ch n).avg = [] ∧ (t.ch n).env = [] ∧ (t.ch n).op = some (.clear, b + 16384) ∧ (t.ch n).pendClear = false ∧ (t.ch n).bufs = c.bufs ∧
      t.reg64 (R.churnWfmCount n) = 0 ∧ t.reg (R.churnAvgCount n) = 0 ∧
      s.regsKept t [R.churnWfmCount n, R.churnWfmCount n + 4, R.churnAvgCount n])) ∧
    (c.op = none → s.churnOn n = true → c.pendClear = false → c.pendDecay ≠ 0 → c.snap = none → Does (.churnEngineStart n) s (fun t =>
      t = { s with now := b, churn := t.churn } ∧ t.ch n = { c with op := some (.decay c.pendDecay, b + 16384), pendDecay := 0 })) ∧
    (c.op = none → s.churnOn n = true → c.pendClear = false → c.pendDecay = 0 → c.bufs = w :: r → w.complete = true → Does (.churnEngineStart n) s (fun t =>
      t = { s with now := b, churn := t.churn } ∧ t.ch n = { c with op := some (.pass, b + 19968) })) ∧
    (c.op = some (.decay sh, x) → Assoc.wf (fun _ => 0) c.db = true → Does (.churnOpEnd n 0 none) s (fun t => t.now = max s.now x ∧ (t.ch n).op = none ∧
      (∀ k, Assoc.get 0 (t.ch n).db k = Assoc.get 0 c.db k / 2 ^ sh) ∧ (t.ch n).avg = c.avg ∧ (t.ch n).bufs = c.bufs ∧ s.regsKept t [])) ∧
    (c.op = some (.pass, x) → c.bufs = w :: r → c.pendClear = false → c.pendAvg = false → w.ovr = false → bit (s.reg (R.churnDecay n)) 3 = false → here →
      s.reg (R.churnAvgCount n) ≠ 0xFFFFFFFF →
      Does (.churnOpEnd n 0 none) s (fun t => t.now = max s.now x ∧ (t.ch n).op = none ∧ (t.ch n).bufs = r ∧ (t.ch n).passes = c.passes + 1 ∧
        t.reg64 (R.churnWfmCount n) = (s.reg64 (R.churnWfmCount n) + 1) % 2 ^ 64 ∧ t.reg (R.churnAvgCount n) = s.reg (R.churnAvgCount n) + 1 ∧
        (t.ch n).db = (c.pass w (bit (s.reg (R.churnCtrl n)) 8) true).1.db)) ∧
    (s.churnOn n = true → bit (s.reg (R.churnDecay n)) 4 = true → s.rf (R.churnDecay n) 0 3 = 1 → Does (.churnDecayTimer n) s (fun t =>
      t = { s with now := t.now, churn := t.churn } ∧ t.now = max s.now (alignUp (c.decayAt + max 16384 (s.reg64 (R.churnDecayT n))) 128) ∧
      t.ch n = { c with pendDecay := min 16 (c.pendDecay + 1), passes := 0, decayAt := t.now }))

/-- From 10 R284 to R288: snapshots: the period starts one in the slot that is not published, an event while one runs makes the next pending,
its bands are read in turn, and with every band read the slot is published under its number. No change of Churn's settings is under way.
Readings of the model that it rests on: log entries 15, 28. -/
def Obligations.SnapshotsAreTakenAndPublished : Prop :=
  ∀ (s : State) (n : Fin 8) (x : Snap), s.up → s.ks.held = false → (s.ch n).changes = [] → (s.ch n).seen = [] →
    let c := s.ch n
    let next := alignUp (c.periodAt + max 131072 (s.reg64 (R.churnSnapPeriod n))) 128
    let ev := s.rf (R.churnSnapCtrl n) 6 8
    (s.rf (R.churnSnapCtrl n) 1 2 = 1 → s.churnOn n = true → bit (s.reg (R.churnSnapCtrl n)) 0 = true → c.snap = none → c.published = some 0 →
      c.holds = [] → s.pageBase n + 2 ^ 25 ≤ s.dpaTop → Does (.churnSnapPeriod n) s (fun t => t.now = max s.now next ∧ ∃ y, (t.ch n).snap = some y ∧
        y.slot = 1 ∧ y.base = s.pageBase n + 2 ^ 24 ∧ y.seq = (s.reg (R.churnSnapSeq n)).toNat + 1 ∧ y.band = 0 ∧ y.poison = false ∧
        y.avg = c.avg ∧ y.env = c.env)) ∧
    (s.rf (R.churnSnapCtrl n) 1 2 = 2 → Assoc.get 0 s.evt.last ev ≠ 0 → c.periodAt < Assoc.get 0 s.evt.last ev → s.churnOn n = true →
      bit (s.reg (R.churnSnapCtrl n)) 0 = true → c.snap = some x → c.snapPending = false → Does (.churnSnapEvent n) s (fun t =>
        t = { s with now := max s.now (boundaryAfter (Assoc.get 0 s.evt.last ev - 1)), churn := t.churn } ∧
        t.ch n = { c with snapPending := true, periodAt := Assoc.get 0 s.evt.last ev })) ∧
    (c.snap = some x → x.band < 64 → Does (.churnBandRead n) s (fun t => ∃ y, (t.ch n).snap = some y ∧
      y = { x with band := x.band + 1, poison := y.poison, wfmLast := y.wfmLast } ∧ (t.ch n).db = c.db ∧ t.now = s.now)) ∧
    (c.snap = some x → x.band = 64 → x.poison = false → s.pageBad x.base = false → c.snapPending = false → s.headOf n = n.val → s.fresh s.boundary (128 + n) →
      s.present (R.churnSnapSeq n) → Does (.churnSnapPublish n) s (fun t => t.now = s.boundary ∧
        t.ch n = { c with snap := none, published := some x.slot, pubValid := true } ∧ t.reg (R.churnSnapSeq n) = BitVec.ofNat 32 x.seq ∧
        s.occurred t s.boundary (128 + n)))

/-- From 11 R298 to R306: the arbiter: the head that fits starts its ramp, the ballast steps up and down by one unit at the paced boundaries,
the last step grants, a request without VDD_CORE units is granted at once, a request not granted in time is denied, a load that falls
leaves its units as ballast to be lowered, and a forced release frees the entries of a core that does not run.
Readings of the model that it rests on: log entries 13, 42. -/
def Obligations.ArbiterPacesTheBallast : Prop :=
  ∀ (s : State) (q : Fin 16) (e gd d x : Nat) (deadline : Option Nat) (kind : BitVec 4) (r : PReq) (f : Fall) (fs : List Fall) (cores : BitVec 16),
    s.up → s.ks.held = false →
    let p := s.permits
    let b := s.nextStep
    let u := (s.entry e).units
    let granted := fun (at_ : Nat) (t : State) => (t.entry e).st = 3 ∧ (t.entry e).ok = true ∧ (t.core q).rd gd = 0 ∧ (t.core q).waiting = none ∧
      (t.core q).edge = at_ / 64 * 64 + 128
    (s.rampingEntry = some e → 1 < p.rampUp → Does .ballastStepUp s (fun t =>
      t = { s with now := b, permits := { p with ballast := p.ballast + 1, rampUp := p.rampUp - 1, steps := (b :: p.steps).take 68 } })) ∧
    (s.rampingEntry = some e → p.rampUp = 1 → (s.entry e).ok = true → (s.entry e).req = q.val → (s.entry e).kind < 6 → gd < 32 →
      (s.core q).waiting = some (.permit gd (s.entry e).kind deadline) → Does .ballastStepUp s (fun t => granted b t ∧ t.permits.rampUp = 0 ∧
        t.permits.ballast = p.ballast + 1 ∧ (t.entry e).units = u ∧ s.othersKept t q ∧ t.regs = s.regs)) ∧
    (s.rampingEntry = none → s.queueHead = some r → r.entry = some e → 1 < r.units.core → s.fits r.units = true → p.hold = false →
      (s.entry e).ok = true → (s.entry e).st ≠ 5 → e < 64 → r.kind < 16 → r.req < 64 → Does .ballastStepUp s (fun t => t.now = max b (s.headBoundary r) ∧
        (t.entry e).st = 2 ∧ t.permits.queue = p.queue.drop 1 ∧ t.permits.held = p.held.add r.units ∧ t.permits.rampUp = r.units.core - 1 ∧
        t.permits.ballast = p.ballast + 1 ∧ t = { s with now := t.now, permits := t.permits })) ∧
    (s.queueHead = some r → r.entry = some e → r.units.core = 0 → s.fits r.units = true → p.hold = false → (s.entry e).ok = true →
      (s.entry e).st ≠ 5 → e < 64 → r.kind = 5 → r.req = q.val → gd < 32 → (s.core q).waiting = some (.permit gd 5 deadline) → Does .permitGrantDirect s (fun t =>
        granted (s.headBoundary r) t ∧ t.permits.queue = p.queue.drop 1 ∧ t.permits.ballast = p.ballast)) ∧
    (p.rampUp = 0 → p.lowering ≠ 0 → Does .ballastStepDown s (fun t => t = { s with now := b, permits := { p with ballast := p.ballast - 1, lowering := p.lowering - 1, steps := (b :: p.steps).take 68, held := { p.held with core := p.held.core - 1 } } })) ∧
    (p.queue.find? (fun y => y.req = q.val ∧ y.kind = kind.toNat) = some r → r.deadline = some d → s.grantsBy q kind.toNat d = false → s.findEntry q kind.toNat = none → 0 < gd → gd < 32 →
      (s.core q).waiting = some (.permit gd kind.toNat deadline) → s.fresh (alignUp (max s.now d) 128) 240 → Does (.permitDenied (q.castLE (by decide)) kind) s (fun t =>
        t.now = max s.now d ∧ (t.core q).rd gd = 1 ∧ (t.core q).waiting = none ∧ s.occurred t (alignUp (max s.now d) 128) 240 ∧
        t.reg R.permitDeniedCount = satInc (s.reg R.permitDeniedCount) 1 ∧
        t.permits = { p with queue := p.queue.filter (fun y => ¬ (y.req = q.val ∧ y.kind = kind.toNat)) })) ∧
    (s.permitDeadline q kind.toNat = some d → s.grantsBy q kind.toNat d = true → Does (.permitDenied (q.castLE (by decide)) kind) s (fun t => t = s)) ∧
    (p.falls = f :: fs → Does .loadFall s (fun t => t = { s with now := max s.now f.due, permits := { p with falls := fs, load := p.load.sub f.units, ballast := p.ballast + f.units.core, lowering := p.lowering + f.units.core, held := { p.held with core := p.held.core + f.units.core } } })) ∧
    ((s.core q).run = .halted → x < 16 → s.findEntry q x = some e → (∀ k, k < 16 → k ≠ x → s.findEntry q k = none) → (s.entry e).st = 3 →
      (s.entry e).ok = true → (∀ k, k < 16 → cores.getLsbD k = decide (k = q.val)) → Does (.permitForce cores) s (fun t => (t.entry e).st = 0 ∧
        t.permits.lowering = p.lowering + u.core ∧ t.permits.load = p.load ∧ (∀ k, k ≠ e → t.entry k = s.entry k) ∧ t.cores = s.cores)) ∧
    ((∀ k : Fin 16, cores.getLsbD k = true → (s.core k).run ≠ .halted ∧ (s.core k).run ≠ .faulted) → Does (.permitForce cores) s (fun t => t = s))

/-- From 14 R344, R348, R352 to R357, R365; 15 R370: lines of the memory controller: presented and waiting, accepted or merged, issued, returned
or reissued; a read of the translation; the masks that take effect when the queues have drained, and their twins' check.
Readings of the model that it rests on: log entries 15, 30. -/
def Obligations.MemoryMovesLines : Prop :=
  ∀ (s : State) (pt : Fin 19) (e : Fin 64) (w : Fin 20) (write : Bool) (dpa : BitVec 40) (mask : W64) (data : BitVec 512) (p : Nat) (l : MLine)
    (rest : List MLine) (flip addr : W32) (ms : List (W32 × W32)), s.up → s.ks.held = false →
    let a := dpa.toNat / 64 * 64
    let x := s.engine e
    let ck := s.ckOf e
    let h := s.hchan (chanOfEngine e)
    let at_ := alignUp (max s.now (if write then x.readyW else x.readyR)) ck
    let free := h.held = false ∧ h.fenced = false ∧ h.sr = 0
    let top := alignUp (s.now + 1) 131072
    let met := fun (r : MLine) => r.dpa == l.dpa && r.at_ == at_
    let dcs := addr.toNat / 4 * 4
    (s.unregulated pt = true → s.mem.pendMasks = none → s.atBound pt write = false → s.lineStatus a = 0 → Does (.memLinePresent pt write dpa mask data) s (fun t =>
      t = { s with mem := { s.mem with ports := t.mem.ports } } ∧ (t.mport pt).wait = (s.mport pt).wait ++ [{ port := pt.val, dpa := a, write := write, mask := mask.toNat, data := leBytes 64 data.toNat, hint := min (s.rf (R.memReg pt) 27 2) 2, at_ := s.now, tries := 0, waits := false }])) ∧
    (s.unregulated pt = true → s.mem.pendMasks = none → s.atBound pt write = false → s.lineStatus a = 1 → s.fresh s.boundary 144 → Does (.memLinePresent pt write dpa mask data) s (fun t =>
      t.mem.done.head? = some { port := pt.val, dpa := a, write := write, status := 1, data := if write then [] else List.replicate 64 0xFF, at_ := s.now } ∧
      s.occurred t s.boundary 144 ∧ t.hbm = s.hbm)) ∧
    (s.pickPort e write = some p → s.mem.pendMasks = none → (s.mport p).wait = l :: rest → s.lineStatus l.dpa = 0 → h.sr = 0 → write = true → x.wq.any (fun y => y.dpa == l.dpa) = false →
      Does (.memLineAccept e write) s (fun t => t.now = max s.now at_ ∧ (t.engine e).wq = x.wq ++ [{ l with at_ := at_ }] ∧
        (t.engine e).rq = (if l.mask % 2 ^ 64 = 2 ^ 64 - 1 then x.rq.filter (fun r => !met r) else x.rq.map (fun r =>
          if met r then { r with data := overlay r.data l.data l.mask, waits := true } else r)) ∧
        (t.mport p).wait = rest ∧ t.hbm = s.hbm)) ∧
    (s.pickPort e write = some p → s.mem.pendMasks = none → (s.mport p).wait = l :: rest → s.lineStatus l.dpa = 0 → h.sr = 0 → write = true → x.wq.any (fun y => y.dpa == l.dpa) = true →
      Does (.memLineAccept e write) s (fun t => (t.engine e).wq = mergeWrite { l with at_ := at_ } x.wq ∧ (t.mport p).wait = rest)) ∧
    (s.pickPort e write = some p → s.mem.pendMasks = none → (s.mport p).wait = l :: rest → s.lineStatus l.dpa = 0 → h.sr = 0 → write = false → x.wq.find? (fun y => y.dpa == l.dpa) = none →
      Does (.memLineAccept e write) s (fun t => (t.engine e).rq = x.rq ++ [{ l with at_ := at_, data := s.readLine l.dpa }] ∧ (t.engine e).wq = x.wq ∧
        (t.mport p).wait = rest)) ∧
    (free → x.rq = [l] → x.wq = [] → x.writing = false → x.lcBy = none → l.write = false → l.waits = false → bit (s.reg R.memRdCtrl) 0 = false →
      Does (.memCommandIssue e 0) s (fun t => t.now = max s.now (alignUp (s.mortarFree (chanOfEngine e) (max s.now x.readyC)) ck) ∧ (t.engine e).rq = [] ∧ (t.engine e).fly = x.fly ++ [l] ∧
        t.regs = s.regs ∧ t.hbm = s.hbm)) ∧
    (free → x.rq = [] → x.wq = [l] → l.write = true → l.mask = 2 ^ 64 - 1 → bit (s.reg R.memRdCtrl) 0 = false → Does (.memCommandIssue e 0) s (fun t =>
      (t.engine e).wq = [] ∧ (t.engine e).unacked.head? = some l ∧ t.regs = s.regs ∧
      ∀ i, i < 64 → t.locByte ((s.place l.dpa).loc + i) = l.data.getD i 0)) ∧
    (h.fenced = false → x.fly = l :: rest → Does (.memReadReturn e 0) s (fun t => (t.engine e).fly = rest ∧ t.regs = s.regs ∧
      t.mem.done = { port := l.port, dpa := l.dpa, write := l.write, status := 0, data := l.data, at_ := s.now } :: s.mem.done)) ∧
    (h.fenced = false → x.fly = l :: rest → l.tries < 2 → Does (.memReadReturn e 2) s (fun t => (t.engine e).fly = { l with tries := l.tries + 1 } :: rest ∧
      t.mem.done = s.mem.done)) ∧
    (h.fenced = false → x.fly = l :: rest → s.fresh s.boundary 147 → Does (.memReadReturn e 3) s (fun t => (t.engine e).fly = rest ∧
      t.mem.done = { port := l.port, dpa := l.dpa, write := l.write, status := 2, data := [], at_ := s.now } :: s.mem.done ∧
      s.occurred t s.boundary 147 ∧ t.reg R.memPoisonCount = satInc (s.reg R.memPoisonCount) 1)) ∧
    (s.latchGet 16 (2 ^ 32 + 0x70008) = none → Does (.memXlate false 0x70008) s (fun t => t = { s with hostRead := s.xlate (s.reg64 R.memXlateIn) })) ∧
    (s.latchGet 17 dcs = none → latchedBy dcs = [] → ¬ (0x1000 ≤ dcs ∧ dcs < 0x100C) → Does (.memXlate true addr) s (fun t =>
      t = { s with hostRead := s.dcsWord dcs })) ∧
    (s.mem.pendMasks = some ms → s.queuesEmpty = true → s.memHeld = 0 → (∀ st, st < 2 → s.rateReg st = (s.stack st).rate) → Does .memMapDrainDone s (fun t =>
      t = { s with now := s.boundary, mem := { s.mem with masks := ms, good := ms.map (·.1), pendMasks := none, mapSeq := (s.mem.mapSeq + 1) % 256 } })) ∧
    ((∀ m ∈ s.mem.masks, m.2 = ~~~ m.1) → s.mem.masks.length = 10 → s.mem.good = s.mem.masks.map (·.1) → Does (.memMapTwinCheck w 0) s (fun t =>
      t = { s with now := top })) ∧
    ((∀ m ∈ s.mem.masks, m.2 = ~~~ m.1) → s.mem.masks.length = 10 → s.mem.good = s.mem.masks.map (·.1) → flip ≠ 0 → s.is9620 = false → s.fresh top 11 →
      Does (.memMapTwinCheck w flip) s (fun t => t.mem.good = s.mem.good ∧ t.mem.masks ≠ s.mem.masks ∧ s.occurred t top 11))

/-- From 15 R366 to R382, R386, R388: memory integrity: replay and its end, fences and re-initialisation, data errors, row disturbance, refresh,
temperature, self-refresh, and the end of a rate change.
Readings of the model that it rests on: log entry 30. -/
def Obligations.MemoryIntegrityHolds : Prop :=
  ∀ (s : State) (c : Fin 32) (e : Fin 64) (i : Fin 32) (st : Fin 2) (sid : Fin 3) (bank p : Fin 16) (row : BitVec 14) (dur : BitVec 9) (dt : BitVec 16)
    (temp : BitVec 8) (l : MLine) (x : Nat), s.up → s.ks.held = false →
    let h := s.hchan c
    let key := (sid.val * 16 + bank.val) * 16384 + row.toNat
    let hit := Assoc.get (0, 0) (s.engine e).acts key
    let here := c.val / 16 < s.nStacks
    let empty := ∀ k ∈ [2 * c.val, 2 * c.val + 1], (s.engine k).rq = [] ∧ (s.engine k).wq = [] ∧ (s.engine k).fly = []
    let past := s.now + min 500 dur.toNat * s.ckMem (c / 16)
    (here → (h.fenced = false ∨ h.unfencing = true) → h.attempt = 0 → s.fresh s.boundary 145 → Does (.memAerr c) s (fun t => (t.hchan c).attempt = 1 ∧ (t.hchan c).failed = false ∧
      (t.hchan c).held = true ∧ t.reg R.memAerrCount = satInc (s.reg R.memAerrCount) 1 ∧ t.reg R.memReplayCount = satInc (s.reg R.memReplayCount) 1 ∧
      s.occurred t s.boundary 145 ∧ s.eventKept t 145 [R.memAerrCount, R.memReplayCount])) ∧
    (here → (h.fenced = false ∨ h.unfencing = true) → h.attempt ≠ 0 → Does (.memAerr c) s (fun t => t.hchan c = { h with failed := true } ∧
      t.reg R.memReplayCount = s.reg R.memReplayCount)) ∧
    (s.nStacks ≤ c.val / 16 → Does (.memAerr c) s (fun t => t = s) ∧ Does (.memReplayAttemptEnd c dur) s (fun t => t = s) ∧
      Does (.memSrEntry c) s (fun t => t = s)) ∧
    (here → h.attempt ≠ 0 → h.failed = false → Does (.memReplayAttemptEnd c dur) s (fun t => t.now = past ∧ (t.hchan c).attempt = 0 ∧
      (t.hchan c).fenced = h.fenced ∧ t.regs = s.regs)) ∧
    (here → h.attempt = 1 → h.failed = true → Does (.memReplayAttemptEnd c dur) s (fun t => t.hchan c = { h with attempt := 2, failed := false } ∧
      t.reg R.memReplayCount = satInc (s.reg R.memReplayCount) 1)) ∧
    (here → h.attempt = 2 → h.failed = true → empty → s.fresh (alignUp past 128) 148 → Does (.memReplayAttemptEnd c dur) s (fun t => (t.hchan c).fenced = true ∧
      (t.hchan c).attempt = 0 ∧ s.occurred t (alignUp past 128) 148)) ∧
    (h.unfencing = true → h.attempt = 0 → h.rateHold = false → (s.stack (c / 16)).rateBy = none → s.rateWaits (c / 16) = false → Does (.memUnfenceDone c true) s (fun t =>
      t.now = max s.now h.unfenceBy ∧ (t.hchan c).fenced = false ∧ (t.hchan c).unfencing = false ∧ t.regs = s.regs)) ∧
    (h.unfencing = true → h.attempt = 0 → h.rateHold = false → (s.stack (c / 16)).rateBy = none → s.rateWaits (c / 16) = false → s.fresh (alignUp (max s.now h.unfenceBy) 128) 148 →
      Does (.memUnfenceDone c false) s (fun t => (t.hchan c).fenced = h.fenced ∧ (t.hchan c).unfencing = false ∧
        s.occurred t (alignUp (max s.now h.unfenceBy) 128) 148)) ∧
    ((s.engine e).unacked[i.val]? = some l → l.tries < 2 → s.fresh s.boundary 146 → Does (.memDerr e i) s (fun t =>
      (t.engine e).unacked[i.val]? = some { l with tries := l.tries + 1 } ∧ t.reg R.memDerrCount = satInc (s.reg R.memDerrCount) 1 ∧
      s.occurred t s.boundary 146 ∧ t.hbm = s.hbm)) ∧
    (bit (s.reg R.memRdCtrl) 0 = true → hit.1 ≠ 0 → s.rdThr ≤ hit.1 + 256 → hit.2 < 19 → s.is9620 = false → s.fresh s.boundary 150 →
      Does (.memRowDisturb e sid bank row) s (fun t => Assoc.get (0, 0) (t.engine e).acts key = (0, 0) ∧ s.occurred t s.boundary 150 ∧
        t.reg R.memRdCount = satInc (s.reg R.memRdCount) 1 ∧
        (t.mport hit.2).penalty = some (alignUp s.now 128 + max 1 (s.rf R.memRdPenalty 0 24) * 131072))) ∧
    ((s.mport p).penalty = some x → Does (.memRdPenaltyEnd (p.castLE (by decide))) s (fun t => t.now = max s.now x ∧ (t.mport p).penalty = none ∧
      (t.mport p).wait = (s.mport p).wait ∧ t.regs = s.regs)) ∧
    Does (.memRdWindow st) s (fun t => t.now = max s.now ((s.stack st).winStart + 2560000000 / 2 ^ (s.stack st).mult) ∧
      (t.stack st).winStart = t.now ∧ ∀ k, k < 32 → (t.engine (st * 32 + k)).acts = []) ∧
    (st.val < s.nStacks → temp.toNat < 189 → Does (.memTempRead st temp) s (fun t => (t.stack st).temp = temp.toNat ∧ (t.stack st).lastRead = some s.now ∧
      (t.stack st).mult = multNext (s.stack st).mult (s.rf R.memRefCtrl 1 2) ((temp.toNat : Int) - 64) ∧ t.mode = s.mode)) ∧
    ((s.hchan (chanOfEngine e)).held = false → (s.hchan (chanOfEngine e)).fenced = false → (s.hchan (chanOfEngine e)).sr = 0 →
      let at_ := alignUp (s.mortarFree (chanOfEngine e) (max s.now (s.engine e).readyC)) (s.ckOf e)
      Does (.memRefreshDue e bank) s (fun t => t.now = max s.now at_ ∧ (t.engine e).readyC = at_ + s.ckOf e ∧ (t.engine e).rows =
        if bit (s.reg R.memRefCtrl) 0 then (s.engine e).rows.filter (fun r => r.1 % 16 ≠ bank.val) else [])) ∧
    (here → bit (s.reg R.memSrCtrl) 0 = true → empty → h.held = false → h.fenced = false → h.sr = 0 → Does (.memSrEntry c) s (fun t =>
      t.now = max s.now (h.idleSince + s.srIdle) ∧ t.hchan c = { h with sr := 1 } ∧ (t.engine (2 * c.val)).rows = [] ∧ (t.engine (2 * c.val + 1)).rows = [])) ∧
    (h.sr = 2 → Does (.memSrExitDone c dt) s (fun t => t.now = max s.now (h.srWake + min 36000 dt.toNat) ∧
      t.hchan c = { h with sr := 0, idleSince := t.now })) ∧
    ((s.stack st).rateBy = some x → (∀ k, k < 16 → (s.hchan (st * 16 + k)).attempt = 0 ∧ (s.hchan (st * 16 + k)).sweepHold = false) →
      s.fresh (alignUp (max s.now x) 128) 153 → Does (.memRateDone st) s (fun t => t.now = max s.now x ∧ (t.stack st).rate = s.rateReg st ∧
        (t.stack st).rateBy = none ∧ (∀ k, k < 16 → (t.hchan (st * 16 + k)).rateHold = false) ∧ s.occurred t (alignUp t.now 128) 153))

/-- From 16 R395 to R400, R419; 22 R553: the host link: PERST# and function resets and what they leave, readiness, link up, configuration
requests and what they answer, bus mastering, logged errors, and the BAR2 window.
Readings of the model that it rests on: log entries 16, 20, 40. -/
def Obligations.HostLinkComesUpAndResets : Prop :=
  ∀ (s : State) (f v : Fin 64) (r : ConfigReg) (w dt : W32) (lanes : Fin 5) (rate : Fin 6) (bme d3 corr : Bool) (k : Fin 32) (off : BitVec 36)
    (bs : List Byte) (x : Nat),
    let idle := s.tap.taps = [] ∧ s.tap.wait = false ∧ (∀ c, c < 32 → (s.dchan c).state = 0) ∧ (∀ c, c < 32 → s.findEntry (32 + c) 9 = none)
    let a := s.bar2Base + off.toNat
    let open_ := s.link.up = true ∧ (s.pfn 0).mse = true ∧ (s.pfn 0).d3 = false ∧ (s.pfn 0).flr = none ∧ off.toNat < 2 ^ s.link.bar2Exp
    (idle → s.fresh s.boundary 161 → Does .perstAssert s (fun t => t.link.perst = true ∧ t.link.up = false ∧ t.link.ready = false ∧
      t.link.downs = min (s.link.downs + 1) 0xFFFF ∧ t.link.fns = [] ∧ t.link.vfEnable = false ∧ t.link.cfg = [] ∧ t.evt.queue = [] ∧
      s.occurred t s.boundary 161 ∧ t.hbm = s.hbm ∧ t.cores.size = s.cores.size)) ∧
    (s.link.perst = true → Does .perstRelease s (fun t => t = { s with link := { s.link with perst := false, released := s.now } })) ∧
    (s.ticking → s.ks.held = false → s.link.perst = false → s.link.ready = false → Does .configReady s (fun t =>
      t = { s with now := max s.now (s.link.released + 9600000000), link := { s.link with ready := true } })) ∧
    (s.ticking → s.link.perst = false → s.fresh s.boundary 160 → Does (.hostLinkUp lanes rate) s (fun t =>
      t = { s.withEvents t with link := { s.link with width := 2 ^ lanes.val, rate := rate.val + 1, flit := decide (rate.val = 5), up := true, l1 := false } } ∧
      s.occurred t s.boundary 160 ∧ s.eventKept t 160 [])) ∧
    (s.ticking → s.link.up = true → s.link.ready = false → Does (.configRequest f r true w) s (fun t =>
      t = { s with link := { s.link with reply := (1, 0) } })) ∧
    (s.ticking → s.link.up = true → s.link.ready = true → (s.pfn f).flr = none → f ≠ 0 → s.link.vfEnable = false → Does (.configRequest f r false w) s (fun t =>
      t = { s with link := { s.link with reply := (2, 0) } })) ∧
    (s.ticking → s.link.up = true → s.link.ready = true → (s.pfn 0).flr = none → Does (.configRequest 0 .id false w) s (fun t =>
      t = { s with link := { s.link with reply := (0, pack [(0, 0x1D8A), (16, if s.is9620 then 0x9620 else 0x9640)]) } })) ∧
    (s.ticking → s.link.up = true → s.link.ready = true → (s.pfn 0).flr = none → Does (.configRequest 0 .command true w) s (fun t =>
      t.pfn 0 = { s.pfn 0 with mse := bit w 1, bme := bit w 2 } ∧ t.link.reply = (0, 0) ∧ t.regs = s.regs)) ∧
    (s.ticking → s.link.up = true → (s.pfn 0).flr = none → idle → s.fresh s.boundary 162 → Does .pfFlr s (fun t => t.link.up = true ∧
      (t.pfn 0).flr = some (s.now + 800000000) ∧ t.link.vfEnable = false ∧ s.occurred t s.boundary 162 ∧ t.evt.queue = [])) ∧
    (s.ticking → s.link.up = true → v ≠ 0 → s.link.vfEnable = true → (s.pfn v).flr = none → idle → s.fresh s.boundary 162 → Does (.vfFlr v) s (fun t =>
      t.pfn v = { PcieFn.reset with flr := some (s.now + 80000000) } ∧ s.occurred t s.boundary 162 ∧ t.pfn 0 = s.pfn 0)) ∧
    (s.ticking → s.ks.held = false → (s.pfn f).flr = some x → Does (.flrDone f dt) s (fun t => t.now = max s.now (min x (s.now + dt.toNat)) ∧
      t.pfn f = { s.pfn f with flr := none } ∧ t.regs = s.regs)) ∧
    (s.ticking → s.link.vfEnable = true → idle → Does .vfEnableClear s (fun t => t.link.vfEnable = false ∧ t.pfn 0 = s.pfn 0 ∧
      ∀ i, 0 < i → i < 64 → t.pfn i = PcieFn.reset)) ∧
    (s.ticking → f = 0 ∨ s.link.vfEnable = true → Does (.busMasterChange f bme d3) s (fun t => t.pfn f = { s.pfn f with bme := bme, d3 := d3 } ∧
      ∀ g : Fin 64, g ≠ f → t.pfn g = s.pfn g)) ∧
    (s.ticking → s.fresh s.boundary (if corr then 163 else 164) → Does (.aerError corr k) s (fun t =>
      bit (t.cfgWord 0 (if corr then .aerCorr else .aerUncorr)) k = true ∧ s.occurred t s.boundary (if corr then 163 else 164) ∧
      s.eventKept t (if corr then 163 else 164) [])) ∧
    (s.ticking → s.link.up = true → (s.pfn 0).mse = false → Does (.bar2Access off none 4 []) s (fun t =>
      t = { s with link := { s.link with bar2 := ([], false, true) } })) ∧
    (s.up → open_ → 0 < bs.length → a % 64 + bs.length ≤ 64 → s.lineStatus a = 0 → Does (.bar2Access off (some bs) 0 []) s (fun t =>
      t.dpaBytes a bs.length = bs ∧ s.regsKept t [R.memPortLines 17, R.memSrLate])) ∧
    (s.up → open_ → a % 64 ≤ 60 → s.lineStatus (a / 64 * 64) = 0 → Does (.bar2Access off none 4 []) s (fun t =>
      t.link.bar2 = (s.dpaBytes a 4, false, false) ∧ t.hbm = s.hbm ∧ s.regsKept t [R.memPortLines 17, R.memSrLate]))

/-- From 22 R543 to R546, R551; 21 R524; 16 R412: how events leave: a vector at the head of the queue becomes a message or a pending bit, a
coalescing limit makes a request, a mask written is in force, and WAKE_N follows the wake-pending condition.
Readings of the model that it rests on: log entries 16, 20. -/
def Obligations.EventsLeaveAsMessages : Prop :=
  ∀ (s : State) (src : Fin 256) (k : Fin 8) (w : W32) (enter : Bool) (v : Nat) (r : List Nat) (c : Coal), s.ticking → s.ks.held = false →
    let b := max s.boundary (s.evt.headAt + 128)
    let sends := s.evt.queue = v :: r ∧ (s.pfn 0).msixEn = true ∧ s.busMaster 0 = true ∧ s.link.up = true ∧ s.link.l1 = false ∧ v < 2048 ∧
      ∀ i, i < 64 → s.reg (R.evtOvfVec i) = 0
    let route := s.reg (R.evtMsixRoute src)
    (sends → (s.pfn 0).msixMask = false → bit (s.msixWord 0 v 3) 0 = false → Does .evtMsixSend s (fun t => t.now = b ∧ t.evt.queue = r ∧
      t.evt.sent = (0, v) :: s.evt.sent ∧
      t.hostMem = Mem.write s.hostMem (join (s.msixWord 0 v 0) (s.msixWord 0 v 1)) (leBytes 4 (s.msixWord 0 v 2).toNat) ∧ s.regsKept t [])) ∧
    (sends → bit (s.msixWord 0 v 3) 0 = true → Does .evtMsixSend s (fun t => t.evt.queue = r ∧ t.evt.sent = s.evt.sent ∧
      t.link.pba.contains v = true ∧ t.hostMem = s.hostMem)) ∧
    (Assoc.get ⟨0, 0⟩ s.evt.coal src.val = c → c.c ≠ 0 → fld route 20 12 ≠ 0 → s.evtOff src = false → s.evt.queue = [] → Does (.evtCoalTimeout src) s (fun t =>
      t.now = max s.now (alignUp (c.t1 + fld route 20 12 * 8192) 128) ∧ t.evt.queue = [fld route 0 11] ∧ Assoc.get ⟨0, 0⟩ t.evt.coal src.val = ⟨0, 0⟩ ∧
      t.regs = s.regs)) ∧
    Does (.evtMaskWrite k w) s (fun t => t.reg (R.evtMask k) = w ∧ (∀ j : Fin 8, j ≠ k → t.reg (R.evtMask j) = s.reg (R.evtMask j)) ∧
      (∀ j : Fin 8, t.reg (R.evtStatus j) = s.reg (R.evtStatus j)) ∧
      ∀ i : Fin 32, bit w i = true → Assoc.get ⟨0, 0⟩ t.evt.coal (k * 32 + i) = ⟨0, 0⟩) ∧
    Does .wake s (fun t => t = { s with evt := { s.evt with wakeN := s.wakeLow } }) ∧
    (s.link.up = true → Does (.aspmL1 enter) s (fun t => t = { s with link := { s.link with l1 := enter }, evt := { s.evt with wakeN := enter && s.wakePending } }))

/-- From 16 R404, R415 to R417: taps are set up and stopped: contexts are read and written by their owner, ENABLE checks and starts a tap,
DISABLE and ABORT stop it and the stop completes, doorbells move the consumer count, and owners are assigned.
Readings of the model that it rests on: log entry 31. -/
def Obligations.TapsStartAndStop : Prop :=
  ∀ (s : State) (f : Fin 64) (tb : BitVec 12) (w : W32) (o : Byte), s.up → s.ks.held = false →
    let n := (s.tapPort f).sel
    let x := s.tapOf n
    let y := s.tapOf tb.toNat
    let own := s.tapOwner n = f.val
    let left := (y.p + 2 ^ 32 - w.toNat) % 2 ^ 32
    (own → Does (.tapCtxRead f) s (fun t => t.tapPort f = { s.tapPort f with data := x.ctx, status := 0 } ∧ t.tap.taps = s.tap.taps)) ∧
    (s.tapOwner n ≠ f.val → Does (.tapCtxRead f) s (fun t => t.tapPort f = { s.tapPort f with status := 1 } ∧ t.tap.taps = s.tap.taps)) ∧
    (own → x.state = 0 → Does (.tapCtxWrite f) s (fun t => t.tapOf n = { x with ctx := modAt (s.tapPort f).data 15 (fun _ => x.w 15) } ∧
      (t.tapPort f).status = 0 ∧ ∀ m, m ≠ n → t.tapOf m = s.tapOf m)) ∧
    (own → x.state ≠ 0 → Does (.tapCtxWrite f) s (fun t => t.tap.taps = s.tap.taps ∧ (t.tapPort f).status = 2)) ∧
    (own → x.state = 0 → s.tapConfigOk n f = true → x.kind = 0 → bit (x.w 0) 3 = false → Does (.tapEnable f) s (fun t => t.now = boundaryAfter s.now ∧
      (t.tapOf n).state = 1 ∧ (t.tapOf n).p = 0 ∧ (t.tapOf n).c = 0 ∧ (t.tapOf n).seq = 0 ∧ (t.tapOf n).lost = 0 ∧ (t.tapOf n).item = none ∧
      (t.tapOf n).pos = s.reg64 (R.dirCreated x.src) ∧ (t.tapPort f).status = 0 ∧ ∀ m, m ≠ n → t.tapOf m = s.tapOf m)) ∧
    (own → x.state = 0 → s.tapConfigOk n f = false → Does (.tapEnable f) s (fun t => t.tap.taps = s.tap.taps ∧ (t.tapPort f).status = 3)) ∧
    (own → x.state = 1 → x.item = none → Does (.tapDisable f) s (fun t => t.tapOf n = { x with state := 2, abort := false } ∧ (t.tapPort f).status = 0 ∧
      t.record.tapPins = s.record.tapPins.filter (fun e => e.1 ≠ n))) ∧
    (own → x.state = 4 → Does (.tapDisable f) s (fun t => t.tapOf n = { x with state := 0 } ∧ (t.tapPort f).status = 0)) ∧
    (own → x.state = 1 → Does (.tapAbort f) s (fun t => t.tapOf n = { x with state := 2, abort := true, item := none, deficit := 0 } ∧
      t.record.tapPins = s.record.tapPins.filter (fun e => e.1 ≠ n))) ∧
    (y.state = 2 → y.abort = true → Does (.tapStopDone tb) s (fun t => t.tapOf tb.toNat = { y with state := 0, abort := false } ∧ t.hostMem = s.hostMem)) ∧
    (y.state = 2 → y.abort = false → y.item = none → s.busMaster (s.tapOwner tb.toNat) = true → Does (.tapStopDone tb) s (fun t =>
      (t.tapOf tb.toNat).state = 0 ∧ t.hostMem = Mem.write s.hostMem (y.w64 4) (leBytes 8 y.p))) ∧
    (s.tapOwner tb.toNat = f.val → w.toNat % 64 = 0 → left ≤ y.p → Does (.tapDoorbell f tb w) s (fun t =>
      t.tapOf tb.toNat = { y with db := w, c := y.p - left } ∧ ∀ m, m ≠ tb.toNat → t.tapOf m = s.tapOf m)) ∧
    (s.tapOwner tb.toNat = f.val → w.toNat % 64 ≠ 0 → Does (.tapDoorbell f tb w) s (fun t => t.tapOf tb.toNat = { y with dbErr := true })) ∧
    (y.state = 0 → Does (.tapOwnerWrite tb o) s (fun t => t.tapOwner tb.toNat = o.toNat % 64 ∧ t.tap.taps = s.tap.taps ∧
      ∀ m, m ≠ tb.toNat → t.tapOwner m = s.tapOwner m)) ∧
    (y.state ≠ 0 → Does (.tapOwnerWrite tb o) s (fun t => t = s))

/-- From 16 R402, R403, R405, R407 to R412: a running tap takes a sealed entry or a published slot and pins it, gathers the lines of its item,
writes the record and its producer count to the host, drops the pin, and is stopped by a line that never returns; its interrupt follows.
Readings of the model that it rests on: log entries 15, 31. -/
def Obligations.TapsDeliverRecords : Prop :=
  ∀ (s : State) (tb : BitVec 12) (first : W64) (g : Seg) (i : TapItem) (a len slot : Nat) (ends : Bool) (r : List (Nat × Nat × Bool)), s.up →
    s.ks.held = false →
    let n := tb.toNat
    let x := s.tapOf n
    let p := x.src
    let bs := s.readLine (s.slotAddr p x.pos)
    let page := s.pageBase p + slot * 2 ^ 24
    let at_ := fun (b : Nat) => if s.tapLimit = none then b else max b s.tap.lineAt
    let e := wordsOf bs
    let word := fun k => e.getD k 0
    let takes := x.state = 1 ∧ s.tapWorks n = true ∧ x.item = none
    let k := min len (64 - a % 64)
    let got := ((s.readLine (a / 64 * 64)).drop (a % 64)).take k
    let need := x.needs (i.payload x)
    let later := s.elapsedOf first.toNat + fld (x.w 14) 16 16 * 8192
    (takes → x.kind = 0 → x.skip = none → x.pos < s.reg64 (R.dirSealed p) → s.lineStatus (s.slotAddr p x.pos) = 0 → word 15 = ~~~ word 14 →
      fld (word 14) 4 28 = x.pos % 2 ^ 28 → fld (word 14) 0 4 = 10 → Does (.tapSegmentTake tb) s (fun t => t.now = at_ s.boundary ∧
        ∃ y, (t.tapOf n).item = some y ∧ y.typ = 2 ∧ y.words = lostWords x.pos p 1 ∧ y.next = x.pos + 1 ∧ y.holds = false)) ∧
    (takes → x.kind = 0 → x.skip = none → x.pos < s.reg64 (R.dirSealed p) → s.lineStatus (s.slotAddr p x.pos) = 0 → word 15 = ~~~ word 14 →
      fld (word 14) 4 28 = x.pos % 2 ^ 28 → fld (word 14) 0 4 = 5 → twinOk (e.take 6) = true → twinOk ((e.drop 6).take 4) = true →
      twinOk (e.drop 14) = true → bit (word 12) 2 = false → bit (x.w 1) 8 = true → bit (x.w 1) 10 = false → fld (word 12) 24 8 &&& fld (x.w 1) 0 8 ≠ 0 →
      (s.dir p).segs.find? (fun y => y.seq == x.pos) = some g → g.lost = false → s.windowIntact g = true → Does (.tapSegmentTake tb) s (fun t =>
        t.now = at_ s.boundary ∧ t.record.tapPins = (n, p, x.pos) :: s.record.tapPins ∧ ∃ y, (t.tapOf n).item = some y ∧ y.typ = 1 ∧ y.holds = true ∧
        y.buf = bs ∧ y.off = 0 ∧ y.next = x.pos + 1)) ∧
    (takes → x.kind = 2 → (s.ch p).published = some slot → (s.reg (R.churnSnapSeq p)).toNat ≠ x.pos → p < 8 →
      s.lineStatus page = 0 → (wordsOf (s.readLine page)).drop 14 = [sealWord 5 (s.reg (R.churnSnapSeq p)).toNat, ~~~ sealWord 5 (s.reg (R.churnSnapSeq p)).toNat] →
      fld (x.w 1) 11 5 = 1 → Does (.tapChurnTake tb) s (fun t => t.now = at_ s.boundary ∧ (t.ch p).holds = (slot, n) :: (s.ch p).holds ∧
        ∃ y, (t.tapOf n).item = some y ∧ y.typ = 5 ∧ y.spans = [(page, 64, true)] ∧ y.total = 64 ∧ y.holds = true)) ∧
    (s.tapWorks n = true → x.item = some i → i.spans = (a, len, ends) :: r → ends = false → x.room (i.payload x) = true → i.buf.length < i.payload x →
      fld (x.w 12) 0 15 = 0 → s.lineStatus (a / 64 * 64) = 0 → Does (.tapLineReturn tb 0) s (fun t => t.now = at_ s.now ∧ ∃ y, (t.tapOf n).item = some y ∧
        y.buf = i.buf ++ got ∧ y.spans = (if k = len then r else (a + k, len - k, ends) :: r) ∧ y.poison = i.poison ∧ y.off = i.off)) ∧
    (s.tapWorks n = true → x.item = some i → i.typ = 3 → s.tapStale x i = none → i.holds = false → x.room (i.payload x) = true → i.payload x ≤ i.buf.length →
      i.off + i.payload x = i.total → need.2 = 0 → bit (x.w 0) 8 = false → Does (.tapRecordDone tb) s (fun t =>
        (t.tapOf n).p = x.p + 64 + i.payload x ∧ (t.tapOf n).seq = (x.seq + 1) % 2 ^ 64 ∧ (t.tapOf n).item = none ∧ (t.tapOf n).pos = i.next ∧
        Mem.read t.hostMem (x.w64 4) 8 = leBytes 8 (x.p + 64 + i.payload x))) ∧
    (s.tapWorks n = true → x.item = some i → i.typ = 2 → i.holds = false → i.buf = [] → i.off = 0 → i.total = 0 → x.room 0 = true →
      bit (x.w 0) 8 = false → s.fresh s.boundary 166 → Does (.tapRecordDone tb) s (fun t => (t.tapOf n).lost = min (x.lost + 1) 0xFFFFFF ∧
        (t.tapOf n).item = none ∧ (t.tapOf n).pos = i.next ∧ s.occurred t s.boundary 166)) ∧
    (x.item = some i → i.holds = true → i.spans = [] → i.typ = 5 → i.off = i.total → x.kind = 2 → p < 8 → Does (.tapItemDone tb) s (fun t =>
      (t.tapOf n).item = none ∧ (t.tapOf n).pos = i.next ∧ (t.ch p).holds = (s.ch p).holds.filter (fun h => h.2 ≠ n))) ∧
    (takes → x.kind = 1 → fld (x.w 14) 16 16 ≠ 0 → (s.advance later).streamItem n true = some i → Does (.tapStreamFlush tb first) s (fun t =>
      t.now = max s.now later ∧ t.tapOf n = { x with item := some i, skip := none } ∧ t.regs = s.regs)) ∧
    (x.item = some i → i.spans = (a, len, ends) :: r → s.tapWorks n = true → Does (.tapLineTimeout tb) s (fun t => (t.tapOf n).state = 4 ∧
      (t.tapOf n).cause = 1 ∧ (t.tapOf n).item = none ∧ t.record.tapPins = s.record.tapPins.filter (fun e => e.1 ≠ n) ∧ s.now ≤ t.now)) ∧
    (bit (x.w 0) 8 = true → fld (x.w 13) 19 13 ≠ 0 → x.recs ≠ 0 → (s.pfn (s.tapOwner n)).msixEn = true → (s.pfn (s.tapOwner n)).msixMask = false →
      bit (s.msixWord (s.tapOwner n) (fld (x.w 13) 0 11) 3) 0 = false → Does (.tapIrqTime tb) s (fun t => t.tapOf n = { x with recs := 0 } ∧
        t.now = max s.now (x.recAt + fld (x.w 13) 19 13 * 8192) ∧ t.evt.sent = (s.tapOwner n, fld (x.w 13) 0 11) :: s.evt.sent))

/-- From 17 R421, R428, R434, R436 to R438; 12 R333: commands of a DMA channel: GO, RESUME, SKIP and ABORT in the states that take them, from
the host on a channel of its own and by DSTART on one of the control plane's, a doorbell, and the owners.
Readings of the model that it rests on: log entry 32. -/
def Obligations.DmaTakesCommands : Prop :=
  ∀ (s : State) (c : Fin 32) (q : Fin 16) (w : W32), s.up →
    let x := s.dchan c
    let host := s.dmaOwned c = false
    let paused := x.srcSpace = 1 ∧ s.hostPaused = true ∧ x.rate ≤ 2048
    let refused := fun (t : State) => t.dchan c = { x with cmdErr := true } ∧ t.regs = s.regs
    let from_ := fun (skip : Bool) (t : State) => (t.dchan c).state = 2 ∧ (t.dchan c).next = (if skip then x.failIdx + 1 else x.failIdx) ∧
      (t.dchan c).nextOff = (if skip then 0 else x.failOff) ∧ bit (t.dchan c).errInfo 25 = false ∧ ∀ d : Fin 32, d ≠ c → t.dchan d = s.dchan d
    (host → x.state = 0 → bit (x.w 4) 20 = false → x.setOk false = true → paused → Does (.dmaGo .host c) s (fun t => (t.dchan c).state = 2 ∧
      (t.dchan c).next = 0 ∧ (t.dchan c).remain = x.total ∧ (t.dchan c).flight = [] ∧ (t.dchan c).set = x.set ∧
      ∀ d : Fin 32, d ≠ c → t.dchan d = s.dchan d)) ∧
    (host → x.state = 0 → bit (x.w 4) 20 = false → x.setOk false = false → s.findEntry (32 + c) 9 = none → s.fresh s.boundary (176 + c) →
      Does (.dmaGo .host c) s (fun t => (t.dchan c).state = 0 ∧ (t.dchan c).result = 3 ∧ s.occurred t s.boundary (176 + c))) ∧
    (host → x.state = 6 → Does (.dmaGo .host c) s (fun t => t.dchan c = { x with state := 1, cur := BitVec.ofNat 64 x.cur.toNat, seen := x.doorbell, load := some (x.cur.toNat, x.curSpace, false, s.now) })) ∧
    (host → x.state = 2 → Does (.dmaGo .host c) s (fun t => t.dchan c = { x with doorbell := x.doorbell + 1 })) ∧
    (host → x.state = 4 → Does (.dmaGo .host c) s refused) ∧
    (s.dmaOwned c = true → Does (.dmaGo .host c) s (fun t => t = s)) ∧
    (s.ready q (.dstart c 0 0 0) → s.dmaOwned c = true → x.state = 0 → Does (.dmaGo (.core q) c) s (fun t => (t.dchan c).state = 1 ∧
      (t.dchan c).cur = BitVec.ofNat 64 (0x3F800 + 64 * c) ∧ (t.dchan c).curSpace = 2 ∧ (s.core q).keepsBut (t.core q) [] ∧
      (s.core q).wentOn (s.startEdge q) 1 ((s.core q).pc + 1) (t.core q))) ∧
    (s.ready q (.dstart c 0 0 0) → s.dmaOwned c = false → Does (.dmaGo (.core q) c) s (fun t => (t.core q).run = .faulted ∧
      (t.core q).info = BitVec.ofNat 32 c ∧ (t.core q).cause = pack [(0, 0x0C), (8, (s.core q).pc.toNat % 4096)] ∧ (t.dchan c).state = x.state)) ∧
    (host → x.state = 4 → bit x.errInfo 1 = false → paused → Does (.dmaResume .host c) s (from_ false)) ∧
    (host → x.state = 0 → Does (.dmaResume .host c) s refused) ∧
    (host → x.state = 4 → bit x.errInfo 1 = false → paused → Does (.dmaSkip .host c) s (from_ true)) ∧
    (host → x.state = 2 → Does (.dmaAbort .host c) s (fun t => t.dchan c = { x with state := 7, load := none })) ∧
    (host → x.state = 0 → Does (.dmaAbort .host c) s refused) ∧
    (host → x.state ≠ 6 → Does (.dmaDoorbell c w) s (fun t => t.dchan c = { x with doorbell := w })) ∧
    (host → x.state = 6 → Does (.dmaDoorbell c w) s (fun t => (t.dchan c).state = 1 ∧ (t.dchan c).doorbell = w ∧ (t.dchan c).seen = w)) ∧
    Does (.dmaOwnerWrite w) s (fun t => ∀ d : Fin 32, bit t.dma.owner d =
      (if (s.dchan d).state = 0 ∨ (s.dchan d).state = 6 then bit w d else bit s.dma.owner d))

/-- From 17 R426, R430 to R434, R436, R437: what a DMA channel's transfers do: data that return are written, a set completes and is reported,
with a fence once its read has returned, an end marker ends the chain, a burst that never returns halts the channel, an abort ends.
Readings of the model that it rests on: log entries 15, 32. -/
def Obligations.DmaMovesAndEnds : Prop :=
  ∀ (s : State) (c : Fin 32) (b : Burst) (a : Nat) (again : Bool) (when_ : Nat) (i : Fin 16), s.up → s.ks.held = false → s.findEntry (32 + c) 9 = none →
    let x := s.dchan c
    let quiet := ∀ j ∈ s.smemJobs, j.store = false
    let ended := fun (t : State) => (t.dchan c).state = 0 ∧ (t.dchan c).result = 1 ∧ s.occurred t s.boundary (176 + c)
    (quiet → x.flight = [b] → b.data = none → x.state = 2 → x.srcSpace = 2 → x.dstSpace = 2 → spaceBad 2 b.dst b.len = false → bit x.errInfo 25 = false →
      x.total ≤ x.next → Does (.dmaBurstReturn c 0 [] []) s (fun t => t.smem = Mem.write s.smem b.dst (Mem.read s.smem b.src b.len) ∧
        (t.dchan c).flight = [] ∧ (t.dchan c).state = 2 ∧ t.regs = s.regs ∧ t.hbm = s.hbm)) ∧
    (x.state = 2 → x.flight = [] → x.total ≤ x.next → bit (x.w 4) 21 = true → Does (.dmaSetComplete c) s (fun t =>
      t.dchan c = { x with state := 3, fenceAt := s.now })) ∧
    (x.state = 2 → x.flight = [] → x.total ≤ x.next → bit (x.w 4) 21 = false → bit (x.w 4) 22 = true → bit (x.w 4) 19 = false →
      s.fresh s.boundary (176 + c) → Does (.dmaSetComplete c) s ended) ∧
    (x.state = 3 → bit (x.w 4) 22 = true → bit (x.w 4) 19 = false → s.fresh s.boundary (176 + c) → Does (.dmaFenceDone c) s ended) ∧
    (x.state = 3 → bit (x.w 4) 22 = false → bit (x.w 4) 19 = true → Does (.dmaFenceDone c) s (fun t => (t.dchan c).state = 1 ∧
      (t.dchan c).result = 1 ∧ (t.dchan c).load = some (join (x.w 14) (x.w 15), x.f4 17 2, false, s.now))) ∧
    (quiet → x.load = some (a, 2, again, when_) → x.state = 1 → spaceBad 2 a 64 = false → bit ((Mem.words s.smem a 16).getD 4 0) 20 = true →
      x.doorbell = x.seen → s.fresh s.boundary (176 + c) → Does (.dmaSetLoadDone c 0 []) s (fun t => (t.dchan c).state = 6 ∧
        (t.dchan c).set = Mem.words s.smem a 16 ∧ s.occurred t s.boundary (176 + c))) ∧
    (quiet → x.load = some (a, 2, again, when_) → x.state = 1 → spaceBad 2 a 64 = false → bit ((Mem.words s.smem a 16).getD 4 0) 20 = true →
      x.doorbell ≠ x.seen → Does (.dmaSetLoadDone c 0 []) s (fun t => (t.dchan c).state = 1 ∧ (t.dchan c).seen = x.doorbell ∧
        (t.dchan c).load = some (x.cur.toNat, x.curSpace, true, s.now))) ∧
    (x.load = none → x.flight[i.val]? = some b → x.state = 2 → b.data = none → x.srcSpace = 1 → bit x.errInfo 25 = false →
      let at_ := max s.now (b.issued + max 8000 (s.rf R.dmaTimeout 0 24) * 128)
      s.fresh (alignUp at_ 128) (176 + c) → Does (.dmaBurstTimeout c i) s (fun t => t.now = at_ ∧
        (t.dchan c).state = (if x.remain = 0 then 5 else 4) ∧ (t.dchan c).errAddr = BitVec.ofNat 64 b.src ∧ (t.dchan c).failIdx = b.idx ∧
        (t.dchan c).errInfo = pack [(0, 0), (2, 5), (5, b.off), (25, 1)] ∧ s.occurred t (alignUp at_ 128) (176 + c))) ∧
    (x.state = 7 → s.fresh s.boundary (176 + c) → Does (.dmaStopDone c) s (fun t => (t.dchan c).state = 0 ∧ (t.dchan c).result = 2 ∧
      (t.dchan c).flight = [] ∧ s.occurred t s.boundary (176 + c)))

/-- From 20 R490 to R493, R496, R499, R508; 21 R524: mailbox requests: information, readings, copies and settings are answered with their words;
an undefined command, a bad argument, a command not allowed to a program and one not served in RECOVERY are answered with their status.
Readings of the model that it rests on: log entries 7, 33. -/
def Obligations.ManagementAnswersRequests : Prop :=
  ∀ (s : State) (k : Nat),
    let x := s.mslot k
    let m := s.mgt
    let i := (x.arg 1).toNat
    let n := (x.arg 2).toNat
    let dst := join (x.arg 3) (x.arg 4)
    let bytes := (List.range n).flatMap (fun j => m.cairnBytes (i + j))
    (s.asked k 0x01 → Does .getInfo s (fun t => s.answered t k 0
      [m.version, m.slotVersion m.staging, pack [(0, m.epoch), (8, b2n m.cosign.isSome)], Config.serial 0, Config.serial 1] ∧
      s.onlyMgt t m [233, 244] ∧ t.mgt.last = k)) ∧
    (s.asked k 0x02 → i < 42 → Does .sensorRead s (fun t => s.answered t k 0 [(s.sensorValue i).1, BitVec.ofNat 32 (b2n (s.sensorValue i).2)] ∧
      s.onlyMgt t m [233, 244])) ∧
    (s.asked k 0x02 → 42 ≤ i → Does .sensorRead s (fun t => s.answered t k 3 [] ∧ s.onlyMgt t m [233, 244])) ∧
    (s.asked k 0x03 → s.mode.mode ≠ 0 → i < 32768 → 1 ≤ n → n ≤ 32768 → dst % 64 = 0 → s.firstBad dst ((32 * n + 63) / 64) = none →
      Does .cairnCopy s (fun t => (∃ newest, s.answered t k 0 [newest, BitVec.ofNat 32 n]) ∧ t.hbm = (s.memPut 18 dst bytes).hbm ∧
        t.mgt = { m with slots := t.mgt.slots, last := k } ∧ (n ≤ 2 → t.dpaBytes dst (32 * n) = bytes))) ∧
    (s.asked k 0x04 → s.mode.mode ≠ 0 → s.firstBad (join (x.arg 1) (x.arg 2) / 64 * 64) ((join (x.arg 1) (x.arg 2) % 64 + 32768 + 63) / 64) = none →
      Does .lifetimeCopy s (fun t => s.answered t k 0 [BitVec.ofNat 32 m.life.ppm] ∧ t.mgt = { m with slots := t.mgt.slots, last := k })) ∧
    (s.asked k 0x04 → s.mode.mode = 0 → Does .lifetimeCopy s (fun t => s.answered t k 11 [] ∧ s.onlyMgt t m [233, 244])) ∧
    (s.asked k 0x05 → i < 8 → Does .settingsGet s (fun t =>
      s.answered t k 0 [if m.incompatible then setDefaults.getD i 0 else m.newest.items.getD i 0] ∧ s.onlyMgt t m [233, 244])) ∧
    (s.asked 0 0x06 → k = 0 → settingOk i n = true → m.incompatible = false → Does (.settingsSet true) s (fun t => s.answered t 0 0 [] ∧
      s.onlyMgt t { m with sets := t.mgt.sets } [233, 244] ∧ t.mgt.newest.seq = m.newest.seq + 1 ∧ t.mgt.newest.schema = m.schema ∧
      t.mgt.newest.items = modAt m.newest.items i (fun _ => x.arg 2))) ∧
    (s.asked 0 0x06 → k = 0 → settingOk i n = true → m.incompatible = false → Does (.settingsSet false) s (fun t => s.answered t 0 17 [] ∧
      s.onlyMgt t m [233, 244])) ∧
    (s.asked k 0x06 → k ≠ 0 → ∀ flash, Does (.settingsSet flash) s (fun t => s.answered t k 4 [] ∧ s.onlyMgt t m [233, 244])) ∧
    (s.ticking → m.state = 1 → s.nextSlot = some k → x.drop = false → mgtDefined x.cmd = false → Does .badCmd s (fun t => s.answered t k 2 [] ∧
      s.onlyMgt t m [233, 244])) ∧
    (s.ticking → m.state = 3 → s.nextSlot = some k → x.drop = false → x.cmd = 0x05 → fld (x.arg 0) 8 8 = 0 → i < 8 → Does .settingsGet s (fun t =>
      s.answered t k 11 [])) ∧
    (s.ticking → Does .mgtAnsAck s (fun t => t = { s with mgt := { m with slots := t.mgt.slots } } ∧ t.mslot 0 = { s.mslot 0 with valid := false } ∧
      ∀ j, j ≠ 0 → t.mslot j = s.mslot j))

/-- From 20 R501 to R507, R509, R510: an update goes through its states: a begun update has an erased slot, chunks are stored in order, a
verified package has its record, activation and revert write the pointer and restart, a confirm ends the window, and the customer key hash
is fused once.
Readings of the model that it rests on: log entries 33, 35. -/
def Obligations.UpdatesFollowTheirStates : Prop :=
  ∀ (s : State) (kw co gcm : Bool) (h : List W32),
    let x := s.mslot 0
    let m := s.mgt
    let w1 := (x.arg 1).toNat
    let w2 := (x.arg 2).toNat
    let src := join (x.arg 3) (x.arg 4)
    let base := slotBase m.staging
    let idle := s.fg.phase = 0 ∧ s.tmr.cal.phase = 0 ∧ s.mem.sweep = none ∧ s.mem.testing = 0
    let room := m.ptr.seq + 1 < 2 ^ 32 ∧ m.slot ≤ 1
    let chunk := s.asked 0 0x21 ∧ m.upd = 1 ∧ w1 = m.received ∧ w1 % 65536 = 0 ∧ 1 ≤ w2 ∧ w2 ≤ 65536 ∧ w1 + w2 ≤ m.pkgLen ∧
      (w2 = 65536 ∨ w1 + w2 = m.pkgLen) ∧ s.mode.mode ≠ 0 ∧ s.firstBad (src / 64 * 64) ((src % 64 + w2 + 63) / 64) = none
    (s.asked 0 0x20 → m.upd ≠ 4 → 512 ≤ w1 → w1 ≤ 0xFFF000 → Does (.updBegin true) s (fun t => s.answered t 0 0 [BitVec.ofNat 32 m.staging] ∧
      s.onlyMgt t { m with flash := t.mgt.flash, pkgLen := w1, received := 0, upd := 1 } [233, 235, 244] ∧
      ∀ a, t.mgt.flashByte a = if base ≤ a ∧ a < base + 0x1000000 then 0xFF else m.flashByte a)) ∧
    (s.asked 0 0x20 → m.upd = 4 → 512 ≤ w1 → w1 ≤ 0xFFF000 → Does (.updBegin true) s (fun t => s.answered t 0 11 [] ∧ s.onlyMgt t m [233, 244])) ∧
    (chunk → Does (.updChunk true) s (fun t => s.answered t 0 0 [] ∧ t.mgt.received = w1 + w2 ∧
      t.mgt.upd = (if w1 + w2 = m.pkgLen then 2 else 1) ∧ t.hbm = s.hbm ∧ t.mgt.ptr.slot = m.ptr.slot ∧
      ∀ bs, (s.mgtGet src w2).1 = some bs → w1 = 0 → bs.getD 6 0 = 1 → w2 = 65536 → w2 ≠ m.pkgLen → t.mgt.flashBytes base w2 = bs)) ∧
    (s.asked 0 0x21 → m.upd ≠ 1 → w1 % 65536 = 0 → 1 ≤ w2 → w2 ≤ 65536 → Does (.updChunk true) s (fun t => s.answered t 0 11 [] ∧
      s.onlyMgt t m [233, 244])) ∧
    (s.asked 0 0x22 → m.upd = 2 → s.verifyStatus kw co gcm = 0 → Does (.updVerify kw co gcm true) s (fun t => t.mgt.verified m.staging = true ∧
      (∃ ws, s.answered t 0 0 (m.slotWord m.staging 8 :: ws)) ∧ s.onlyMgt t { m with flash := t.mgt.flash, upd := 3 } [233, 235, 244] ∧
      ∀ a, a < verifiedAt m.staging ∨ verifiedAt m.staging + 32 ≤ a → t.mgt.flashByte a = m.flashByte a)) ∧
    (s.asked 0 0x22 → m.upd = 2 → s.verifyStatus kw co gcm ≠ 0 → Does (.updVerify kw co gcm true) s (fun t =>
      s.answered t 0 (s.verifyStatus kw co gcm) [] ∧ s.onlyMgt t m [233, 244])) ∧
    (s.asked 0 0x23 → m.upd = 3 → s.mode.mode = 5 ∨ s.setting 4 = 1 → idle → room → Does (.updActivate true) s (fun t => s.answered t 0 0 [] ∧
      t.mgt.state = 2 ∧ t.mgt.cause = 3 ∧ t.mgt.ptr.slot = m.staging ∧ t.mgt.ptr.prov = true ∧ t.mgt.ptr.version = m.slotVersion m.staging ∧
      t.mgt.ptr.previous = m.version ∧ t.mgt.bootCount = 0 ∧ t.mgt.lifeNewest = m.life ∧ t.permits.hold = true ∧ t.mgt.due = s.now + 32000000000)) ∧
    (s.asked 0 0x23 → m.upd = 3 → s.mode.mode ≠ 5 → s.setting 4 ≠ 1 → Does (.updActivate true) s (fun t => s.answered t 0 5 [] ∧
      s.onlyMgt t m [233, 244])) ∧
    (s.asked 0 0x24 → m.upd = 4 → m.incompatible = false → room → Does (.updConfirm true) s (fun t => s.answered t 0 0 [] ∧
      s.onlyMgt t { m with flash := t.mgt.flash, boots := 0, epoch := max m.epoch (min 16 m.imgEpoch), upd := 0 } [233, 235, 244] ∧
      t.mgt.ptr.slot = m.slot ∧ t.mgt.ptr.prov = false ∧ t.mgt.ptr.version = m.version ∧ t.mgt.bootCount = 0)) ∧
    (s.asked 0 0x25 → m.upd = 4 → room → Does (.updRevert true) s (fun t => s.answered t 0 0 [] ∧ t.mgt.state = 2 ∧ t.mgt.cause = 4 ∧
      t.mgt.ptr.slot = 1 - m.ptr.slot ∧ t.mgt.ptr.prov = false ∧ t.mgt.ptr.version = m.ptr.previous)) ∧
    (s.asked 0 0x26 → m.cosign = none → Does .cosignFuse s (fun t => s.answered t 0 0 [] ∧
      s.onlyMgt t { m with cosignHead := some ((x.req.drop 1).take 7) } [233, 244])) ∧
    (s.asked 0 0x27 → m.cosign = none → m.cosignHead = some h → Does .cosignFuseTail s (fun t => s.answered t 0 0 [] ∧
      s.onlyMgt t { m with cosign := some (h ++ (x.req.drop 1).take 5), cosignHead := none } [233, 244])) ∧
    (s.asked 0 0x27 → m.cosign ≠ none → Does .cosignFuseTail s (fun t => s.answered t 0 11 [] ∧ s.onlyMgt t m [233, 244]))

/-- From 01 R27; 05 R127, R144 to R148; 20 R490, R491: table installs and the foreground calibration: an install makes the saved or factory
tables current in both full scales; a calibration asks for its permit, is denied, goes step by step through its inputs, and installs the
tables it formed.
Readings of the model that it rests on: log entries 33, 34. -/
def Obligations.TablesAreCalibratedAndInstalled : Prop :=
  ∀ (s : State) (k : Nat) (vals : List W32) (bad : BitVec 24) (bads : BitVec 6),
    let x := s.mslot k
    let w := x.arg 1
    let mask := fld w 0 8
    let g := s.fg
    let n := g.todo.headD 0
    let b := alignUp (max s.now g.due) 128
    let on (sl : Nat) := mask.testBit (sl / 3) = true
    let intact := ∀ sl, sl < 24 → s.serving sl = true → s.tableFails sl = false
    let alert (sl : Nat) := 19 + 4 * s.headOf (sl / 3)
    let t0 (sl : Nat) := s.installTable sl 0
    let t1 (sl : Nat) := s.installTable sl 1
    (s.asked k 0x11 → argOnly w 0x1FF = true → mask < 2 ^ s.inputs → s.mode.mode = 1 ∨ s.mode.mode = 5 → g.phase ≠ 2 → intact → Does (.tableInstall bad) s (fun t =>
      s.answered t k 0 [] ∧ t.mgt = { s.mgt with slots := t.mgt.slots, last := k } ∧ t.permits = s.permits ∧
      ∀ sl, sl < 24 →
        (on sl → bad.getLsbD sl = false → (t.slice sl).tables = (((s.slice sl).install 0 (t0 sl).1 (t0 sl).2.1 (t0 sl).2.2 0 (s.countAt s.boundary)).install 1
          (t1 sl).1 (t1 sl).2.1 (t1 sl).2.2 0 (s.countAt s.boundary)).tables ∧ (t.slice sl).tablesLost = false) ∧
        (on sl → bad.getLsbD sl = true → t.slice sl = s.slice sl ∧ (s.fresh s.boundary (alert sl) → s.occurred t s.boundary (alert sl))) ∧
        (¬ on sl → t.slice sl = s.slice sl))) ∧
    (s.asked k 0x11 → argOnly w 0x1FF = true → mask < 2 ^ s.inputs → s.mode.mode ≠ 1 → s.mode.mode ≠ 5 → Does (.tableInstall bad) s (fun t =>
      s.answered t k 5 [] ∧ s.onlyMgt t s.mgt [233, 244])) ∧
    (s.asked k 0x10 → argOnly w 0x1FF = true → mask ≠ 0 → mask < 2 ^ s.inputs → s.mode.mode = 5 → g.phase = 0 →
      (∀ i ∈ bitsOf 8 (s.fgCovered mask), s.headOf i = i → bit (s.reg R.recArm) i = false ∧ s.churnOn i = false) → Does .fgCal s (fun t =>
        t.fg = { phase := 1, mask := s.fgCovered mask, save := bit w 8, todo := bitsOf 8 (s.fgCovered mask), step := 0, due := s.now + 8000000000
                 formed := [], eqs := [], heads := (bitsOf 8 (s.fgCovered mask)).filter (fun i => s.headOf i == i) } ∧
        t.mslot k = { x with running := true } ∧ t.conv = s.conv ∧ t.now = s.now)) ∧
    (s.asked k 0x10 → argOnly w 0x1FF = true → mask ≠ 0 → mask < 2 ^ s.inputs → s.mode.mode ≠ 5 → Does .fgCal s (fun t =>
      s.answered t k 5 [] ∧ s.onlyMgt t s.mgt [233, 244])) ∧
    (s.ticking → s.ks.held = false → g.phase = 1 → s.working k 0x10 → Does .fgCalPermitDenied s (fun t => t.fg = FgCal.reset ∧
      t.now = max s.now g.due ∧ s.answered t k 7 [] ∧ t.conv = s.conv ∧ t.mgt = { s.mgt with slots := t.mgt.slots })) ∧
    (s.up → s.ks.held = false → g.phase = 2 → g.step < 7 → g.step ≠ 5 → g.step ≠ 6 → Does (.fgCalStepDone vals bads) s (fun t =>
      t = { s with now := max s.now g.due, fg := t.fg, mgt := { s.mgt with fgOpen := s.mgt.fgOpen.map (fun o => (o.1, min (g.step + 1) 6)) } } ∧
      t.fg = { g with step := g.step + 1, due := g.due + fgStepMs (g.step + 1) * 80000000 })) ∧
    (s.up → s.ks.held = false → g.phase = 2 → g.step = 5 → Does (.fgCalStepDone vals bads) s (fun t => t.now = max s.now g.due ∧ t.conv = s.conv ∧
      t.fg = { g with step := 6, eqs := g.eqs ++ [(n, vals)], due := g.due + 800000000 })) ∧
    (s.up → s.ks.held = false → g.phase = 2 → g.step = 6 → Does (.fgCalStepDone vals bads) s (fun t => t.now = max s.now g.due ∧ t.conv = s.conv ∧
      t.fg.todo = g.todo.drop 1 ∧ t.fg.step = (if g.todo.drop 1 = [] then 7 else 1) ∧ t.fg.eqs = g.eqs ∧
      t.fg.formed = g.formed ++ ((upTo 6).filter (fun i => !bads.getLsbD i)).map (fun i =>
        (3 * n + i / 2, i % 2, vals.getD (3 * i) 0, vals.getD (3 * i + 1) 0, vals.getD (3 * i + 2) 0)) ∧
      ∀ i, i < 6 → bads.getLsbD i = true → s.fresh b (19 + 4 * s.headOf n) → s.occurred t b (19 + 4 * s.headOf n))) ∧
    (s.up → s.ks.held = false → g.phase = 2 → g.step = 7 → s.working k 0x10 → s.now ≤ g.due → intact →
      (∀ e ∈ g.eqs, e.1 < 8) → Does .fgCalInstall s (fun t => t.fg = FgCal.reset ∧
      t.now = b ∧ s.answered t k 0 [BitVec.ofNat 32 g.mask] ∧ t.mgt.fgOpen = none ∧
      (∀ h, h < 8 → g.heads = [h] → (s.inp h).running = true → (t.inp h).next = b + s.rotInterval h) ∧
      (g.save = false → t.mgt.saved = s.mgt.saved ∧ t.mgt.savedEqs = s.mgt.savedEqs) ∧
      (∀ sl f o gn sk, sl < 24 → g.formed = [(sl, f, o, gn, sk)] → (t.slice sl).tables = ((s.slice sl).install f o gn sk 1 (s.countAt b)).tables ∧
        (t.slice sl).tablesLost = false ∧ (g.save = true → t.mgt.saved.find? (fun e => e.1 == sl && e.2.1 == f) = some (sl, f, o, gn, sk))) ∧
      ∀ sl, sl < 24 → (∀ e ∈ g.formed, e.1 ≠ sl) → t.slice sl = { s.slice sl with since := (t.slice sl).since }))

/-- From 05 R149; 08 R218; 15 R387 to R389; 18 R443; 20 R490, R491: requests whose work goes on, and their ends: timer calibration, eye sweeps,
the self-tests, and the training of the display link.
Readings of the model that it rests on: log entries 33, 34. -/
def Obligations.SelfTestsAndSweepsAnswer : Prop :=
  ∀ (s : State) (k : Nat) (w : Sweep) (dt : BitVec 20) (pass : W64) (e : Fin 64) (bank : BitVec 4) (cell : BitVec 16) (lane : BitVec 8) (cores : BitVec 16) (lanes rate : Fin 4) (ok : Bool) (r : W64) (bs : List Byte),
    let x := s.mslot k
    let a1 := x.arg 1
    let sent : MSlot := { x with running := true }
    let m := s.mem.testing
    let mask := join a1 (x.arg 2)
    let fails (i : Fin 64) := m.testBit i = true ∧ pass.getLsbD i = false
    (s.asked k 0x12 → argOnly a1 0x3FF = true → s.tmr.cal.phase = 0 → s.mode.mode ≠ 0 → Does .tmrCal s (fun t => t.mslot k = sent ∧
      t.tmr.cal = { phase := 1, result := 1, units := fld a1 0 10, waiting := bitsOf 10 (fld a1 0 10), done := 0, failed := 0,
                    due := s.now + 8000000000, byMgt := true } ∧ t.tmr.items = s.tmr.items)) ∧
    (s.asked k 0x12 → argOnly a1 0x3FF = true → s.tmr.cal.phase ≠ 0 → Does .tmrCal s (fun t => s.answered t k 1 [s.tmrCalStatus] ∧
      s.onlyMgt t s.mgt [233, 244])) ∧
    (s.asked k 0x13 → argOnly a1 0x7F = true → fld a1 0 1 < s.nStacks → s.mode.mode = 5 → s.mem.sweep = none → Does .eyeSweep s (fun t =>
      t = { s with mgt := { s.mgt with slots := t.mgt.slots, last := k }, mem := { s.mem with sweep := some {
        chan := fld a1 0 1 * 16 + fld a1 1 4, apply := bit a1 5, save := bit a1 6, steps := 0, inStep := false, at_ := s.now, found := [] } } } ∧
      t.mslot k = sent)) ∧
    (s.up → s.ks.held = false → s.mem.sweep = some w → w.chan < 32 → w.inStep = false → w.steps < 1024 → (s.hchan w.chan).held = false →
      Does .eyeSweepStepStart s (fun t => t = { s with now := t.now, mem := t.mem } ∧
        t.now = max s.now (if w.steps = 0 then w.at_ else w.at_ + 160000) ∧ (t.hchan w.chan).held = true ∧
        t.mem.sweep = some { w with inStep := true, at_ := t.now, steps := w.steps + 1 } ∧ ∀ c, c ≠ w.chan → t.hchan c = s.hchan c)) ∧
    (s.up → s.ks.held = false → s.mem.sweep = some w → w.chan < 32 → w.inStep = true → (s.hchan w.chan).attempt = 0 → s.rateWaits (w.chan / 16) = false → Does (.eyeSweepStepEnd dt [] none) s (fun t =>
      t = { s with now := t.now, mem := t.mem } ∧ t.now = max s.now (w.at_ + min 160000 dt.toNat) ∧ (t.hchan w.chan).sweepHold = false ∧
      t.mem.sweep = some { w with inStep := false, at_ := t.now } ∧ t.mem.delays = s.mem.delays)) ∧
    (s.up → s.ks.held = false → s.mem.sweep = some w → w.chan < 32 → w.inStep = true → (s.hchan w.chan).attempt = 0 → s.rateWaits (w.chan / 16) = false → s.working k 0x13 →
      s.configured r.toNat bs.length = false → s.firstBad (r.toNat / 64 * 64) ((r.toNat % 64 + bs.length + 63) / 64) = none → Does (.eyeSweepStepEnd dt [] (some (r, bs))) s (fun t =>
        t.mem.sweep = none ∧ t.mem.delays = (if w.apply then putDelays s.mem.delays (s.sweepCentres w) else s.mem.delays) ∧
        t.mgt.flashDelays = (if w.save then putDelays s.mgt.flashDelays (s.sweepCentres w) else s.mgt.flashDelays) ∧
        s.answered t k 0 [loW r.toNat, hiW r.toNat])) ∧
    (s.asked k 0x14 → argOnly (x.arg 3) 1 = true → s.is9620 = false → s.mode.mode = 5 → m = 0 → s.mapped.any (s.regionHits mask) = false → mask ≠ 0 →
      Does .memSelftest s (fun t => t = { s with mgt := { s.mgt with slots := t.mgt.slots, last := k }, mem := { s.mem with testing := mask } } ∧
        t.mslot k = sent)) ∧
    (s.asked k 0x14 → argOnly (x.arg 3) 1 = true → s.is9620 = false → s.mode.mode = 5 → m = 0 → s.mapped.any (s.regionHits mask) = true →
      Does .memSelftest s (fun t => s.answered t k 9 [] ∧ s.onlyMgt t s.mgt [233, 244])) ∧
    (s.up → m ≠ 0 → s.working k 0x14 → Does (.memSelftestDone pass e bank cell none) s (fun t => t.mem.testing = 0 ∧ t.mem.repairs = s.mem.repairs ∧
      (∀ i, i < 64 → m.testBit i = true → Assoc.get 0 t.mem.lost i ≠ 0) ∧
      (∀ i, i < 64 → m.testBit i = false → Assoc.get 0 t.mem.lost i = Assoc.get 0 s.mem.lost i) ∧
      (m &&& pass.toNat = m → s.answered t k 0 [loW m, hiW m, 0, 0]) ∧
      (fails e → s.answered t k 19 [loW (m &&& pass.toNat), hiW (m &&& pass.toNat), loW (pathCell e bank.toNat cell.toNat).toNat, hiW (pathCell e bank.toNat cell.toNat).toNat]))) ∧
    (s.up → s.working k 0x14 → bit (x.arg 3) 0 = true → fails e → (∀ i : Fin 64, fails i → i.val / 2 = e.val / 2) →
      Does (.memSelftestDone pass e bank cell (some lane)) s (fun t => (pathHc (e / 2 / 16) (e / 2 % 16), lane.toNat) ∈ t.mem.repairs ∧
        (pathHc (e / 2 / 16) (e / 2 % 16), lane.toNat) ∈ t.mgt.laneRepairs ∧ t.mem.testing = 0)) ∧
    (s.up → m ≠ 0 → s.working k 0x14 → bit (x.arg 3) 0 = false → Does (.memSelftestDone pass e bank cell (some lane)) s (fun t =>
      t.mem.repairs = s.mem.repairs ∧ t.mem.testing = 0)) ∧
    (s.asked k 0x15 → argOnly a1 0xFFFF = true → s.mode.mode ≠ 0 → (∀ q : Fin 16, bit a1 q = true → (s.core q).run = .halted ∨ (s.core q).run = .faulted) →
      Does (.seqSelftest cores) s (fun t => s.onlyMgt t s.mgt [233, 244] ∧
        s.answered t k (if a1 &&& cores.setWidth 32 = a1 then 0 else 19) [a1 &&& cores.setWidth 32])) ∧
    (s.asked k 0x15 → argOnly a1 0xFFFF = true → s.mode.mode ≠ 0 → (∃ q : Fin 16, bit a1 q = true ∧ (s.core q).run = .running) →
      Does (.seqSelftest cores) s (fun t => s.onlyMgt t s.mgt [233, 244] ∧ s.answered t k 10 [])) ∧
    (s.asked k 0x16 → argOnly a1 0xF = true → fld a1 0 2 ≠ 3 → s.mode.mode ≠ 0 →
      let l := min lanes.val (fld a1 0 2)
      let q := min rate.val (fld a1 2 2)
      let st := if ok = false then 5 else if s.timing.carried l q then 2 else 4
      Does (.dpTrain lanes rate ok) s (fun t => t.dsp = { s.dsp with link := st, lanes := l, rate := q } ∧ (∀ a, raiseWrites 214 a = false → raiseWrites 233 a = false → raiseWrites 244 a = false → t.reg a = s.reg a) ∧
        s.answered t k (if ok then 0 else 19) [pack [(0, st), (3, l), (5, q)]])) ∧
    (s.up → s.ks.held = false → s.mem.sweep = some w → w.chan < 32 → w.inStep = true → (s.hchan w.chan).attempt = 0 → s.working k 0x13 → s.rateWaits (w.chan / 16) = true →
      s.mem.pendMasks = none → Does (.eyeSweepStepEnd dt [] none) s (fun t => t.mem.sweep = none ∧ t.mem.delays = s.mem.delays ∧
        t.now = max s.now (w.at_ + min 160000 dt.toNat) ∧ (t.stack (w.chan / 16)).rateBy = some (t.now + 800000) ∧ s.answered t k 18 []))

/-- From 18 R442 to R445, R448, R449, R457 to R459, R461, R463: the display: enabling and the frame starts, pending flips taken up together, the
pending timing, flip done, and the states of the link as the sink comes and goes.
Readings of the model that it rests on: log entry 38. -/
def Obligations.DisplayFramesAndLink : Prop :=
  ∀ (s : State) (bits : BitVec 5) (lost : Bool) (l : Fin 4) (i : Fin 10),
    let d := s.dsp
    let x := s.nextFrame
    let b := boundaryOf x
    let tm := timingOf (fun j => s.reg (R.dspTim j))
    let goes := s.up ∧ s.ks.held = false ∧ d.running = true ∧ x.2 ≠ 0 ∧ bit (s.reg R.dspCtrl) 0 = true ∧ s.now ≤ b
    (s.up → d.running = false → Does (.dspEnable true) s (fun t => t.reg R.dspCtrl = 1 ∧ s.regsKept t [R.dspCtrl] ∧ t = { s with regs := t.regs, dsp := t.dsp } ∧
      t.dsp = { d with running := true, first := true, startNum := s.boundary + 8192, startDen := 1 })) ∧
    (s.up → d.running = true → d.first = false → Does (.dspEnable false) s (fun t => t.reg R.dspCtrl = 0 ∧ s.regsKept t [R.dspCtrl] ∧ t.dsp = d)) ∧
    (goes → s.fresh b 208 → Does .dspFrameStart s (fun t => t.now = b ∧ t.dsp.startNum = x.1 ∧ t.dsp.startDen = x.2 ∧ t.dsp.first = false ∧
      t.dsp.frames = d.frames + 1 ∧ t.dsp.vblankKts = s.kts (s.countAt b) 0 false 9 ∧ s.occurred t b 208 ∧ t.dsp.flips = 0 ∧
      (d.flips = 0 → t.dsp.flipCount = d.flipCount ∧ t.reg (R.dspLayerM l (4 * i)) = s.reg (R.dspLayerM l (4 * i))) ∧
      (d.flips ≠ 0 → t.dsp.flipCount = d.flipCount + 1 ∧ t.dsp.flipDone = false ∧ t.dsp.flipKts = s.kts (s.countAt b) 0 false 9) ∧
      (d.flips.testBit l = true → (layerSettings l (fun j => s.reg (R.dspLayer l (4 * j)))).fit = true →
        t.reg (R.dspLayerM l (4 * i)) = s.reg (R.dspLayer l (4 * i))) ∧
      (d.flips.testBit l = true → (layerSettings l (fun j => s.reg (R.dspLayer l (4 * j)))).fit = false →
        t.reg (R.dspLayerM l (4 * i)) = s.reg (R.dspLayerM l (4 * i)) ∧ bit (t.reg R.dspFaultInfo) 17 = true))) ∧
    (goes → d.apply = true → tm.valid = true → d.link ≠ 2 → Does .dspFrameStart s (fun t => t.timing = tm ∧ t.dsp.status = 2 ∧ t.dsp.apply = false ∧
      t.dsp.blank = !(decide (tm.pclkM = s.timing.pclkM) && decide (tm.pclkN = s.timing.pclkN)))) ∧
    (goes → d.apply = true → tm.valid = false → Does .dspFrameStart s (fun t => t.timing = s.timing ∧ t.dsp.status = 3 ∧ t.dsp.blank = false ∧ t.dsp.apply = false)) ∧
    (s.up → s.ks.held = false → d.running = true → x.2 ≠ 0 → bit (s.reg R.dspCtrl) 0 = false → Does .dspFrameStart s (fun t => t.now = max s.now b ∧
      t.dsp.running = false ∧ t.dsp.frames = d.frames ∧ t.regs = s.regs)) ∧
    (s.up → Does (.dspFlipReq bits) s (fun t => t = { s with dsp := { d with flips := d.flips ||| bits.toNat } })) ∧
    (s.up → Does (.dspFlipCancel bits) s (fun t => t = { s with dsp := { d with flips := t.dsp.flips } } ∧
      ∀ j, j < 5 → t.dsp.flips.testBit j = (d.flips.testBit j && !bits.getLsbD j))) ∧
    (s.up → Does .dspModeApply s (fun t => t = { s with dsp := { d with apply := true, status := 1 } })) ∧
    (s.up → d.flipDone = false → s.fresh s.boundary 209 → Does .dspFlipDone s (fun t => t = { s.withEvents t with dsp := { d with flipDone := true } } ∧
      s.occurred t s.boundary 209 ∧ s.eventKept t 209 [])) ∧
    (s.ticking → d.hpd = false → s.fresh s.boundary 213 → Does .hpdConnect s (fun t => t = { s.withEvents t with dsp := { d with hpd := true } } ∧
      s.occurred t s.boundary 213 ∧ s.eventKept t 213 [])) ∧
    (s.ticking → d.hpd = true → s.fresh s.boundary 213 → Does .hpdDisconnect s (fun t => s.occurred t s.boundary 213 ∧
      t = { s.withEvents t with dsp := { d with hpd := false, link := if d.link = 1 ∨ d.link = 2 ∨ d.link = 4 then 0 else d.link } })) ∧
    (s.ticking → d.hpd = true → s.fresh s.boundary 213 → Does (.irqHpd lost) s (fun t => s.occurred t s.boundary 213 ∧
      t = { s.withEvents t with dsp := { d with irqHpd := true, link := if lost ∧ s.mgt.state = 1 ∧ (d.link = 2 ∨ d.link = 4) then 3 else d.link } }))

/-- From 18 R450, R455, R456: the layers read their lines, luma and then chroma, and keep the first
bad line with its cause; a layer that underruns or composes a bad line
faults: it is counted, recorded and raised, and reads no more in this frame.
Readings of the model that it rests on: log entries 15, 38. -/
def Obligations.LayersFetchAndFault : Prop :=
  ∀ (s : State) (l : Fin 4) (r cause : Nat) (line : BitVec 12), s.up → s.ks.held = false →
    let x := s.lset l
    let y := s.layer l
    let n := ceilDiv (x.width * x.sampleSize) 64
    let lines (a : Nat) := (List.range n).flatMap (fun j => s.readLine (a + 64 * j))
    let ready (a : Nat) := ∀ j, j < n → s.lineStatus (a + 64 * j) = 0
    let start := s.lineAt (s.timing.vtotal - s.timing.vactive + line.toNat)
    let end_ := max s.now (if start.2 = 0 then 0 else ceilDiv start.1 start.2)
    (y.next = some r → 4 ≤ x.format → ready (x.ybase + r * x.pitch) → Does (.dspLineFetch l []) s (fun t => t.hbm = s.hbm ∧
      (t.layer l).luma = ((r, lines (x.ybase + r * x.pitch)) :: y.luma).take 4 ∧ (t.layer l).chroma = y.chroma ∧
      (t.layer l).next = s.nextLine x (r + 1) ∧ (t.layer l).bad = y.bad ∧ ∀ j : Fin 4, j ≠ l → t.layer j = s.layer j)) ∧
    (y.next = some r → x.format < 4 → (∀ e ∈ y.chroma, e.1 ≠ x.chromaLine r) → ready (x.ybase + r * x.pitch) → ready (x.cbase + x.chromaLine r * x.pitch) →
      Does (.dspLineFetch l []) s (fun t => t.hbm = s.hbm ∧ (t.layer l).luma = ((r, lines (x.ybase + r * x.pitch)) :: y.luma).take 4 ∧
        (t.layer l).chroma = ((x.chromaLine r, lines (x.cbase + x.chromaLine r * x.pitch)) :: y.chroma).take 4 ∧ (t.layer l).bad = y.bad)) ∧
    (y.next = some r → y.bad = none → 0 < n → s.lineStatus (x.ybase + r * x.pitch) = 2 →
      Does (.dspLineFetch l []) s (fun t => (t.layer l).bad = some (r, 2))) ∧
    (s.dsp.running = true → s.dsp.first = false → s.dsp.blank = false → y.faultAt = none → x.enable = true → y.bad = some (r, cause) →
      (x.lineY r).toNat < s.timing.vactive → Does (.dspLayerFault l false line) s (fun t => (t.layer l).faultAt = some (x.lineY r).toNat ∧
        (t.layer l).next = none ∧ t.reg R.dspFaultInfo = pack [(0, l), (2, cause), (5, (x.lineY r).toNat % 4096), (17, 1)] ∧
        t.reg (R.dspFaultCount l) = satInc (s.reg (R.dspFaultCount l)) 1)) ∧
    (s.dsp.running = true → s.dsp.first = false → s.dsp.blank = false → y.faultAt = none → x.enable = true → line.toNat < s.timing.vactive → s.unread l line.toNat = true →
      s.fresh (alignUp end_ 128) 210 → Does (.dspLayerFault l true line) s (fun t => t.now = end_ ∧ (t.layer l).faultAt = some line.toNat ∧
        (t.layer l).next = none ∧ t.reg (R.dspFaultCount l) = satInc (s.reg (R.dspFaultCount l)) 1 ∧ s.occurred t (alignUp end_ 128) 210 ∧
        t.reg R.dspFaultInfo = pack [(0, l), (2, 1), (5, line.toNat), (17, 1)] ∧ s.eventKept t 210 [R.dspFaultCount l, R.dspFaultInfo] ∧
        ∀ j : Fin 4, j ≠ l → t.layer j = s.layer j)) ∧
    (s.unread l line.toNat = false → Does (.dspLayerFault l true line) s (fun t => t = s))

/-- From 19 R465, R466, R468 to R475, R477, R480 to R482: the sensor converter: a conversion ends into its sum or its result, results are written
with their status and hold tick, starts and injections wait for their turn, the converter powers down and starts up, and the excitation
outputs slew, limit and switch off.
Readings of the model that it rests on: log entry 39. -/
def Obligations.SensorConvertsAndDrives : Prop :=
  ∀ (s : State) (c : SConv) (v : W32) (r : SRes) (rest : List SRes) (i : Inject) (cd : Int) (ovr unl : Bool) (hd due edge : Nat) (cycles : BitVec 16)
    (src : BitVec 6) (g : Fin 8) (sp : BitVec 11) (k : Fin 4), s.up → s.ks.held = false →
    let y := s.sens
    let code := (clampCode v.toInt).1
    let clamped := (clampCode v.toInt).2
    let x := s.excOf k
    let stop := max s.now (x.since + 8000 * ((x.target - x.mvAt) + (x.mvAt - x.target)))
    let trig := Assoc.get 0 s.evt.last (s.rf R.sensSeqCtrl 6 8)
    (y.phase = .run c → c.injected = false → y.pass = true → y.restart = false → y.slot = none → y.done + 1 < c.avg → Does (.sensConvEnd v false) s (fun t =>
      t.now = max s.now c.stop ∧ t.sens.done = y.done + 1 ∧ t.sens.sum = y.sum + code ∧ t.sens.results = y.results ∧ t.sens.lastEnd = c.stop ∧
      t.sens.guard = clamped.isSome)) ∧
    (y.phase = .run c → c.injected = false → y.done + 1 = c.avg → y.clamp = none → clamped = none → Does (.sensConvEnd v false) s (fun t =>
      t.now = max s.now c.stop ∧ ∃ last, t.sens.results = y.results ++ [
        { entry := y.entry, code := (y.sum + code + (c.avg / 2 : Nat)) / (c.avg : Nat), ovr := false, inj := y.inj, unlocked := s.unlockedAt c.hold
          hold := c.hold, toMem := c.toMem, source := c.source, due := alignUp (c.stop + 256) 128, last := last }])) ∧
    (y.phase = .run c → c.injected = false → y.done + 1 = c.avg → clamped = some true → y.clamp = none → Does (.sensConvEnd v false) s (fun t =>
      ∃ last, t.sens.results = y.results ++ [
        { entry := y.entry, code := 131071, ovr := true, inj := y.inj, unlocked := s.unlockedAt c.hold
          hold := c.hold, toMem := c.toMem, source := c.source, due := alignUp (c.stop + 256) 128, last := last }])) ∧
    (y.phase = .run c → c.injected = true → y.slot = some i → i.edge ≤ c.start → Does (.sensConvEnd v false) s (fun t =>
      t.sens.slot = some { i with result := some (code, clamped.isSome, c.hold, s.unlockedAt c.hold, alignUp (c.stop + 256) 128) } ∧ t.sens.results = y.results)) ∧
    (y.results = r :: rest → r.entry < 16 → r.toMem = false → r.source < 44 → r.ovr = false → Does .sensResultWrite s (fun t =>
      t.sens.results = rest ∧ t.now = max s.now r.due ∧ t.reg (R.sensRes r.entry) = BitVec.ofInt 32 r.code ∧
      t.reg (R.sensResStat r.entry) = pack [(0, 0), (2, b2n r.inj), (3, b2n r.unlocked), (4, s.rf R.sensPassCount 0 16)] ∧
      t.reg64 (R.sensResTick r.entry) = s.stampAt r.hold ∧
      t.reg R.sensPassCount = (if r.last then satInc (s.reg R.sensPassCount) 1 else s.reg R.sensPassCount))) ∧
    (s.sensMode = 2 → y.seen < trig → y.latched = true → s.fresh (alignUp (max s.now (trig - 1)) 128) 227 → Does (.sensStartEvent false) s (fun t =>
      t.sens = { y with seen := trig } ∧ t.reg R.sensTrigDrop = satInc (s.reg R.sensTrigDrop) 1 ∧ s.occurred t (alignUp (max s.now (trig - 1)) 128) 227)) ∧
    (s.sensMode = 2 → y.seen < trig → y.latched = false → y.pass = true → Does (.sensStartEvent false) s (fun t =>
      t = { s with now := max s.now (trig - 1), sens := { y with seen := trig, latched := true } })) ∧
    (y.phase = .idle → (s.rf R.sensSeqCtrl 14 1 ≠ 1 ∨ s.sensMode = 0) → Does .sensPowerDown s (fun t =>
      t = { s with now := max s.now (y.lastEnd + 160000), sens := { y with phase := .down } })) ∧
    (y.phase = .starting edge → y.slot = none → y.pass = true → y.entry ≤ s.sensLast → s.entrySource y.entry < 48 → Does (.sensStartupDone false) s (fun t =>
      t.now = max s.now edge ∧ t.regs = s.regs ∧ t.sens.phase = .run (s.sensConv false (s.entrySource y.entry) (s.rf (R.sensEntry y.entry) 6 3)
        (s.rf (R.sensEntry y.entry) 9 11) (s.entryAvg y.entry) (bit (s.reg (R.sensEntry y.entry)) 24) edge))) ∧
    (y.phase = .memWait edge → y.slot = none → y.pass = true → y.entry ≤ s.sensLast → s.entrySource y.entry < 48 → Does (.sensMemWaitEnd cycles) s (fun t =>
      t.now = max s.now (max (edge + 2000 * cycles.toNat) (alignUp s.now 2000)) ∧ s.regsKept t [R.sensMemWait] ∧
      t.reg R.sensMemWait = satInc (s.reg R.sensMemWait) ((max (edge + 2000 * cycles.toNat) (alignUp s.now 2000) - edge) / 2000) ∧
      ∃ d, t.sens.phase = .run d ∧ d.source = s.entrySource y.entry)) ∧
    (s.mgt.state = 1 → src.toNat < 48 → y.slot = none → y.phase = .down → Does (.sensMgtInject src g sp) s (fun t =>
      t = { s with sens := { y with phase := .starting (alignUp s.now 2000 + 96000), slot := some {
        mgt := true, source := src.toNat, gainExp := g, samp := sp.toNat, prog := 0, kts := [], entry := 0, edge := alignUp s.now 2000, result := none } } })) ∧
    (s.mgt.state = 1 → src.toNat < 48 → y.slot = some i → i.mgt = true → s.fresh s.boundary 228 → Does (.sensMgtInject src g sp) s (fun t =>
      t.sens = y ∧ t.reg R.sensInjDrop = satInc (s.reg R.sensInjDrop) 1 ∧ s.occurred t s.boundary 228)) ∧
    (y.slot = some i → i.mgt = false → i.result = some (cd, ovr, hd, unl, due) → i.source < 44 → ovr = false → s.rf R.sensInjCtrl 9 1 = 0 → i.kts = [v, v, v] →
      s.fresh (alignUp (max s.now due) 128) 225 → Does .sensInjResult s (fun t => t.now = max s.now due ∧ t.sens = { y with slot := none } ∧
        t.reg R.sensInjRes = BitVec.ofInt 32 cd ∧ t.reg64 R.sensInjHold = s.stampAt hd ∧ s.occurred t (alignUp (max s.now due) 128) 225 ∧
        t.reg R.sensInjStat = pack [(0, 0), (1, 1), (2, i.prog), (4, (s.rf R.sensInjStat 4 16 + 1) % 65536)] ∧ ∀ j, j < 3 → t.reg (R.sensInjKts j) = v)) ∧
    (x.ramping = true → bit (s.reg (R.excCtrl k)) 0 = true → Does (.excRampDone k) s (fun t => t = { s with now := stop, sens := t.sens } ∧
      t.excOf k = { x with ramping := false, mvAt := x.target } ∧ ∀ j : Fin 4, j ≠ k → t.excOf j = s.excOf j)) ∧
    (x.ramping = true → bit (s.reg (R.excCtrl k)) 0 = false → Does (.excRampDone k) s (fun t => t = { s with now := stop, sens := t.sens, permits := t.permits } ∧
      t.excOf k = { x with ramping := false, mvAt := x.target, on := false, limit := false } ∧
      t.permits.load = s.permits.load.sub { Units.zero with conv := 1 })) ∧
    (x.on = true → x.limit = false → s.fresh s.boundary 229 → Does (.excLimit k) s (fun t => t = { s.withEvents t with sens := t.sens } ∧
      t.excOf k = { x with limit := true } ∧ s.occurred t s.boundary 229 ∧ s.eventKept t 229 [])) ∧
    Does (.excLimitEnd k) s (fun t => t = { s with sens := t.sens } ∧ t.excOf k = { x with limit := false } ∧ ∀ j : Fin 4, j ≠ k → t.excOf j = s.excOf j)

/-- From 21 R516 to R521, R536: mode posts are judged and start their legs, wait, or end at once; a converter mode comes in force, is switched and
is left at its boundary, with its result, its requester and MODE_DONE or MODE_REFUSED.
Readings of the model that it rests on: log entry 41. -/
def Obligations.ModePostsRun : Prop :=
  ∀ (s : State) (w : W32) (e g req : Nat), s.ticking →
    let m := s.mode
    let tgt := fld w 1 3
    let b := s.boundary
    let run := s.up ∧ s.ks.held = false
    let posts := bit w 0 = true ∧ m.progAt ≠ b + 1 ∧ (m.mode = 0 ∨ s.progPosts b = false)
    let ends (t : State) (at_ result requester : Nat) := t.mode.busy = false ∧ t.mode.result = result ∧ t.mode.requester = requester ∧
      t.mode.leg = .none ∧ t.mode.pending = none ∧ s.occurred t at_ (if result = 1 then 12 else 13)
    let free_ (at_ : Nat) := s.fresh at_ 12 ∧ s.fresh at_ 13
    (bit w 0 = false → Does (.modeHostPost w) s (fun t => t = { s with regs := t.regs } ∧ t.reg R.modeHostReq = w &&& 0xE ∧ s.regsKept t [R.modeHostReq])) ∧
    (posts → m.busy = false → 6 ≤ tgt → free_ b → Does (.modeHostPost w) s (fun t => t.mode = { m with result := 7, requester := 16 } ∧
      s.occurred t b 13)) ∧
    (posts → m.busy = false → tgt < 6 → m.mode = 6 → free_ b → Does (.modeHostPost w) s (fun t => t.mode = { m with result := 6, requester := 16 } ∧
      s.occurred t b 13)) ∧
    (posts → m.busy = false → tgt < 6 → tgt = m.mode → free_ b → Does (.modeHostPost w) s (fun t => t.mode = { m with result := 1, requester := 16 } ∧
      s.occurred t b 12)) ∧
    (posts → m.busy = false → m.mode = 1 → 2 ≤ tgt → tgt < 6 → s.ks.held = false → Does (.modeHostPost w) s (fun t => t.now = b ∧
      t.mode = { m with busy := true, target := tgt, runner := 16, leg := .entry, asked := b, covered := s.enabledMask, due := none })) ∧
    (posts → m.busy = false → m.mode = 1 → tgt = 0 → Does (.modeHostPost w) s (fun t => t.permits = s.permits ∧
      t.mode = { m with busy := true, target := 0, runner := 16, leg := .toRetain, due := none })) ∧
    (posts → m.busy = false → m.mode = 0 → 1 ≤ tgt → tgt < 6 → m.forced = false → Does (.modeHostPost w) s (fun t =>
      t.mode = { m with busy := true, target := tgt, runner := 16, leg := .fromRetain, due := none })) ∧
    (posts → m.busy = false → 2 ≤ m.mode → m.mode ≤ 4 → tgt < 6 → tgt ≠ m.mode → Does (.modeHostPost w) s (fun t => t.conv = s.conv ∧
      t.mode = { m with busy := true, target := tgt, runner := 16, leg := if 2 ≤ tgt then .switch else .exit, due := some (alignUp (b + 1024) 128) })) ∧
    (posts → m.busy = false → m.mode = 5 → tgt < 5 → s.fg.phase ≠ 0 → free_ b → Does (.modeHostPost w) s (fun t =>
      t.mode = { m with result := 4, requester := 16 } ∧ s.occurred t b 13)) ∧
    (posts → m.busy = true → m.pending = none → Does (.modeHostPost w) s (fun t => t.mode = { m with pending := some (tgt, 16) })) ∧
    (posts → m.busy = true → m.pending = some (e, req) → free_ b → Does (.modeHostPost w) s (fun t =>
      t.mode = { m with pending := some (tgt, 16), result := 2, requester := req } ∧ s.occurred t b 13)) ∧
    (bit w 0 = true → m.progAt = b + 1 → free_ b → Does (.modeHostPost w) s (fun t => t.mode = { m with result := 2, requester := 16 } ∧ s.occurred t b 13)) ∧
    (run → m.leg = .entry → m.due = some e → s.now ≤ e → e % 128 = 0 → s.granted 16 11 = some g → m.pending = none → 2 ≤ m.target → m.target ≤ 5 →
      (∀ n, n < 8 → s.enabledHead n = true → m.covered.testBit n = true) → free_ e → Does .modeConverterEntry s (fun t => t.now = e ∧
        t.mode.mode = m.target ∧ t.reg64 R.modeLastEntry = s.countAt e ∧ ends t e 1 m.runner ∧
        ∀ n, n < 8 → (t.inp n).running = s.enabledHead n)) ∧
    (run → m.leg = .entry → m.due = some e → s.now ≤ e → s.granted 16 11 = some g →
      (∃ n, n < 8 ∧ s.enabledHead n = true ∧ m.covered.testBit n = false) → Does .modeConverterEntry s (fun t => t.now = e ∧
        t.mode = { m with covered := s.enabledMask, due := none } ∧ t.conv = s.conv)) ∧
    (run → m.leg = .switch → m.due = some e → s.now ≤ e → e % 128 = 0 → m.pending = none → free_ e → Does .modeConverterSwitch s (fun t => t.now = e ∧
      t.mode.mode = m.target ∧ t.conv = s.conv ∧ t.chans = s.chans ∧ t.reg64 R.modeLastEntry = s.countAt e ∧ ends t e 1 m.runner)) ∧
    (run → m.leg = .exit → m.due = some e → s.now ≤ e → e % 128 = 0 → m.target = 1 → m.pending = none → free_ e → Does .modeConverterExit s (fun t =>
      t.now = e ∧ t.mode.mode = 1 ∧ t.reg64 R.modeLastEntry = s.countAt e ∧ ends t e 1 m.runner ∧ ∀ n, n < 8 → (t.inp n).running = false)) ∧
    (run → m.leg = .exit → m.due = some e → s.now ≤ e → m.target = 0 → Does .modeConverterExit s (fun t => t.now = e ∧ t.mode.mode = 1 ∧
      t.mode.leg = .toRetain ∧ t.mode.busy = m.busy)) ∧
    (run → m.leg = .entry → m.due = none → m.pending = none →
      let x := alignUp (m.asked + 80000000000) 128
      s.now ≤ x → free_ x → Does .modeDenied s (fun t => t.now = x ∧ t.mode.mode = m.mode ∧ ends t x 3 m.runner ∧ t.conv = s.conv))

/-- From 15 R382, R385; 21 R522 to R526: RETAIN: entry stops the clock of the data plane and what it drives and keeps the contents that the mask
retains; exit resumes Keystone with the next epoch and comes to IDLE; a stack at 130 °C forces the entry.
Readings of the model that it rests on: log entry 41. -/
def Obligations.RetainKeepsAndResumes : Prop :=
  ∀ (s : State) (st : Fin 2) (temp : BitVec 8),
    let m := s.mode
    let b := s.boundary
    (s.up → s.ks.held = false → m.leg = .toRetain → m.target = 0 → m.hostWait = none → m.pending = none → Does .retainEntry s (fun t =>
      t.mode.mode = 0 ∧ t.mode.busy = false ∧ t.mode.result = 1 ∧ t.mode.requester = m.runner ∧ t.mode.forced = m.forced ∧
      t.ks = { s.ks with held := true } ∧ t.now = b ∧ t.reg64 R.modeLastEntry = s.countAt b ∧ t.ref.state = .off ∧ t.nod.state = 0 ∧
      t.reg R.recArm = 0 ∧ t.dsp.running = false ∧ t.dsp.link = 0 ∧ t.tmr.state = 0 ∧ t.mem.retain.length = 138 ∧ twinOk t.mem.retain = true ∧
      (∀ e, e < 64 → (s.reg64 R.memRetMask).testBit e = true → (s.hchan (chanOfEngine e)).fenced = false →
        Assoc.get 0 t.mem.lost e = Assoc.get 0 s.mem.lost e) ∧
      ∀ q : Fin 16, (t.core q).g = (s.core q).g ∧ (t.core q).pc = (s.core q).pc ∧ (t.core q).imem = (s.core q).imem ∧ (t.core q).dmem = (s.core q).dmem)) ∧
    (s.ticking → m.mode = 0 → m.leg = .fromRetain → m.target = 1 → m.pending = none → Does .retainExit s (fun t => t.mode.mode = 1 ∧
      t.mode.busy = false ∧ t.mode.result = 1 ∧ t.mode.requester = m.runner ∧ t.mode.forced = false ∧ t.ks = { s.ks with held := false } ∧
      t.ref.state = (if s.refSel = 3 then .free else .acquiring) ∧ t.rf R.ksEpoch 0 4 = (s.rf R.ksEpoch 0 4 + 1) % 16 ∧ t.now = b ∧ t.reg64 R.modeLastEntry = s.countAt b)) ∧
    (s.ticking → m.mode = 0 → m.leg = .fromRetain → 2 ≤ m.target → m.target ≤ 5 → Does .retainExit s (fun t => t.mode.mode = 1 ∧
      t.mode.leg = .entry ∧ t.mode.asked = b ∧ t.mode.busy = m.busy ∧ t.mode.covered = s.enabledMask)) ∧
    (s.up → s.ks.held = false → st.val < s.nStacks → 194 ≤ temp.toNat → Does (.memTempRead st temp) s (fun t =>
      t.mode.mode = 0 ∧ t.mode.forced = true ∧ t.mode.busy = false ∧ t.mode.pending = none ∧ t.mode.result = 1 ∧ t.mode.requester = 17 ∧
      t.ks.held = true ∧ t.fg.phase = 0 ∧ t.mem.sweep = none ∧ t.mem.testing = 0 ∧
      (2 ≤ m.mode → m.mode ≤ 5 → ∀ n, n < 8 → (t.inp n).running = false))) ∧
    (s.ticking → m.mode = 0 → st.val < s.nStacks → 189 < temp.toNat → (temp.toNat < 194 ∨ (m.forced = true ∧ m.busy = false)) → s.mem.retain.length = 138 → twinOk s.mem.retain = true →
      Does (.memTempRead st temp) s (fun t => bit (t.mem.retain.getD 0 0) 1 = true ∧ twinOk t.mem.retain = true ∧ t.mode = m)) ∧
    (s.ticking → m.mode = 0 → st.val < s.nStacks → 194 ≤ temp.toNat → (m.forced = false ∨ m.busy = true) → Does (.memTempRead st temp) s (fun t =>
      t.mode.mode = 0 ∧ t.mode.forced = true ∧ t.mode.busy = false ∧ t.mode.pending = none ∧ t.mode.result = 1 ∧ t.mode.requester = 17))

/-- From 21 R528 to R531; 23 R567, R578: a cold reset: every block at its reset values, HBM lost, and only flash, fuses and the always-on domain
kept; its release starts Keystone from 0 and the boot.
Readings of the model that it rests on: log entries 3, 41. -/
def Obligations.ColdResetAndRelease : Prop :=
  ∀ (s : State),
    let r := State.reset
    let b := s.boundary
    let kept (t : State) := t.mgt.flash = s.mgt.flash ∧ t.mgt.epoch = s.mgt.epoch ∧ t.mgt.cosign = s.mgt.cosign ∧ t.mgt.sets = s.mgt.sets ∧
      t.mgt.lifeCopies = s.mgt.lifeCopies ∧ t.mgt.saved = s.mgt.saved ∧ t.is9620 = s.is9620 ∧ t.hostMem = s.hostMem ∧ t.link.perst = s.link.perst ∧ t.now = s.now
    let cold (t : State) := t.regs = r.regs ∧ t.cores = r.cores ∧ t.smem = r.smem ∧ t.sems = r.sems ∧ t.permits = r.permits ∧ t.evt = r.evt ∧
      t.conv = r.conv ∧ t.trig = r.trig ∧ t.tmr = r.tmr ∧ t.record = r.record ∧ t.churn = r.churn ∧ t.dsp = r.dsp ∧ t.sens = r.sens ∧ t.dma = r.dma ∧
      t.tap = r.tap ∧ t.jtag = r.jtag ∧ t.ks = r.ks ∧ t.ref = r.ref ∧ t.nod = r.nod ∧ t.cairn = r.cairn ∧ t.hbm = [] ∧ t.mode.mode = 6 ∧ t.mgt.state = 0 ∧
      t.mem.masks = (MemCtl.reset s.is9620).masks ∧ mapRegular s.is9620 (t.mem.masks.map (·.1)) = true ∧ t.mem.mapSeq = r.mem.mapSeq ∧
      ∀ e, e < 64 → Assoc.get 0 t.mem.lost e ≠ 0
    let starts (t : State) := t = { s with now := b, ks := t.ks, mgt := { s.mgt with trip := none }, mode := t.mode, link := { s.link with released := b } } ∧
      t.ks.held = false ∧ t.count = 0 ∧ t.mode = { s.mode with porN := true, aonLow := false, booting := true }
    Does .porAssert s (fun t => cold t ∧ kept t ∧ t.mode.porN = false ∧ t.clockless = true ∧
      (s.mode.aonLow = false → t.mgt.trip = none) ∧ (s.mode.aonLow = true → t.mgt.trip = s.mgt.trip)) ∧
    Does .vddAonLow s (fun t => cold t ∧ kept t ∧ t.mode.aonLow = true ∧ t.mode.porN = s.mode.porN ∧ t.clockless = true ∧ t.mgt.trip = s.mgt.trip) ∧
    (s.mode.porN = false → s.mode.aonLow = false → Does .porRelease s starts) ∧
    (s.mode.porN = false → s.mode.aonLow = true → Does .porRelease s (fun t => t = { s with mode := { s.mode with porN := true } })) ∧
    (s.mode.porN = true → Does .porRelease s (fun t => t = s)) ∧
    (s.mode.aonLow = true → s.mode.porN = true → Does .vddAonRestore s starts) ∧
    (s.mode.aonLow = true → s.mode.porN = false → Does .vddAonRestore s (fun t => t = { s with mode := { s.mode with aonLow := false } }))

/-- From 20 R487, R488, R506 to R508, R510; 21 R528, R529: management restarts and boots: what a restart saves and ends, the choice of the image,
RECOVERY and FAILED, and what MGT_READY brings after a restart and after a cold reset.
Readings of the model that it rests on: log entry 36. -/
def Obligations.ManagementRestartsAndBoots : Prop :=
  ∀ (s : State) (a b : Option (W32 × BitVec 5 × BitVec 16)) (i : W32 × BitVec 5 × BitVec 16) (k : Nat), s.ticking →
    let m := s.mgt
    let p := m.ptr
    let z := s.boundary
    let boots := m.started = false ∧ (m.state = 2 ∨ (m.state = 0 ∧ s.mode.booting = true ∧ s.mode.porN = true))
    let restarts (t : State) (cause : Nat) := t.mgt.state = 2 ∧ t.mgt.cause = cause ∧ t.mgt.started = false ∧ t.mgt.due = s.now + 32000000000 ∧
      t.permits.hold = true ∧ t.fg.phase = 0 ∧ t.mem.sweep = none ∧ t.mem.testing = 0 ∧ s.occurred t z 234 ∧ t.now = s.now ∧ t.mgt.slots = m.slots ∧
      t.mode = s.mode ∧ t.chans = s.chans
    let runs (t : State) (slot cause : Nat) := t.mgt.started = true ∧ t.mgt.slot = slot ∧ t.mgt.version = i.1 ∧ t.mgt.imgEpoch = i.2.1.toNat ∧
      t.mgt.schema = i.2.2.toNat ∧ t.mgt.cause = cause ∧ t.mgt.boot = m.boot + 1 ∧ t.mgt.epoch = max m.epoch (min 16 i.2.1.toNat) ∧ t.mgt.state = m.state
    (m.state = 1 ∨ m.state = 3 → s.fresh z 234 → Does .mgtRestartReq s (fun t => restarts t 2 ∧ t.mgt.lifeNewest = m.life)) ∧
    (m.state = 1 ∨ m.state = 3 → s.fresh z 234 → s.fresh z 245 → Does .mgtWatchdog s (fun t => restarts t 1 ∧ s.occurred t z 245 ∧
      t.mgt.lifeCopies = m.lifeCopies ∧ t.mgt.flash = m.flash)) ∧
    (m.state = 2 ∨ m.state = 0 → Does .mgtRestartReq s (fun t => t = s)) ∧
    (boots → Does (.bootRom a b true false) s (fun t => t.mgt.state = 4 ∧ t.mgt.started = false ∧ t.mode.booting = false ∧ t.mgt.flash = m.flash)) ∧
    (boots → p.prov = false → s.bootable a b p.slot = some i → Does (.bootRom a b true true) s (fun t => runs t p.slot m.cause ∧
      t.mgt.incompatible = false ∧ t.mgt.flash = m.flash)) ∧
    (boots → p.prov = false → s.bootable a b p.slot = none → s.bootable a b (1 - p.slot) = some i → Does (.bootRom a b true true) s (fun t =>
      runs t (1 - p.slot) m.cause)) ∧
    (boots → p.prov = false → s.bootable a b p.slot = none → s.bootable a b (1 - p.slot) = none → Does (.bootRom a b true true) s (fun t =>
      t.mgt.state = 3 ∧ t.mgt.started = false ∧ t.mgt.version = 0 ∧ t.mode.booting = false)) ∧
    (boots → p.prov = true → 3 ≤ m.bootCount → p.seq + 1 < 2 ^ 32 → s.bootable a b (1 - p.slot) = some i → Does (.bootRom a b true true) s (fun t =>
      runs t (1 - p.slot) 5 ∧ t.mgt.ptr.slot = 1 - p.slot ∧ t.mgt.ptr.prov = false)) ∧
    (boots → p.prov = true → m.bootCount < 3 → s.bootable a b p.slot = some i → Does (.bootRom a b true true) s (fun t => t.mgt.slot = p.slot ∧
      t.mgt.started = true ∧ t.mgt.boots = m.bootCount + 1 ∧ t.mgt.epoch = m.epoch ∧ t.mgt.upd = 4)) ∧
    (m.started = true → m.state = 2 → s.fresh z 232 → Does .mgtReady s (fun t => t.mgt.state = 1 ∧ t.mgt.started = false ∧ t.mgt.readyAt = s.now ∧
      t.permits.hold = m.throttle ∧ t.mgt.held = [] ∧ s.occurred t z 232 ∧ t.mgt.fgOpen = none ∧ t.mode = s.mode ∧
      (k < 17 → (s.mslot k).full = true → (s.mslot k).drop = false → (t.mslot k).full = false ∧ (t.mslot k).valid = true ∧
        fld ((t.mslot k).ans.getD 0 0) 8 8 = 1))) ∧
    (m.started = true → m.state = 0 → s.mode.mode = 6 → s.ks.held = false → s.fresh z 232 → s.fresh z 12 → Does .mgtReady s (fun t => t.now = z ∧
      t.mgt.state = 1 ∧ t.mgt.started = false ∧ t.mode.mode = 1 ∧ t.mode.result = 1 ∧ t.mode.requester = 18 ∧ t.mode.memReady = true ∧
      t.mode.booting = false ∧ s.occurred t z 232 ∧ s.occurred t z 12 ∧ t.reg64 R.modeLastEntry = s.countAt z ∧ t.mem.adjLoaded = true ∧
      t.mem.delays = m.flashDelays ∧ t.mem.repairs = m.laneRepairs))

/-- From 20 R493 to R496, R498, R509: what the management plane watches and keeps: die temperatures with their throttle, warning and trip, the
supply checks, the lifetime record, the Cairn ring, and the confirm window.
Readings of the model that it rests on: log entries 36, 37. -/
def Obligations.ManagementWatchesAndKeeps : Prop :=
  ∀ (s : State) (temps : List (BitVec 16)) (r : CairnReq) (q : List CairnReq), s.ticking →
    let m := s.mgt
    let z := s.boundary
    let read := (List.range 32).map (fun i => (temps.getD i 0).toInt)
    let hot := ({ m with temps := read } : Mgt).hottest
    let warm := decide ((s.setting 5 : Int) * 16 ≤ hot.1)
    let thr := if m.throttle then decide (2160 < hot.1) else decide (2240 ≤ hot.1)
    let u := s.permits.load
    let charge (i c : Nat) := c + [u.core, u.conv, u.hbm0, u.hbm1].getD i 0 * 100 + (Config.factory 4 i).toNat
    (Does (.thermSample temps) s (fun t => t.mgt.temps = read ∧ t.mgt.throttle = thr ∧ t.mgt.warn = warm ∧ t.now = s.now ∧
      t.mgt.trip = (if 2480 ≤ hot.1 then some hot.2 else none) ∧ t.clockless = decide (2480 ≤ hot.1) ∧ t.mgt.state = m.state ∧
      (thr ≠ m.throttle → t.permits.hold = (m.state == 2 || thr)) ∧ (thr = m.throttle → t.permits = s.permits) ∧ t.mode = s.mode)) ∧
    (thr ≠ m.throttle → s.fresh z 237 → Does (.thermSample temps) s (fun t => s.occurred t z 237)) ∧
    (warm = true → m.warn = false → s.fresh z 238 → Does (.thermSample temps) s (fun t => s.occurred t z 238 ∧ t.mgt.alerts.testBit 1 = true)) ∧
    (m.state = 1 → s.mode.mode ≠ 0 → s.sens.slot = none → s.sens.phase = .down → Does .supplyCheck s (fun t => t.mgt = { m with railNext := (m.railNext + 1) % 8 } ∧
      t.regs = s.regs ∧ (t.sens.slot.map (fun i => (i.mgt, i.source, i.edge, i.result))) = some (true, 32 + m.railNext, alignUp s.now 2000, none) ∧
      t.sens.phase = .starting (alignUp s.now 2000 + 96000))) ∧
    (m.state = 1 → Does .lifeSecond s (fun t => t.mgt.life = { bins := modAt m.life.bins (lifeBin m.hottest.1) (· + 1),
                                                               charge := m.life.charge.mapIdx charge, lastBin := lifeBin m.hottest.1 } ∧
      t.mgt.lifeWarned = decide (s.setting 7 ≤ t.mgt.life.ppm) ∧ t.mgt.sinceB3 = (if lifeBin m.hottest.1 = 3 then 0 else m.sinceB3 + 1) ∧
      t.mgt.flash = m.flash ∧ t.permits = s.permits)) ∧
    (m.state = 1 → m.lifeWarned = false → s.setting 7 = 0 → s.fresh z 242 → Does .lifeSecond s (fun t => s.occurred t z 242 ∧ t.mgt.alerts.testBit 3 = true)) ∧
    (m.state = 1 → Does .lifeSave s (fun t => t = { s with mgt := { m with lifeCopies := t.mgt.lifeCopies } } ∧ t.mgt.lifeNewest = m.life)) ∧
    (m.state = 1 → s.cairn.hw = r :: q → s.cairn.lost = 0 → m.cairnNext < 32768 → Does .cairnDrain s (fun t =>
      t = { s with mgt := { m with flash := t.mgt.flash, cairnNext := (m.cairnNext + 1) % 32768 }, cairn := { s.cairn with hw := q } } ∧
      t.mgt.flashWords (0x300000 + 32 * m.cairnNext) 8 = m.cairnWords r ∧
      ∀ x, x < 0x300000 ∨ 0x400000 ≤ x → t.mgt.flashByte x = m.flashByte x)) ∧
    (m.state = 1 → s.cairn.hw = [] → s.cairn.fw = r :: q → s.cairn.lost = 0 → Does .cairnDrain s (fun t => t.cairn = { s.cairn with fw := q } ∧
      t.mgt.flashWords (0x300000 + 32 * m.cairnNext) 8 = m.cairnWords r ∧ t.regs = s.regs)) ∧
    (s.cairn.unreported ≠ 0 → m.state ≠ 2 → s.fresh z 243 → Does .cairnOvf s (fun t => s.occurred t z 243 ∧ s.eventKept t 243 [] ∧ t.mgt = m ∧
      (bit (s.reg (R.evtRoute 243)) 19 = false → t.cairn = { s.cairn with unreported := s.cairn.unreported - 1 }))) ∧
    (s.cairn.unreported ≠ 0 → m.state = 2 → m.held.length < 64 → Does .cairnOvf s (fun t => t.mgt = { m with held := m.held ++ [243] } ∧ t.regs = s.regs)) ∧
    (s.ks.held = false → m.state = 1 → m.upd = 4 → m.ptr.seq + 1 < 2 ^ 32 → Does .confirmWindowExpiry s (fun t => t.now = max s.now s.windowEnd ∧
      t.mgt.state = 2 ∧ t.mgt.cause = 4 ∧ t.mgt.ptr.slot = 1 - m.ptr.slot ∧ t.mgt.ptr.prov = false)) ∧
    (s.ks.held = false → m.state = 1 → m.upd = 4 → s.setting 3 ≠ 0 → m.incompatible = false → m.ptr.seq + 1 < 2 ^ 32 → m.slot ≤ 1 → Does .autoConfirm s (fun t =>
      t.now = max s.now (m.readyAt + s.setting 3 * 80000000000) ∧ t.mgt.upd = 0 ∧ t.mgt.ptr.prov = false ∧ t.mgt.ptr.slot = m.slot ∧
      t.mgt.epoch = max m.epoch (min 16 m.imgEpoch)))

/-- From 20 R500: the SMBus target answers each command with its word or block and its PEC, selects the sensor to read unless the PEC of the
transaction fails, and clears the alert causes that are read.
Readings of the model that it rests on: log entries 7, 37. -/
def Obligations.SmbusAnswers : Prop :=
  ∀ (s : State) (id code : Byte), s.ticking →
    let m := s.mgt
    let acks := m.state = 1 ∨ m.state = 2
    let write := s.smbAddr false
    let gives (t : State) (cmd : Byte) (bs : List Byte) := t = { s with mgt := { m with smbOut := bs ++ [pec ([write, cmd, s.smbAddr true] ++ bs)] } }
    let i := (m.cairnNext + 32767) % 32768
    (acks → Does .smbStatus s (fun t => gives t 0x01 (leBytes 2 (m.state + b2n m.throttle * 8 + b2n (m.upd == 4) * 16 + b2n m.incompatible * 32)))) ∧
    (acks → Does .smbTemperature s (fun t => gives t 0x02 (leBytes 2 (BitVec.ofInt 16 m.hottest.1).toNat))) ∧
    (acks → code = pec [write, 0x03, id] → Does (.smbSensorSelect id code) s (fun t => t = { s with mgt := { m with smbSel := id.toNat } })) ∧
    (acks → code ≠ pec [write, 0x03, id] → Does (.smbSensorSelect id code) s (fun t => t = s)) ∧
    (acks → m.smbSel < 42 → Does .smbSensorRead s (fun t => gives t 0x03 (leBytes 2 (s.sensorValue m.smbSel).1.toNat))) ∧
    (acks → 42 ≤ m.smbSel → Does .smbSensorRead s (fun t =>
      t.mgt = { m with smbOut := t.mgt.smbOut } ∧ t.mgt.smbOut.take 2 = leBytes 2 (Config.freeWord s.freeCtr).toNat ∧ t.regs = s.regs)) ∧
    (acks → Does .smbVersions s (fun t => gives t 0x04 (8 :: leBytes 4 m.version.toNat ++ leBytes 4 (m.slotVersion m.staging).toNat))) ∧
    (acks → Does .smbLife s (fun t => gives t 0x05 (leBytes 2 (min 0xFFFF (m.life.ppm / 100))))) ∧
    (acks → (m.cairnBytes i).all (· == 0xFF) = false → Does .smbCairnIndex s (fun t => gives t 0x06 (leBytes 2 i))) ∧
    (acks → Does .smbAlertCauses s (fun t => t.mgt.alerts = 0 ∧ gives { t with mgt := { t.mgt with alerts := m.alerts } } 0x08 (4 :: leBytes 4 m.alerts))) ∧
    (acks → m.alerts ≠ 0 → Does .smbAlertResponse s (fun t => t = { s with mgt := { m with smbOut := [write, pec [0x19, write]] } })) ∧
    (m.state = 0 ∨ m.state = 3 ∨ m.state = 4 → Does .smbStatus s (fun t => t = s) ∧ Does (.smbSensorSelect id code) s (fun t => t = s))

/-- From 23 R575 to R578: the boundary-scan port: each instruction comes into force with the register it shifts out, a scan captures and loads
the cells, and the cells govern the output balls under EXTEST, CLAMP and the pulse and train instructions, and release them under HIGHZ.
Readings of the model that it rests on: log entry 43. -/
def Obligations.BoundaryScanGoverns : Prop :=
  ∀ (s : State) (capture load : BitVec 127) (code : BitVec 8) (n : Nat) (own : Level),
    let live := s.mode.porN = true ∧ s.mode.aonLow = false
    let j := s.jtag
    let scan (ir : BitVec 8) (t : State) := t = { s with jtag := { ir := ir, captured := capture, cells := load, tdo := capture.toNat } }
    let driven := if load.getLsbD (n + 1) then (if load.getLsbD n then Level.high else .low) else .floating
    (live → Does (.jtagExtest capture load) s (fun t => scan 0x00 t ∧ t.outputBall n own = driven)) ∧
    (live → Does (.jtagSamplePreload capture load) s (fun t => scan 0x01 t ∧ t.outputBall n own = own)) ∧
    (live → Does (.jtagExtestPulse capture load) s (fun t => scan 0x05 t ∧ t.outputBall n own = driven)) ∧
    (live → Does (.jtagExtestTrain capture load) s (fun t => scan 0x06 t ∧ t.outputBall n own = driven)) ∧
    (live → Does .jtagIdcode s (fun t => t = { s with jtag := { j with ir := 0x02, tdo := t.jtag.tdo } } ∧
      t.jtag.tdo = (if s.is9620 then 0x09620C97 else 0x09640C97) + Config.stepping.toNat * 2 ^ 28 ∧ t.outputBall n own = own)) ∧
    (live → Does .jtagHighz s (fun t => t = { s with jtag := { j with ir := 0x03, tdo := 0 } } ∧ t.outputBall n own = .floating)) ∧
    (live → Does .jtagClamp s (fun t => t = { s with jtag := { j with ir := 0x04, tdo := 0 } } ∧
      t.outputBall n own = if j.cells.getLsbD (n + 1) then (if j.cells.getLsbD n then Level.high else .low) else .floating)) ∧
    (live → Does (.jtagBypass code) s (fun t => t = { s with jtag := { j with ir := 0xFF, tdo := 0 } } ∧ t.outputBall n own = own)) ∧
    Does .testLogicReset s (fun t => t = { s with jtag := { j with ir := 0x02 } } ∧ t.outputBall n own = own) ∧
    (¬ live → Does (.jtagExtest capture load) s (fun t => t = s))

/-- From 21 R528, R531, and the reset columns of the register tables: what reset leaves: every stored register at its reset value, the mode BOOT, no
command waiting, every core HALTED, no event, permit, semaphore, record, tap or transfer, and canonical memories. Reset values that no rule
states are the model's (log entry 3). -/
def Obligations.ResetLeavesTheResetValues : Prop :=
  State.reset.memWf = true ∧ State.reset.pending = [] ∧ State.reset.mode.mode = 6 ∧ State.reset.mode.busy = false ∧ State.reset.count = 0 ∧
  State.reset.ref.state = .free ∧ State.reset.nod.state = 0 ∧ State.reset.evt.queue = [] ∧ State.reset.cairn.hw = [] ∧ State.reset.cairn.fw = [] ∧
  State.reset.tmr.state = 0 ∧ State.reset.tap.taps = [] ∧ (∀ n, n < 8 → (State.reset.ring n).state = 0) ∧ (∀ c, c < 32 → (State.reset.dchan c).state = 0) ∧
  State.reset.link.up = false ∧ State.reset.dsp.running = false ∧
  (∀ a, State.reset.reg a = resetVal a) ∧
  (∀ q : Fin 16, (State.reset.core q).run = .halted ∧ (State.reset.core q).openGrp = [] ∧ (State.reset.core q).groups = [] ∧
    (State.reset.core q).drds = [] ∧ (State.reset.core q).waiting = none) ∧
  (∀ e, e < 64 → (State.reset.entry e).v = 0) ∧ ∀ n, n < 16 → (State.reset.sem n).owner = none

/-- The memories keep their canonical form through every step, so that equal memories are equal data. -/
def Obligations.MemoriesStayCanonical : Prop := ∀ s t : State, s.memWf = true → step s = .next t → t.memWf = true

/-- From 12 R312 to R314: the words of an instruction decode to it, with every field at every value that is no reserved encoding, whatever word
comes after; and a word decodes only to an instruction that begins with it. -/
def Obligations.InstructionWordsDecode : Prop :=
  (∀ (op : Op) (x : W32), op.ok = true → decodeOp (op.words.headD 0) ((op.words.drop 1).headD x) = some op) ∧
  ∀ (op : Op) (w w1 : W32), decodeOp w w1 = some op → op.words.head? = some w ∧ op.ok = true ∧ op.words.length = op.size ∧
    (op.size = 2 → op.words = [w, w1])

/-- From 21 R522, R530; 23 R567: without a clock no command but those of the supplies, POR_N, PERST# and the boundary-scan port changes anything;
in RETAIN no Ashlar instruction does (log entry 6). -/
def Obligations.NothingRunsWithoutItsClock : Prop :=
  ∀ (i : Instr) (s : State), (s.clockless = true → alwaysOn i = false → exec i s = .next s) ∧
    ∀ o, i.op = some o → s.stopped = true → exec i s = .next s

/-- From 12 R315: a register pair gk:gk+1 with k even holds a 64-bit value, its low word in gk; g0:g1 as a pair reads 0 and discards a write of
both words; g1 used singly is an ordinary register. -/
def Obligations.RegisterPairsHoldTwoWords : Prop :=
  ∀ (c : Core) (k : Fin 32) (v : W64) (w : W32), k.val % 2 = 0 →
    let d := c.wrPair k v.toNat
    (k ≠ 0 → d.rd k = v.setWidth 32 ∧ d.rd (k + 1) = (v >>> 32).setWidth 32 ∧ d.pair k = v.toNat ∧
      (∀ j, j < 32 → j ≠ k.val → j ≠ k.val + 1 → d.rd j = c.rd j)) ∧
    (k ≠ 0 → c.pair k = (c.rd k).toNat + (c.rd (k + 1)).toNat * 2 ^ 32) ∧ c.pair 0 = 0 ∧ (k = 0 → d = c) ∧ (c.wr 1 w).rd 1 = w

/-- From 12 R327: TICK gd:gd+1, opcode 0x4B with every field but d zero, writes the 64-bit count at the edge that begins it to the pair in one
cycle and sets no flag; two of them in a row read counts that differ by 64. -/
def Obligations.TickReadsTheCount : Prop :=
  ∀ (s : State) (q : Fin 16) (g h : Fin 32),
    (Op.tick g).words = [BitVec.ofNat 32 (0x4B + g * 2 ^ 7)] ∧
    (s.ready q (.tick g) → Does (.tick q g) s (fun t => s.onlyCore t q ∧ (s.core q).sameButRegs (t.core q) ∧ (s.core q).sameFlags (t.core q) ∧
      (s.core q).regsBut (t.core q) [g, g + 1] ∧ (g ≠ 0 → (t.core q).pair g = s.countAt (s.startEdge q)) ∧
      (s.core q).wentOn (s.startEdge q) 1 ((s.core q).pc + 1) (t.core q) ∧
      (g ≠ 0 → h ≠ 0 → t.ready q (.tick h) → Does (.tick q h) t (fun u => (u.core q).pair h = ((t.core q).pair g + 64) % 2 ^ 64))))

/-- From 00 R14: the twin of a word is the word and its complement; of a 64-bit value its two words and their complements, low words first; of
a KTS its three words and their complements in the same order. -/
def Obligations.TwinsAreValuesAndComplements : Prop :=
  ∀ (v a b c : W32) (x : W64),
    twinWords [v] = [v, ~~~ v] ∧
    twinWords [loW x.toNat, hiW x.toNat] = [x.setWidth 32, (x >>> 32).setWidth 32, ~~~ x.setWidth 32, ~~~ (x >>> 32).setWidth 32] ∧
    twinWords [a, b, c] = [a, b, c, ~~~ a, ~~~ b, ~~~ c]
end

