-- ==== Sys2Proof/Laws/Table.lean ====
section
/-! SUPPORT. Laws of the sparse tables and byte memories: reading after writing, and the canonical form, which every memory operation
keeps. -/

namespace Sys2Proof.Machine

variable {α : Type}

theorem Assoc.get_ins (d : α) (m : List (Nat × α)) (a b : Nat) (v : α) :
    Assoc.get d (Assoc.ins a v m) b = if b = a then v else Assoc.get d m b := by
  induction m with
  | nil => simp [Assoc.ins, Assoc.get]
  | cons e r ih =>
    obtain ⟨k, w⟩ := e
    unfold Assoc.ins
    split
    · rfl
    · split
      · subst_vars
        by_cases h : b = k <;> simp [Assoc.get, h]
      · simp only [Assoc.get, ih]
        split
        · subst_vars
          rw [if_neg (by omega)]
        · rfl

theorem Assoc.get_erase (d : α) (m : List (Nat × α)) (a b : Nat) :
    Assoc.get d (m.filter (fun e => e.1 ≠ a)) b = if b = a then d else Assoc.get d m b := by
  induction m with
  | nil => simp [Assoc.get]
  | cons e r ih =>
    obtain ⟨k, w⟩ := e
    by_cases h : k = a
    · subst h
      rw [List.filter_cons_of_neg (by simp)]
      simp only [ih, Assoc.get]
      split <;> rfl
    · rw [List.filter_cons_of_pos (by simpa using h)]
      simp only [Assoc.get, ih]
      split
      · subst_vars
        rw [if_neg h]
      · rfl

variable [DecidableEq α]

/-- What an entry of a table reads, with any value for unlisted ones, after a write. -/
theorem Assoc.get_put_default (d d' : α) (m : List (Nat × α)) (a b : Nat) (v : α) :
    Assoc.get d' (Assoc.put d m a v) b = if b = a then (if v = d then d' else v) else Assoc.get d' m b := by
  unfold Assoc.put
  split
  · exact Assoc.get_erase d' m a b
  · exact Assoc.get_ins d' m a b v

/-- What an entry of a table reads after a write: the value at its key, every other entry as before. -/
theorem Assoc.get_put (d : α) (m : List (Nat × α)) (a b : Nat) (v : α) :
    Assoc.get d (Assoc.put d m a v) b = if b = a then v else Assoc.get d m b := by
  rw [Assoc.get_put_default]
  split
  · split
    · exact Eq.symm ‹v = d›
    · rfl
  · rfl

@[simp] theorem Assoc.get_put_self (d : α) (m : List (Nat × α)) (a : Nat) (v : α) : Assoc.get d (Assoc.put d m a v) a = v := by
  simp [Assoc.get_put]

theorem Assoc.get_put_ne (d : α) (m : List (Nat × α)) {a b : Nat} (v : α) (h : b ≠ a) :
    Assoc.get d (Assoc.put d m a v) b = Assoc.get d m b := by
  simp [Assoc.get_put, h]

/-! ### The canonical form -/

theorem Assoc.wfFrom_mono (d : Nat → α) {lo lo' : Nat} (h : lo' ≤ lo) (m : List (Nat × α)) (hm : Assoc.wfFrom d lo m = true) :
    Assoc.wfFrom d lo' m = true := by
  cases m with
  | nil => rfl
  | cons e r =>
    obtain ⟨k, w⟩ := e
    simp only [Assoc.wfFrom, Bool.and_eq_true, decide_eq_true_eq] at hm ⊢
    exact ⟨⟨Nat.le_trans h hm.1.1, hm.1.2⟩, hm.2⟩

theorem Assoc.wfFrom_filter (d : Nat → α) (p : Nat × α → Bool) (m : List (Nat × α)) (lo : Nat) (hm : Assoc.wfFrom d lo m = true) :
    Assoc.wfFrom d lo (m.filter p) = true := by
  induction m generalizing lo with
  | nil => rfl
  | cons e r ih =>
    obtain ⟨k, w⟩ := e
    simp only [Assoc.wfFrom, Bool.and_eq_true, decide_eq_true_eq] at hm
    have hr := ih (k + 1) hm.2
    by_cases h : p (k, w) = true
    · rw [List.filter_cons_of_pos h]
      simp only [Assoc.wfFrom, Bool.and_eq_true, decide_eq_true_eq]
      exact ⟨hm.1, hr⟩
    · rw [List.filter_cons_of_neg h]
      exact Assoc.wfFrom_mono d (by omega) _ hr

theorem Assoc.wfFrom_ins (d : Nat → α) (m : List (Nat × α)) (lo a : Nat) (v : α) (ha : lo ≤ a) (hv : v ≠ d a)
    (hm : Assoc.wfFrom d lo m = true) : Assoc.wfFrom d lo (Assoc.ins a v m) = true := by
  induction m generalizing lo with
  | nil => simp [Assoc.ins, Assoc.wfFrom, ha, hv]
  | cons e r ih =>
    obtain ⟨k, w⟩ := e
    simp only [Assoc.wfFrom, Bool.and_eq_true, decide_eq_true_eq] at hm
    unfold Assoc.ins
    split
    · simp only [Assoc.wfFrom, Bool.and_eq_true, decide_eq_true_eq]
      exact ⟨⟨ha, hv⟩, ⟨by omega, hm.1.2⟩, hm.2⟩
    · split
      · subst_vars
        simp only [Assoc.wfFrom, Bool.and_eq_true, decide_eq_true_eq]
        exact ⟨⟨ha, hv⟩, hm.2⟩
      · simp only [Assoc.wfFrom, Bool.and_eq_true, decide_eq_true_eq]
        exact ⟨hm.1, ih (k + 1) (by omega) hm.2⟩

/-- A write keeps the canonical form, of registers and memories alike. -/
theorem Assoc.wf_put (d : Nat → α) (m : List (Nat × α)) (a : Nat) (v : α) (hm : Assoc.wf d m = true) :
    Assoc.wf d (Assoc.put (d a) m a v) = true := by
  unfold Assoc.put Assoc.wf
  split
  · exact Assoc.wfFrom_filter d _ m 0 hm
  · rename_i h
    exact Assoc.wfFrom_ins d m 0 a v (Nat.zero_le a) h hm

/-! ### Byte memories -/

theorem Mem.byte_setByte (m : List Host.Cell) (a b : Nat) (x : Byte) : Mem.byte (Mem.setByte m a x) b = if b = a then x else Mem.byte m b :=
  Assoc.get_put 0 m a b x

theorem Mem.wf_setByte (m : List Host.Cell) (a : Nat) (x : Byte) (h : Mem.wf m = true) : Mem.wf (Mem.setByte m a x) = true :=
  Assoc.wf_put (fun _ => (0 : Byte)) m a x h

/-- A byte after a write of bytes: the byte written to its address, or what it was. -/
theorem Mem.byte_write (m : List Host.Cell) (a b : Nat) (bs : List Byte) :
    Mem.byte (Mem.write m a bs) b = if a ≤ b ∧ b < a + bs.length then bs.getD (b - a) 0 else Mem.byte m b := by
  induction bs generalizing m a with
  | nil => rw [Mem.write, if_neg (by simp only [List.length_nil]; omega)]
  | cons x r ih =>
    simp only [Mem.write, ih, Mem.byte_setByte, List.length_cons]
    by_cases h : b = a
    · subst h
      rw [if_neg (by omega), if_pos rfl, if_pos (by omega), Nat.sub_self, List.getD_cons_zero]
    · by_cases h' : a + 1 ≤ b ∧ b < a + 1 + r.length
      · have e : b - a = b - (a + 1) + 1 := by omega
        rw [if_pos h', if_pos (by omega), e, List.getD_cons_succ]
      · rw [if_neg h', if_neg h, if_neg (by omega)]

theorem Mem.wf_write (m : List Host.Cell) (a : Nat) (bs : List Byte) (h : Mem.wf m = true) : Mem.wf (Mem.write m a bs) = true := by
  induction bs generalizing m a with
  | nil => exact h
  | cons x r ih => exact ih _ _ (Mem.wf_setByte m a x h)

theorem Mem.wf_setWord (m : List Host.Cell) (a : Nat) (w : W32) (h : Mem.wf m = true) : Mem.wf (Mem.setWord m a w) = true :=
  Mem.wf_write m a _ h

theorem Mem.wf_setWords (m : List Host.Cell) (a : Nat) (ws : List W32) (h : Mem.wf m = true) : Mem.wf (Mem.setWords m a ws) = true := by
  induction ws generalizing m a with
  | nil => exact h
  | cons w r ih => exact ih _ _ (Mem.wf_setWord m a w h)

/-- A memory that keeps some of its bytes only is canonical still. -/
theorem Mem.wf_filter (m : List Host.Cell) (p : Host.Cell → Bool) (h : Mem.wf m = true) : Mem.wf (m.filter p) = true :=
  Assoc.wfFrom_filter (fun _ => (0 : Byte)) p m 0 h

theorem leBytes_length (n v : Nat) : (leBytes n v).length = n := by
  induction n generalizing v with
  | zero => rfl
  | succ n ih => simp [leBytes, ih]

end Sys2Proof.Machine
end

