-- ==== Sys2Proof/Laws/State.lean ====
section
/-! SUPPORT. What the named updates of the state leave as it was, field by field, and what the updates made of them unfold to. -/

namespace Sys2Proof.Machine

/-! `advance` -/

@[simp] theorem State.advance_pending (s : State) (t : Nat) : (s.advance t).pending = s.pending := by unfold State.advance; split <;> rfl
@[simp] theorem State.advance_is9620 (s : State) (t : Nat) : (s.advance t).is9620 = s.is9620 := by unfold State.advance; split <;> rfl
@[simp] theorem State.advance_freeCtr (s : State) (t : Nat) : (s.advance t).freeCtr = s.freeCtr := by unfold State.advance; split <;> rfl
@[simp] theorem State.advance_regs (s : State) (t : Nat) : (s.advance t).regs = s.regs := by unfold State.advance; split <;> rfl
@[simp] theorem State.advance_latches (s : State) (t : Nat) : (s.advance t).latches = s.latches := by unfold State.advance; split <;> rfl
@[simp] theorem State.advance_ks (s : State) (t : Nat) : (s.advance t).ks = s.ks := by unfold State.advance; split <;> rfl
@[simp] theorem State.advance_ref (s : State) (t : Nat) : (s.advance t).ref = s.ref := by unfold State.advance; split <;> rfl
@[simp] theorem State.advance_nod (s : State) (t : Nat) : (s.advance t).nod = s.nod := by unfold State.advance; split <;> rfl
@[simp] theorem State.advance_ptm (s : State) (t : Nat) : (s.advance t).ptm = s.ptm := by unfold State.advance; split <;> rfl
@[simp] theorem State.advance_cores (s : State) (t : Nat) : (s.advance t).cores = s.cores := by unfold State.advance; split <;> rfl
@[simp] theorem State.advance_smem (s : State) (t : Nat) : (s.advance t).smem = s.smem := by unfold State.advance; split <;> rfl
@[simp] theorem State.advance_smemLast (s : State) (t : Nat) : (s.advance t).smemLast = s.smemLast := by unfold State.advance; split <;> rfl
@[simp] theorem State.advance_smemNext (s : State) (t : Nat) : (s.advance t).smemNext = s.smemNext := by unfold State.advance; split <;> rfl
@[simp] theorem State.advance_smemJobs (s : State) (t : Nat) : (s.advance t).smemJobs = s.smemJobs := by unfold State.advance; split <;> rfl
@[simp] theorem State.advance_sems (s : State) (t : Nat) : (s.advance t).sems = s.sems := by unfold State.advance; split <;> rfl
@[simp] theorem State.advance_permits (s : State) (t : Nat) : (s.advance t).permits = s.permits := by unfold State.advance; split <;> rfl
@[simp] theorem State.advance_mode (s : State) (t : Nat) : (s.advance t).mode = s.mode := by unfold State.advance; split <;> rfl
@[simp] theorem State.advance_evt (s : State) (t : Nat) : (s.advance t).evt = s.evt := by unfold State.advance; split <;> rfl
@[simp] theorem State.advance_cairn (s : State) (t : Nat) : (s.advance t).cairn = s.cairn := by unfold State.advance; split <;> rfl
@[simp] theorem State.advance_trigout (s : State) (t : Nat) : (s.advance t).trigout = s.trigout := by unfold State.advance; split <;> rfl
@[simp] theorem State.advance_conv (s : State) (t : Nat) : (s.advance t).conv = s.conv := by unfold State.advance; split <;> rfl
@[simp] theorem State.advance_chans (s : State) (t : Nat) : (s.advance t).chans = s.chans := by unfold State.advance; split <;> rfl
@[simp] theorem State.advance_trig (s : State) (t : Nat) : (s.advance t).trig = s.trig := by unfold State.advance; split <;> rfl
@[simp] theorem State.advance_tmr (s : State) (t : Nat) : (s.advance t).tmr = s.tmr := by unfold State.advance; split <;> rfl
@[simp] theorem State.advance_record (s : State) (t : Nat) : (s.advance t).record = s.record := by unfold State.advance; split <;> rfl
@[simp] theorem State.advance_churn (s : State) (t : Nat) : (s.advance t).churn = s.churn := by unfold State.advance; split <;> rfl
@[simp] theorem State.advance_fg (s : State) (t : Nat) : (s.advance t).fg = s.fg := by unfold State.advance; split <;> rfl
@[simp] theorem State.advance_mem (s : State) (t : Nat) : (s.advance t).mem = s.mem := by unfold State.advance; split <;> rfl
@[simp] theorem State.advance_link (s : State) (t : Nat) : (s.advance t).link = s.link := by unfold State.advance; split <;> rfl
@[simp] theorem State.advance_tap (s : State) (t : Nat) : (s.advance t).tap = s.tap := by unfold State.advance; split <;> rfl
@[simp] theorem State.advance_dma (s : State) (t : Nat) : (s.advance t).dma = s.dma := by unfold State.advance; split <;> rfl
@[simp] theorem State.advance_dsp (s : State) (t : Nat) : (s.advance t).dsp = s.dsp := by unfold State.advance; split <;> rfl
@[simp] theorem State.advance_sens (s : State) (t : Nat) : (s.advance t).sens = s.sens := by unfold State.advance; split <;> rfl
@[simp] theorem State.advance_mgt (s : State) (t : Nat) : (s.advance t).mgt = s.mgt := by unfold State.advance; split <;> rfl
@[simp] theorem State.advance_jtag (s : State) (t : Nat) : (s.advance t).jtag = s.jtag := by unfold State.advance; split <;> rfl
@[simp] theorem State.advance_hbm (s : State) (t : Nat) : (s.advance t).hbm = s.hbm := by unfold State.advance; split <;> rfl
@[simp] theorem State.advance_hostRead (s : State) (t : Nat) : (s.advance t).hostRead = s.hostRead := by unfold State.advance; split <;> rfl
@[simp] theorem State.advance_hostMem (s : State) (t : Nat) : (s.advance t).hostMem = s.hostMem := by unfold State.advance; split <;> rfl

/-! `setReg` -/

@[simp] theorem State.setReg_pending (s : State) (a : Nat) (v : W32) : (s.setReg a v).pending = s.pending := rfl
@[simp] theorem State.setReg_is9620 (s : State) (a : Nat) (v : W32) : (s.setReg a v).is9620 = s.is9620 := rfl
@[simp] theorem State.setReg_now (s : State) (a : Nat) (v : W32) : (s.setReg a v).now = s.now := rfl
@[simp] theorem State.setReg_freeCtr (s : State) (a : Nat) (v : W32) : (s.setReg a v).freeCtr = s.freeCtr := rfl
@[simp] theorem State.setReg_latches (s : State) (a : Nat) (v : W32) : (s.setReg a v).latches = s.latches := rfl
@[simp] theorem State.setReg_ks (s : State) (a : Nat) (v : W32) : (s.setReg a v).ks = s.ks := rfl
@[simp] theorem State.setReg_ref (s : State) (a : Nat) (v : W32) : (s.setReg a v).ref = s.ref := rfl
@[simp] theorem State.setReg_nod (s : State) (a : Nat) (v : W32) : (s.setReg a v).nod = s.nod := rfl
@[simp] theorem State.setReg_ptm (s : State) (a : Nat) (v : W32) : (s.setReg a v).ptm = s.ptm := rfl
@[simp] theorem State.setReg_cores (s : State) (a : Nat) (v : W32) : (s.setReg a v).cores = s.cores := rfl
@[simp] theorem State.setReg_smem (s : State) (a : Nat) (v : W32) : (s.setReg a v).smem = s.smem := rfl
@[simp] theorem State.setReg_smemLast (s : State) (a : Nat) (v : W32) : (s.setReg a v).smemLast = s.smemLast := rfl
@[simp] theorem State.setReg_smemNext (s : State) (a : Nat) (v : W32) : (s.setReg a v).smemNext = s.smemNext := rfl
@[simp] theorem State.setReg_smemJobs (s : State) (a : Nat) (v : W32) : (s.setReg a v).smemJobs = s.smemJobs := rfl
@[simp] theorem State.setReg_sems (s : State) (a : Nat) (v : W32) : (s.setReg a v).sems = s.sems := rfl
@[simp] theorem State.setReg_permits (s : State) (a : Nat) (v : W32) : (s.setReg a v).permits = s.permits := rfl
@[simp] theorem State.setReg_mode (s : State) (a : Nat) (v : W32) : (s.setReg a v).mode = s.mode := rfl
@[simp] theorem State.setReg_evt (s : State) (a : Nat) (v : W32) : (s.setReg a v).evt = s.evt := rfl
@[simp] theorem State.setReg_cairn (s : State) (a : Nat) (v : W32) : (s.setReg a v).cairn = s.cairn := rfl
@[simp] theorem State.setReg_trigout (s : State) (a : Nat) (v : W32) : (s.setReg a v).trigout = s.trigout := rfl
@[simp] theorem State.setReg_conv (s : State) (a : Nat) (v : W32) : (s.setReg a v).conv = s.conv := rfl
@[simp] theorem State.setReg_chans (s : State) (a : Nat) (v : W32) : (s.setReg a v).chans = s.chans := rfl
@[simp] theorem State.setReg_trig (s : State) (a : Nat) (v : W32) : (s.setReg a v).trig = s.trig := rfl
@[simp] theorem State.setReg_tmr (s : State) (a : Nat) (v : W32) : (s.setReg a v).tmr = s.tmr := rfl
@[simp] theorem State.setReg_record (s : State) (a : Nat) (v : W32) : (s.setReg a v).record = s.record := rfl
@[simp] theorem State.setReg_churn (s : State) (a : Nat) (v : W32) : (s.setReg a v).churn = s.churn := rfl
@[simp] theorem State.setReg_fg (s : State) (a : Nat) (v : W32) : (s.setReg a v).fg = s.fg := rfl
@[simp] theorem State.setReg_mem (s : State) (a : Nat) (v : W32) : (s.setReg a v).mem = s.mem := rfl
@[simp] theorem State.setReg_link (s : State) (a : Nat) (v : W32) : (s.setReg a v).link = s.link := rfl
@[simp] theorem State.setReg_tap (s : State) (a : Nat) (v : W32) : (s.setReg a v).tap = s.tap := rfl
@[simp] theorem State.setReg_dma (s : State) (a : Nat) (v : W32) : (s.setReg a v).dma = s.dma := rfl
@[simp] theorem State.setReg_dsp (s : State) (a : Nat) (v : W32) : (s.setReg a v).dsp = s.dsp := rfl
@[simp] theorem State.setReg_sens (s : State) (a : Nat) (v : W32) : (s.setReg a v).sens = s.sens := rfl
@[simp] theorem State.setReg_mgt (s : State) (a : Nat) (v : W32) : (s.setReg a v).mgt = s.mgt := rfl
@[simp] theorem State.setReg_jtag (s : State) (a : Nat) (v : W32) : (s.setReg a v).jtag = s.jtag := rfl
@[simp] theorem State.setReg_hbm (s : State) (a : Nat) (v : W32) : (s.setReg a v).hbm = s.hbm := rfl
@[simp] theorem State.setReg_hostRead (s : State) (a : Nat) (v : W32) : (s.setReg a v).hostRead = s.hostRead := rfl
@[simp] theorem State.setReg_hostMem (s : State) (a : Nat) (v : W32) : (s.setReg a v).hostMem = s.hostMem := rfl

/-! `setCore` -/

@[simp] theorem State.setCore_pending (s : State) (q : Fin 16) (c : Core) : (s.setCore q c).pending = s.pending := rfl
@[simp] theorem State.setCore_is9620 (s : State) (q : Fin 16) (c : Core) : (s.setCore q c).is9620 = s.is9620 := rfl
@[simp] theorem State.setCore_now (s : State) (q : Fin 16) (c : Core) : (s.setCore q c).now = s.now := rfl
@[simp] theorem State.setCore_freeCtr (s : State) (q : Fin 16) (c : Core) : (s.setCore q c).freeCtr = s.freeCtr := rfl
@[simp] theorem State.setCore_regs (s : State) (q : Fin 16) (c : Core) : (s.setCore q c).regs = s.regs := rfl
@[simp] theorem State.setCore_latches (s : State) (q : Fin 16) (c : Core) : (s.setCore q c).latches = s.latches := rfl
@[simp] theorem State.setCore_ks (s : State) (q : Fin 16) (c : Core) : (s.setCore q c).ks = s.ks := rfl
@[simp] theorem State.setCore_ref (s : State) (q : Fin 16) (c : Core) : (s.setCore q c).ref = s.ref := rfl
@[simp] theorem State.setCore_nod (s : State) (q : Fin 16) (c : Core) : (s.setCore q c).nod = s.nod := rfl
@[simp] theorem State.setCore_ptm (s : State) (q : Fin 16) (c : Core) : (s.setCore q c).ptm = s.ptm := rfl
@[simp] theorem State.setCore_smem (s : State) (q : Fin 16) (c : Core) : (s.setCore q c).smem = s.smem := rfl
@[simp] theorem State.setCore_smemLast (s : State) (q : Fin 16) (c : Core) : (s.setCore q c).smemLast = s.smemLast := rfl
@[simp] theorem State.setCore_smemNext (s : State) (q : Fin 16) (c : Core) : (s.setCore q c).smemNext = s.smemNext := rfl
@[simp] theorem State.setCore_smemJobs (s : State) (q : Fin 16) (c : Core) : (s.setCore q c).smemJobs = s.smemJobs := rfl
@[simp] theorem State.setCore_sems (s : State) (q : Fin 16) (c : Core) : (s.setCore q c).sems = s.sems := rfl
@[simp] theorem State.setCore_permits (s : State) (q : Fin 16) (c : Core) : (s.setCore q c).permits = s.permits := rfl
@[simp] theorem State.setCore_mode (s : State) (q : Fin 16) (c : Core) : (s.setCore q c).mode = s.mode := rfl
@[simp] theorem State.setCore_evt (s : State) (q : Fin 16) (c : Core) : (s.setCore q c).evt = s.evt := rfl
@[simp] theorem State.setCore_cairn (s : State) (q : Fin 16) (c : Core) : (s.setCore q c).cairn = s.cairn := rfl
@[simp] theorem State.setCore_trigout (s : State) (q : Fin 16) (c : Core) : (s.setCore q c).trigout = s.trigout := rfl
@[simp] theorem State.setCore_conv (s : State) (q : Fin 16) (c : Core) : (s.setCore q c).conv = s.conv := rfl
@[simp] theorem State.setCore_chans (s : State) (q : Fin 16) (c : Core) : (s.setCore q c).chans = s.chans := rfl
@[simp] theorem State.setCore_trig (s : State) (q : Fin 16) (c : Core) : (s.setCore q c).trig = s.trig := rfl
@[simp] theorem State.setCore_tmr (s : State) (q : Fin 16) (c : Core) : (s.setCore q c).tmr = s.tmr := rfl
@[simp] theorem State.setCore_record (s : State) (q : Fin 16) (c : Core) : (s.setCore q c).record = s.record := rfl
@[simp] theorem State.setCore_churn (s : State) (q : Fin 16) (c : Core) : (s.setCore q c).churn = s.churn := rfl
@[simp] theorem State.setCore_fg (s : State) (q : Fin 16) (c : Core) : (s.setCore q c).fg = s.fg := rfl
@[simp] theorem State.setCore_mem (s : State) (q : Fin 16) (c : Core) : (s.setCore q c).mem = s.mem := rfl
@[simp] theorem State.setCore_link (s : State) (q : Fin 16) (c : Core) : (s.setCore q c).link = s.link := rfl
@[simp] theorem State.setCore_tap (s : State) (q : Fin 16) (c : Core) : (s.setCore q c).tap = s.tap := rfl
@[simp] theorem State.setCore_dma (s : State) (q : Fin 16) (c : Core) : (s.setCore q c).dma = s.dma := rfl
@[simp] theorem State.setCore_dsp (s : State) (q : Fin 16) (c : Core) : (s.setCore q c).dsp = s.dsp := rfl
@[simp] theorem State.setCore_sens (s : State) (q : Fin 16) (c : Core) : (s.setCore q c).sens = s.sens := rfl
@[simp] theorem State.setCore_mgt (s : State) (q : Fin 16) (c : Core) : (s.setCore q c).mgt = s.mgt := rfl
@[simp] theorem State.setCore_jtag (s : State) (q : Fin 16) (c : Core) : (s.setCore q c).jtag = s.jtag := rfl
@[simp] theorem State.setCore_hbm (s : State) (q : Fin 16) (c : Core) : (s.setCore q c).hbm = s.hbm := rfl
@[simp] theorem State.setCore_hostRead (s : State) (q : Fin 16) (c : Core) : (s.setCore q c).hostRead = s.hostRead := rfl
@[simp] theorem State.setCore_hostMem (s : State) (q : Fin 16) (c : Core) : (s.setCore q c).hostMem = s.hostMem := rfl

/-! `resetRegs` -/

@[simp] theorem State.resetRegs_pending (s : State) (p : Nat → Bool) : (s.resetRegs p).pending = s.pending := rfl
@[simp] theorem State.resetRegs_is9620 (s : State) (p : Nat → Bool) : (s.resetRegs p).is9620 = s.is9620 := rfl
@[simp] theorem State.resetRegs_now (s : State) (p : Nat → Bool) : (s.resetRegs p).now = s.now := rfl
@[simp] theorem State.resetRegs_freeCtr (s : State) (p : Nat → Bool) : (s.resetRegs p).freeCtr = s.freeCtr := rfl
@[simp] theorem State.resetRegs_latches (s : State) (p : Nat → Bool) : (s.resetRegs p).latches = s.latches := rfl
@[simp] theorem State.resetRegs_ks (s : State) (p : Nat → Bool) : (s.resetRegs p).ks = s.ks := rfl
@[simp] theorem State.resetRegs_ref (s : State) (p : Nat → Bool) : (s.resetRegs p).ref = s.ref := rfl
@[simp] theorem State.resetRegs_nod (s : State) (p : Nat → Bool) : (s.resetRegs p).nod = s.nod := rfl
@[simp] theorem State.resetRegs_ptm (s : State) (p : Nat → Bool) : (s.resetRegs p).ptm = s.ptm := rfl
@[simp] theorem State.resetRegs_cores (s : State) (p : Nat → Bool) : (s.resetRegs p).cores = s.cores := rfl
@[simp] theorem State.resetRegs_smem (s : State) (p : Nat → Bool) : (s.resetRegs p).smem = s.smem := rfl
@[simp] theorem State.resetRegs_smemLast (s : State) (p : Nat → Bool) : (s.resetRegs p).smemLast = s.smemLast := rfl
@[simp] theorem State.resetRegs_smemNext (s : State) (p : Nat → Bool) : (s.resetRegs p).smemNext = s.smemNext := rfl
@[simp] theorem State.resetRegs_smemJobs (s : State) (p : Nat → Bool) : (s.resetRegs p).smemJobs = s.smemJobs := rfl
@[simp] theorem State.resetRegs_sems (s : State) (p : Nat → Bool) : (s.resetRegs p).sems = s.sems := rfl
@[simp] theorem State.resetRegs_permits (s : State) (p : Nat → Bool) : (s.resetRegs p).permits = s.permits := rfl
@[simp] theorem State.resetRegs_mode (s : State) (p : Nat → Bool) : (s.resetRegs p).mode = s.mode := rfl
@[simp] theorem State.resetRegs_evt (s : State) (p : Nat → Bool) : (s.resetRegs p).evt = s.evt := rfl
@[simp] theorem State.resetRegs_cairn (s : State) (p : Nat → Bool) : (s.resetRegs p).cairn = s.cairn := rfl
@[simp] theorem State.resetRegs_trigout (s : State) (p : Nat → Bool) : (s.resetRegs p).trigout = s.trigout := rfl
@[simp] theorem State.resetRegs_conv (s : State) (p : Nat → Bool) : (s.resetRegs p).conv = s.conv := rfl
@[simp] theorem State.resetRegs_chans (s : State) (p : Nat → Bool) : (s.resetRegs p).chans = s.chans := rfl
@[simp] theorem State.resetRegs_trig (s : State) (p : Nat → Bool) : (s.resetRegs p).trig = s.trig := rfl
@[simp] theorem State.resetRegs_tmr (s : State) (p : Nat → Bool) : (s.resetRegs p).tmr = s.tmr := rfl
@[simp] theorem State.resetRegs_record (s : State) (p : Nat → Bool) : (s.resetRegs p).record = s.record := rfl
@[simp] theorem State.resetRegs_churn (s : State) (p : Nat → Bool) : (s.resetRegs p).churn = s.churn := rfl
@[simp] theorem State.resetRegs_fg (s : State) (p : Nat → Bool) : (s.resetRegs p).fg = s.fg := rfl
@[simp] theorem State.resetRegs_mem (s : State) (p : Nat → Bool) : (s.resetRegs p).mem = s.mem := rfl
@[simp] theorem State.resetRegs_link (s : State) (p : Nat → Bool) : (s.resetRegs p).link = s.link := rfl
@[simp] theorem State.resetRegs_tap (s : State) (p : Nat → Bool) : (s.resetRegs p).tap = s.tap := rfl
@[simp] theorem State.resetRegs_dma (s : State) (p : Nat → Bool) : (s.resetRegs p).dma = s.dma := rfl
@[simp] theorem State.resetRegs_dsp (s : State) (p : Nat → Bool) : (s.resetRegs p).dsp = s.dsp := rfl
@[simp] theorem State.resetRegs_sens (s : State) (p : Nat → Bool) : (s.resetRegs p).sens = s.sens := rfl
@[simp] theorem State.resetRegs_mgt (s : State) (p : Nat → Bool) : (s.resetRegs p).mgt = s.mgt := rfl
@[simp] theorem State.resetRegs_jtag (s : State) (p : Nat → Bool) : (s.resetRegs p).jtag = s.jtag := rfl
@[simp] theorem State.resetRegs_hbm (s : State) (p : Nat → Bool) : (s.resetRegs p).hbm = s.hbm := rfl
@[simp] theorem State.resetRegs_hostRead (s : State) (p : Nat → Bool) : (s.resetRegs p).hostRead = s.hostRead := rfl
@[simp] theorem State.resetRegs_hostMem (s : State) (p : Nat → Bool) : (s.resetRegs p).hostMem = s.hostMem := rfl

/-! `latchSet` -/

@[simp] theorem State.latchSet_pending (s : State) (rdr a : Nat) (v : W32) : (s.latchSet rdr a v).pending = s.pending := rfl
@[simp] theorem State.latchSet_is9620 (s : State) (rdr a : Nat) (v : W32) : (s.latchSet rdr a v).is9620 = s.is9620 := rfl
@[simp] theorem State.latchSet_now (s : State) (rdr a : Nat) (v : W32) : (s.latchSet rdr a v).now = s.now := rfl
@[simp] theorem State.latchSet_freeCtr (s : State) (rdr a : Nat) (v : W32) : (s.latchSet rdr a v).freeCtr = s.freeCtr := rfl
@[simp] theorem State.latchSet_regs (s : State) (rdr a : Nat) (v : W32) : (s.latchSet rdr a v).regs = s.regs := rfl
@[simp] theorem State.latchSet_ks (s : State) (rdr a : Nat) (v : W32) : (s.latchSet rdr a v).ks = s.ks := rfl
@[simp] theorem State.latchSet_ref (s : State) (rdr a : Nat) (v : W32) : (s.latchSet rdr a v).ref = s.ref := rfl
@[simp] theorem State.latchSet_nod (s : State) (rdr a : Nat) (v : W32) : (s.latchSet rdr a v).nod = s.nod := rfl
@[simp] theorem State.latchSet_ptm (s : State) (rdr a : Nat) (v : W32) : (s.latchSet rdr a v).ptm = s.ptm := rfl
@[simp] theorem State.latchSet_cores (s : State) (rdr a : Nat) (v : W32) : (s.latchSet rdr a v).cores = s.cores := rfl
@[simp] theorem State.latchSet_smem (s : State) (rdr a : Nat) (v : W32) : (s.latchSet rdr a v).smem = s.smem := rfl
@[simp] theorem State.latchSet_smemLast (s : State) (rdr a : Nat) (v : W32) : (s.latchSet rdr a v).smemLast = s.smemLast := rfl
@[simp] theorem State.latchSet_smemNext (s : State) (rdr a : Nat) (v : W32) : (s.latchSet rdr a v).smemNext = s.smemNext := rfl
@[simp] theorem State.latchSet_smemJobs (s : State) (rdr a : Nat) (v : W32) : (s.latchSet rdr a v).smemJobs = s.smemJobs := rfl
@[simp] theorem State.latchSet_sems (s : State) (rdr a : Nat) (v : W32) : (s.latchSet rdr a v).sems = s.sems := rfl
@[simp] theorem State.latchSet_permits (s : State) (rdr a : Nat) (v : W32) : (s.latchSet rdr a v).permits = s.permits := rfl
@[simp] theorem State.latchSet_mode (s : State) (rdr a : Nat) (v : W32) : (s.latchSet rdr a v).mode = s.mode := rfl
@[simp] theorem State.latchSet_evt (s : State) (rdr a : Nat) (v : W32) : (s.latchSet rdr a v).evt = s.evt := rfl
@[simp] theorem State.latchSet_cairn (s : State) (rdr a : Nat) (v : W32) : (s.latchSet rdr a v).cairn = s.cairn := rfl
@[simp] theorem State.latchSet_trigout (s : State) (rdr a : Nat) (v : W32) : (s.latchSet rdr a v).trigout = s.trigout := rfl
@[simp] theorem State.latchSet_conv (s : State) (rdr a : Nat) (v : W32) : (s.latchSet rdr a v).conv = s.conv := rfl
@[simp] theorem State.latchSet_chans (s : State) (rdr a : Nat) (v : W32) : (s.latchSet rdr a v).chans = s.chans := rfl
@[simp] theorem State.latchSet_trig (s : State) (rdr a : Nat) (v : W32) : (s.latchSet rdr a v).trig = s.trig := rfl
@[simp] theorem State.latchSet_tmr (s : State) (rdr a : Nat) (v : W32) : (s.latchSet rdr a v).tmr = s.tmr := rfl
@[simp] theorem State.latchSet_record (s : State) (rdr a : Nat) (v : W32) : (s.latchSet rdr a v).record = s.record := rfl
@[simp] theorem State.latchSet_churn (s : State) (rdr a : Nat) (v : W32) : (s.latchSet rdr a v).churn = s.churn := rfl
@[simp] theorem State.latchSet_fg (s : State) (rdr a : Nat) (v : W32) : (s.latchSet rdr a v).fg = s.fg := rfl
@[simp] theorem State.latchSet_mem (s : State) (rdr a : Nat) (v : W32) : (s.latchSet rdr a v).mem = s.mem := rfl
@[simp] theorem State.latchSet_link (s : State) (rdr a : Nat) (v : W32) : (s.latchSet rdr a v).link = s.link := rfl
@[simp] theorem State.latchSet_tap (s : State) (rdr a : Nat) (v : W32) : (s.latchSet rdr a v).tap = s.tap := rfl
@[simp] theorem State.latchSet_dma (s : State) (rdr a : Nat) (v : W32) : (s.latchSet rdr a v).dma = s.dma := rfl
@[simp] theorem State.latchSet_dsp (s : State) (rdr a : Nat) (v : W32) : (s.latchSet rdr a v).dsp = s.dsp := rfl
@[simp] theorem State.latchSet_sens (s : State) (rdr a : Nat) (v : W32) : (s.latchSet rdr a v).sens = s.sens := rfl
@[simp] theorem State.latchSet_mgt (s : State) (rdr a : Nat) (v : W32) : (s.latchSet rdr a v).mgt = s.mgt := rfl
@[simp] theorem State.latchSet_jtag (s : State) (rdr a : Nat) (v : W32) : (s.latchSet rdr a v).jtag = s.jtag := rfl
@[simp] theorem State.latchSet_hbm (s : State) (rdr a : Nat) (v : W32) : (s.latchSet rdr a v).hbm = s.hbm := rfl
@[simp] theorem State.latchSet_hostRead (s : State) (rdr a : Nat) (v : W32) : (s.latchSet rdr a v).hostRead = s.hostRead := rfl
@[simp] theorem State.latchSet_hostMem (s : State) (rdr a : Nat) (v : W32) : (s.latchSet rdr a v).hostMem = s.hostMem := rfl

/-! `hostWrite` -/

@[simp] theorem State.hostWrite_pending (s : State) (a : Nat) (bs : List Byte) : (s.hostWrite a bs).pending = s.pending := rfl
@[simp] theorem State.hostWrite_is9620 (s : State) (a : Nat) (bs : List Byte) : (s.hostWrite a bs).is9620 = s.is9620 := rfl
@[simp] theorem State.hostWrite_now (s : State) (a : Nat) (bs : List Byte) : (s.hostWrite a bs).now = s.now := rfl
@[simp] theorem State.hostWrite_freeCtr (s : State) (a : Nat) (bs : List Byte) : (s.hostWrite a bs).freeCtr = s.freeCtr := rfl
@[simp] theorem State.hostWrite_regs (s : State) (a : Nat) (bs : List Byte) : (s.hostWrite a bs).regs = s.regs := rfl
@[simp] theorem State.hostWrite_latches (s : State) (a : Nat) (bs : List Byte) : (s.hostWrite a bs).latches = s.latches := rfl
@[simp] theorem State.hostWrite_ks (s : State) (a : Nat) (bs : List Byte) : (s.hostWrite a bs).ks = s.ks := rfl
@[simp] theorem State.hostWrite_ref (s : State) (a : Nat) (bs : List Byte) : (s.hostWrite a bs).ref = s.ref := rfl
@[simp] theorem State.hostWrite_nod (s : State) (a : Nat) (bs : List Byte) : (s.hostWrite a bs).nod = s.nod := rfl
@[simp] theorem State.hostWrite_ptm (s : State) (a : Nat) (bs : List Byte) : (s.hostWrite a bs).ptm = s.ptm := rfl
@[simp] theorem State.hostWrite_cores (s : State) (a : Nat) (bs : List Byte) : (s.hostWrite a bs).cores = s.cores := rfl
@[simp] theorem State.hostWrite_smem (s : State) (a : Nat) (bs : List Byte) : (s.hostWrite a bs).smem = s.smem := rfl
@[simp] theorem State.hostWrite_smemLast (s : State) (a : Nat) (bs : List Byte) : (s.hostWrite a bs).smemLast = s.smemLast := rfl
@[simp] theorem State.hostWrite_smemNext (s : State) (a : Nat) (bs : List Byte) : (s.hostWrite a bs).smemNext = s.smemNext := rfl
@[simp] theorem State.hostWrite_smemJobs (s : State) (a : Nat) (bs : List Byte) : (s.hostWrite a bs).smemJobs = s.smemJobs := rfl
@[simp] theorem State.hostWrite_sems (s : State) (a : Nat) (bs : List Byte) : (s.hostWrite a bs).sems = s.sems := rfl
@[simp] theorem State.hostWrite_permits (s : State) (a : Nat) (bs : List Byte) : (s.hostWrite a bs).permits = s.permits := rfl
@[simp] theorem State.hostWrite_mode (s : State) (a : Nat) (bs : List Byte) : (s.hostWrite a bs).mode = s.mode := rfl
@[simp] theorem State.hostWrite_evt (s : State) (a : Nat) (bs : List Byte) : (s.hostWrite a bs).evt = s.evt := rfl
@[simp] theorem State.hostWrite_cairn (s : State) (a : Nat) (bs : List Byte) : (s.hostWrite a bs).cairn = s.cairn := rfl
@[simp] theorem State.hostWrite_trigout (s : State) (a : Nat) (bs : List Byte) : (s.hostWrite a bs).trigout = s.trigout := rfl
@[simp] theorem State.hostWrite_conv (s : State) (a : Nat) (bs : List Byte) : (s.hostWrite a bs).conv = s.conv := rfl
@[simp] theorem State.hostWrite_chans (s : State) (a : Nat) (bs : List Byte) : (s.hostWrite a bs).chans = s.chans := rfl
@[simp] theorem State.hostWrite_trig (s : State) (a : Nat) (bs : List Byte) : (s.hostWrite a bs).trig = s.trig := rfl
@[simp] theorem State.hostWrite_tmr (s : State) (a : Nat) (bs : List Byte) : (s.hostWrite a bs).tmr = s.tmr := rfl
@[simp] theorem State.hostWrite_record (s : State) (a : Nat) (bs : List Byte) : (s.hostWrite a bs).record = s.record := rfl
@[simp] theorem State.hostWrite_churn (s : State) (a : Nat) (bs : List Byte) : (s.hostWrite a bs).churn = s.churn := rfl
@[simp] theorem State.hostWrite_fg (s : State) (a : Nat) (bs : List Byte) : (s.hostWrite a bs).fg = s.fg := rfl
@[simp] theorem State.hostWrite_mem (s : State) (a : Nat) (bs : List Byte) : (s.hostWrite a bs).mem = s.mem := rfl
@[simp] theorem State.hostWrite_link (s : State) (a : Nat) (bs : List Byte) : (s.hostWrite a bs).link = s.link := rfl
@[simp] theorem State.hostWrite_tap (s : State) (a : Nat) (bs : List Byte) : (s.hostWrite a bs).tap = s.tap := rfl
@[simp] theorem State.hostWrite_dma (s : State) (a : Nat) (bs : List Byte) : (s.hostWrite a bs).dma = s.dma := rfl
@[simp] theorem State.hostWrite_dsp (s : State) (a : Nat) (bs : List Byte) : (s.hostWrite a bs).dsp = s.dsp := rfl
@[simp] theorem State.hostWrite_sens (s : State) (a : Nat) (bs : List Byte) : (s.hostWrite a bs).sens = s.sens := rfl
@[simp] theorem State.hostWrite_mgt (s : State) (a : Nat) (bs : List Byte) : (s.hostWrite a bs).mgt = s.mgt := rfl
@[simp] theorem State.hostWrite_jtag (s : State) (a : Nat) (bs : List Byte) : (s.hostWrite a bs).jtag = s.jtag := rfl
@[simp] theorem State.hostWrite_hbm (s : State) (a : Nat) (bs : List Byte) : (s.hostWrite a bs).hbm = s.hbm := rfl
@[simp] theorem State.hostWrite_hostRead (s : State) (a : Nat) (bs : List Byte) : (s.hostWrite a bs).hostRead = s.hostRead := rfl

/-! `cairnHw` -/

@[simp] theorem State.cairnHw_pending (s : State) (r : CairnReq) : (s.cairnHw r).pending = s.pending := by unfold State.cairnHw; split <;> rfl
@[simp] theorem State.cairnHw_is9620 (s : State) (r : CairnReq) : (s.cairnHw r).is9620 = s.is9620 := by unfold State.cairnHw; split <;> rfl
@[simp] theorem State.cairnHw_now (s : State) (r : CairnReq) : (s.cairnHw r).now = s.now := by unfold State.cairnHw; split <;> rfl
@[simp] theorem State.cairnHw_freeCtr (s : State) (r : CairnReq) : (s.cairnHw r).freeCtr = s.freeCtr := by unfold State.cairnHw; split <;> rfl
@[simp] theorem State.cairnHw_regs (s : State) (r : CairnReq) : (s.cairnHw r).regs = s.regs := by unfold State.cairnHw; split <;> rfl
@[simp] theorem State.cairnHw_latches (s : State) (r : CairnReq) : (s.cairnHw r).latches = s.latches := by unfold State.cairnHw; split <;> rfl
@[simp] theorem State.cairnHw_ks (s : State) (r : CairnReq) : (s.cairnHw r).ks = s.ks := by unfold State.cairnHw; split <;> rfl
@[simp] theorem State.cairnHw_ref (s : State) (r : CairnReq) : (s.cairnHw r).ref = s.ref := by unfold State.cairnHw; split <;> rfl
@[simp] theorem State.cairnHw_nod (s : State) (r : CairnReq) : (s.cairnHw r).nod = s.nod := by unfold State.cairnHw; split <;> rfl
@[simp] theorem State.cairnHw_ptm (s : State) (r : CairnReq) : (s.cairnHw r).ptm = s.ptm := by unfold State.cairnHw; split <;> rfl
@[simp] theorem State.cairnHw_cores (s : State) (r : CairnReq) : (s.cairnHw r).cores = s.cores := by unfold State.cairnHw; split <;> rfl
@[simp] theorem State.cairnHw_smem (s : State) (r : CairnReq) : (s.cairnHw r).smem = s.smem := by unfold State.cairnHw; split <;> rfl
@[simp] theorem State.cairnHw_smemLast (s : State) (r : CairnReq) : (s.cairnHw r).smemLast = s.smemLast := by unfold State.cairnHw; split <;> rfl
@[simp] theorem State.cairnHw_smemNext (s : State) (r : CairnReq) : (s.cairnHw r).smemNext = s.smemNext := by unfold State.cairnHw; split <;> rfl
@[simp] theorem State.cairnHw_smemJobs (s : State) (r : CairnReq) : (s.cairnHw r).smemJobs = s.smemJobs := by unfold State.cairnHw; split <;> rfl
@[simp] theorem State.cairnHw_sems (s : State) (r : CairnReq) : (s.cairnHw r).sems = s.sems := by unfold State.cairnHw; split <;> rfl
@[simp] theorem State.cairnHw_permits (s : State) (r : CairnReq) : (s.cairnHw r).permits = s.permits := by unfold State.cairnHw; split <;> rfl
@[simp] theorem State.cairnHw_mode (s : State) (r : CairnReq) : (s.cairnHw r).mode = s.mode := by unfold State.cairnHw; split <;> rfl
@[simp] theorem State.cairnHw_evt (s : State) (r : CairnReq) : (s.cairnHw r).evt = s.evt := by unfold State.cairnHw; split <;> rfl
@[simp] theorem State.cairnHw_trigout (s : State) (r : CairnReq) : (s.cairnHw r).trigout = s.trigout := by unfold State.cairnHw; split <;> rfl
@[simp] theorem State.cairnHw_conv (s : State) (r : CairnReq) : (s.cairnHw r).conv = s.conv := by unfold State.cairnHw; split <;> rfl
@[simp] theorem State.cairnHw_chans (s : State) (r : CairnReq) : (s.cairnHw r).chans = s.chans := by unfold State.cairnHw; split <;> rfl
@[simp] theorem State.cairnHw_trig (s : State) (r : CairnReq) : (s.cairnHw r).trig = s.trig := by unfold State.cairnHw; split <;> rfl
@[simp] theorem State.cairnHw_tmr (s : State) (r : CairnReq) : (s.cairnHw r).tmr = s.tmr := by unfold State.cairnHw; split <;> rfl
@[simp] theorem State.cairnHw_record (s : State) (r : CairnReq) : (s.cairnHw r).record = s.record := by unfold State.cairnHw; split <;> rfl
@[simp] theorem State.cairnHw_churn (s : State) (r : CairnReq) : (s.cairnHw r).churn = s.churn := by unfold State.cairnHw; split <;> rfl
@[simp] theorem State.cairnHw_fg (s : State) (r : CairnReq) : (s.cairnHw r).fg = s.fg := by unfold State.cairnHw; split <;> rfl
@[simp] theorem State.cairnHw_mem (s : State) (r : CairnReq) : (s.cairnHw r).mem = s.mem := by unfold State.cairnHw; split <;> rfl
@[simp] theorem State.cairnHw_link (s : State) (r : CairnReq) : (s.cairnHw r).link = s.link := by unfold State.cairnHw; split <;> rfl
@[simp] theorem State.cairnHw_tap (s : State) (r : CairnReq) : (s.cairnHw r).tap = s.tap := by unfold State.cairnHw; split <;> rfl
@[simp] theorem State.cairnHw_dma (s : State) (r : CairnReq) : (s.cairnHw r).dma = s.dma := by unfold State.cairnHw; split <;> rfl
@[simp] theorem State.cairnHw_dsp (s : State) (r : CairnReq) : (s.cairnHw r).dsp = s.dsp := by unfold State.cairnHw; split <;> rfl
@[simp] theorem State.cairnHw_sens (s : State) (r : CairnReq) : (s.cairnHw r).sens = s.sens := by unfold State.cairnHw; split <;> rfl
@[simp] theorem State.cairnHw_mgt (s : State) (r : CairnReq) : (s.cairnHw r).mgt = s.mgt := by unfold State.cairnHw; split <;> rfl
@[simp] theorem State.cairnHw_jtag (s : State) (r : CairnReq) : (s.cairnHw r).jtag = s.jtag := by unfold State.cairnHw; split <;> rfl
@[simp] theorem State.cairnHw_hbm (s : State) (r : CairnReq) : (s.cairnHw r).hbm = s.hbm := by unfold State.cairnHw; split <;> rfl
@[simp] theorem State.cairnHw_hostRead (s : State) (r : CairnReq) : (s.cairnHw r).hostRead = s.hostRead := by unfold State.cairnHw; split <;> rfl
@[simp] theorem State.cairnHw_hostMem (s : State) (r : CairnReq) : (s.cairnHw r).hostMem = s.hostMem := by unfold State.cairnHw; split <;> rfl

/-! `cairnFw` -/

@[simp] theorem State.cairnFw_pending (s : State) (r : CairnReq) : (s.cairnFw r).pending = s.pending := by unfold State.cairnFw; split <;> rfl
@[simp] theorem State.cairnFw_is9620 (s : State) (r : CairnReq) : (s.cairnFw r).is9620 = s.is9620 := by unfold State.cairnFw; split <;> rfl
@[simp] theorem State.cairnFw_now (s : State) (r : CairnReq) : (s.cairnFw r).now = s.now := by unfold State.cairnFw; split <;> rfl
@[simp] theorem State.cairnFw_freeCtr (s : State) (r : CairnReq) : (s.cairnFw r).freeCtr = s.freeCtr := by unfold State.cairnFw; split <;> rfl
@[simp] theorem State.cairnFw_regs (s : State) (r : CairnReq) : (s.cairnFw r).regs = s.regs := by unfold State.cairnFw; split <;> rfl
@[simp] theorem State.cairnFw_latches (s : State) (r : CairnReq) : (s.cairnFw r).latches = s.latches := by unfold State.cairnFw; split <;> rfl
@[simp] theorem State.cairnFw_ks (s : State) (r : CairnReq) : (s.cairnFw r).ks = s.ks := by unfold State.cairnFw; split <;> rfl
@[simp] theorem State.cairnFw_ref (s : State) (r : CairnReq) : (s.cairnFw r).ref = s.ref := by unfold State.cairnFw; split <;> rfl
@[simp] theorem State.cairnFw_nod (s : State) (r : CairnReq) : (s.cairnFw r).nod = s.nod := by unfold State.cairnFw; split <;> rfl
@[simp] theorem State.cairnFw_ptm (s : State) (r : CairnReq) : (s.cairnFw r).ptm = s.ptm := by unfold State.cairnFw; split <;> rfl
@[simp] theorem State.cairnFw_cores (s : State) (r : CairnReq) : (s.cairnFw r).cores = s.cores := by unfold State.cairnFw; split <;> rfl
@[simp] theorem State.cairnFw_smem (s : State) (r : CairnReq) : (s.cairnFw r).smem = s.smem := by unfold State.cairnFw; split <;> rfl
@[simp] theorem State.cairnFw_smemLast (s : State) (r : CairnReq) : (s.cairnFw r).smemLast = s.smemLast := by unfold State.cairnFw; split <;> rfl
@[simp] theorem State.cairnFw_smemNext (s : State) (r : CairnReq) : (s.cairnFw r).smemNext = s.smemNext := by unfold State.cairnFw; split <;> rfl
@[simp] theorem State.cairnFw_smemJobs (s : State) (r : CairnReq) : (s.cairnFw r).smemJobs = s.smemJobs := by unfold State.cairnFw; split <;> rfl
@[simp] theorem State.cairnFw_sems (s : State) (r : CairnReq) : (s.cairnFw r).sems = s.sems := by unfold State.cairnFw; split <;> rfl
@[simp] theorem State.cairnFw_permits (s : State) (r : CairnReq) : (s.cairnFw r).permits = s.permits := by unfold State.cairnFw; split <;> rfl
@[simp] theorem State.cairnFw_mode (s : State) (r : CairnReq) : (s.cairnFw r).mode = s.mode := by unfold State.cairnFw; split <;> rfl
@[simp] theorem State.cairnFw_evt (s : State) (r : CairnReq) : (s.cairnFw r).evt = s.evt := by unfold State.cairnFw; split <;> rfl
@[simp] theorem State.cairnFw_trigout (s : State) (r : CairnReq) : (s.cairnFw r).trigout = s.trigout := by unfold State.cairnFw; split <;> rfl
@[simp] theorem State.cairnFw_conv (s : State) (r : CairnReq) : (s.cairnFw r).conv = s.conv := by unfold State.cairnFw; split <;> rfl
@[simp] theorem State.cairnFw_chans (s : State) (r : CairnReq) : (s.cairnFw r).chans = s.chans := by unfold State.cairnFw; split <;> rfl
@[simp] theorem State.cairnFw_trig (s : State) (r : CairnReq) : (s.cairnFw r).trig = s.trig := by unfold State.cairnFw; split <;> rfl
@[simp] theorem State.cairnFw_tmr (s : State) (r : CairnReq) : (s.cairnFw r).tmr = s.tmr := by unfold State.cairnFw; split <;> rfl
@[simp] theorem State.cairnFw_record (s : State) (r : CairnReq) : (s.cairnFw r).record = s.record := by unfold State.cairnFw; split <;> rfl
@[simp] theorem State.cairnFw_churn (s : State) (r : CairnReq) : (s.cairnFw r).churn = s.churn := by unfold State.cairnFw; split <;> rfl
@[simp] theorem State.cairnFw_fg (s : State) (r : CairnReq) : (s.cairnFw r).fg = s.fg := by unfold State.cairnFw; split <;> rfl
@[simp] theorem State.cairnFw_mem (s : State) (r : CairnReq) : (s.cairnFw r).mem = s.mem := by unfold State.cairnFw; split <;> rfl
@[simp] theorem State.cairnFw_link (s : State) (r : CairnReq) : (s.cairnFw r).link = s.link := by unfold State.cairnFw; split <;> rfl
@[simp] theorem State.cairnFw_tap (s : State) (r : CairnReq) : (s.cairnFw r).tap = s.tap := by unfold State.cairnFw; split <;> rfl
@[simp] theorem State.cairnFw_dma (s : State) (r : CairnReq) : (s.cairnFw r).dma = s.dma := by unfold State.cairnFw; split <;> rfl
@[simp] theorem State.cairnFw_dsp (s : State) (r : CairnReq) : (s.cairnFw r).dsp = s.dsp := by unfold State.cairnFw; split <;> rfl
@[simp] theorem State.cairnFw_sens (s : State) (r : CairnReq) : (s.cairnFw r).sens = s.sens := by unfold State.cairnFw; split <;> rfl
@[simp] theorem State.cairnFw_mgt (s : State) (r : CairnReq) : (s.cairnFw r).mgt = s.mgt := by unfold State.cairnFw; split <;> rfl
@[simp] theorem State.cairnFw_jtag (s : State) (r : CairnReq) : (s.cairnFw r).jtag = s.jtag := by unfold State.cairnFw; split <;> rfl
@[simp] theorem State.cairnFw_hbm (s : State) (r : CairnReq) : (s.cairnFw r).hbm = s.hbm := by unfold State.cairnFw; split <;> rfl
@[simp] theorem State.cairnFw_hostRead (s : State) (r : CairnReq) : (s.cairnFw r).hostRead = s.hostRead := by unfold State.cairnFw; split <;> rfl
@[simp] theorem State.cairnFw_hostMem (s : State) (r : CairnReq) : (s.cairnFw r).hostMem = s.hostMem := by unfold State.cairnFw; split <;> rfl

/-! `evtRequest` -/

@[simp] theorem State.evtRequest_pending (s : State) (v b : Nat) : (s.evtRequest v b).pending = s.pending := by unfold State.evtRequest; split; rfl; split <;> rfl
@[simp] theorem State.evtRequest_is9620 (s : State) (v b : Nat) : (s.evtRequest v b).is9620 = s.is9620 := by unfold State.evtRequest; split; rfl; split <;> rfl
@[simp] theorem State.evtRequest_now (s : State) (v b : Nat) : (s.evtRequest v b).now = s.now := by unfold State.evtRequest; split; rfl; split <;> rfl
@[simp] theorem State.evtRequest_freeCtr (s : State) (v b : Nat) : (s.evtRequest v b).freeCtr = s.freeCtr := by unfold State.evtRequest; split; rfl; split <;> rfl
@[simp] theorem State.evtRequest_latches (s : State) (v b : Nat) : (s.evtRequest v b).latches = s.latches := by unfold State.evtRequest; split; rfl; split <;> rfl
@[simp] theorem State.evtRequest_ks (s : State) (v b : Nat) : (s.evtRequest v b).ks = s.ks := by unfold State.evtRequest; split; rfl; split <;> rfl
@[simp] theorem State.evtRequest_ref (s : State) (v b : Nat) : (s.evtRequest v b).ref = s.ref := by unfold State.evtRequest; split; rfl; split <;> rfl
@[simp] theorem State.evtRequest_nod (s : State) (v b : Nat) : (s.evtRequest v b).nod = s.nod := by unfold State.evtRequest; split; rfl; split <;> rfl
@[simp] theorem State.evtRequest_ptm (s : State) (v b : Nat) : (s.evtRequest v b).ptm = s.ptm := by unfold State.evtRequest; split; rfl; split <;> rfl
@[simp] theorem State.evtRequest_cores (s : State) (v b : Nat) : (s.evtRequest v b).cores = s.cores := by unfold State.evtRequest; split; rfl; split <;> rfl
@[simp] theorem State.evtRequest_smem (s : State) (v b : Nat) : (s.evtRequest v b).smem = s.smem := by unfold State.evtRequest; split; rfl; split <;> rfl
@[simp] theorem State.evtRequest_smemLast (s : State) (v b : Nat) : (s.evtRequest v b).smemLast = s.smemLast := by unfold State.evtRequest; split; rfl; split <;> rfl
@[simp] theorem State.evtRequest_smemNext (s : State) (v b : Nat) : (s.evtRequest v b).smemNext = s.smemNext := by unfold State.evtRequest; split; rfl; split <;> rfl
@[simp] theorem State.evtRequest_smemJobs (s : State) (v b : Nat) : (s.evtRequest v b).smemJobs = s.smemJobs := by unfold State.evtRequest; split; rfl; split <;> rfl
@[simp] theorem State.evtRequest_sems (s : State) (v b : Nat) : (s.evtRequest v b).sems = s.sems := by unfold State.evtRequest; split; rfl; split <;> rfl
@[simp] theorem State.evtRequest_permits (s : State) (v b : Nat) : (s.evtRequest v b).permits = s.permits := by unfold State.evtRequest; split; rfl; split <;> rfl
@[simp] theorem State.evtRequest_mode (s : State) (v b : Nat) : (s.evtRequest v b).mode = s.mode := by unfold State.evtRequest; split; rfl; split <;> rfl
@[simp] theorem State.evtRequest_cairn (s : State) (v b : Nat) : (s.evtRequest v b).cairn = s.cairn := by unfold State.evtRequest; split; rfl; split <;> rfl
@[simp] theorem State.evtRequest_trigout (s : State) (v b : Nat) : (s.evtRequest v b).trigout = s.trigout := by unfold State.evtRequest; split; rfl; split <;> rfl
@[simp] theorem State.evtRequest_conv (s : State) (v b : Nat) : (s.evtRequest v b).conv = s.conv := by unfold State.evtRequest; split; rfl; split <;> rfl
@[simp] theorem State.evtRequest_chans (s : State) (v b : Nat) : (s.evtRequest v b).chans = s.chans := by unfold State.evtRequest; split; rfl; split <;> rfl
@[simp] theorem State.evtRequest_trig (s : State) (v b : Nat) : (s.evtRequest v b).trig = s.trig := by unfold State.evtRequest; split; rfl; split <;> rfl
@[simp] theorem State.evtRequest_tmr (s : State) (v b : Nat) : (s.evtRequest v b).tmr = s.tmr := by unfold State.evtRequest; split; rfl; split <;> rfl
@[simp] theorem State.evtRequest_record (s : State) (v b : Nat) : (s.evtRequest v b).record = s.record := by unfold State.evtRequest; split; rfl; split <;> rfl
@[simp] theorem State.evtRequest_churn (s : State) (v b : Nat) : (s.evtRequest v b).churn = s.churn := by unfold State.evtRequest; split; rfl; split <;> rfl
@[simp] theorem State.evtRequest_fg (s : State) (v b : Nat) : (s.evtRequest v b).fg = s.fg := by unfold State.evtRequest; split; rfl; split <;> rfl
@[simp] theorem State.evtRequest_mem (s : State) (v b : Nat) : (s.evtRequest v b).mem = s.mem := by unfold State.evtRequest; split; rfl; split <;> rfl
@[simp] theorem State.evtRequest_link (s : State) (v b : Nat) : (s.evtRequest v b).link = s.link := by unfold State.evtRequest; split; rfl; split <;> rfl
@[simp] theorem State.evtRequest_tap (s : State) (v b : Nat) : (s.evtRequest v b).tap = s.tap := by unfold State.evtRequest; split; rfl; split <;> rfl
@[simp] theorem State.evtRequest_dma (s : State) (v b : Nat) : (s.evtRequest v b).dma = s.dma := by unfold State.evtRequest; split; rfl; split <;> rfl
@[simp] theorem State.evtRequest_dsp (s : State) (v b : Nat) : (s.evtRequest v b).dsp = s.dsp := by unfold State.evtRequest; split; rfl; split <;> rfl
@[simp] theorem State.evtRequest_sens (s : State) (v b : Nat) : (s.evtRequest v b).sens = s.sens := by unfold State.evtRequest; split; rfl; split <;> rfl
@[simp] theorem State.evtRequest_mgt (s : State) (v b : Nat) : (s.evtRequest v b).mgt = s.mgt := by unfold State.evtRequest; split; rfl; split <;> rfl
@[simp] theorem State.evtRequest_jtag (s : State) (v b : Nat) : (s.evtRequest v b).jtag = s.jtag := by unfold State.evtRequest; split; rfl; split <;> rfl
@[simp] theorem State.evtRequest_hbm (s : State) (v b : Nat) : (s.evtRequest v b).hbm = s.hbm := by unfold State.evtRequest; split; rfl; split <;> rfl
@[simp] theorem State.evtRequest_hostRead (s : State) (v b : Nat) : (s.evtRequest v b).hostRead = s.hostRead := by unfold State.evtRequest; split; rfl; split <;> rfl
@[simp] theorem State.evtRequest_hostMem (s : State) (v b : Nat) : (s.evtRequest v b).hostMem = s.hostMem := by unfold State.evtRequest; split; rfl; split <;> rfl

/-! `evtMsix` -/

@[simp] theorem State.evtMsix_pending (s : State) (src b : Nat) : (s.evtMsix src b).pending = s.pending := by simp only [State.evtMsix]; split; rfl; split <;> split <;> first | rfl | rw [State.evtRequest_pending]
@[simp] theorem State.evtMsix_is9620 (s : State) (src b : Nat) : (s.evtMsix src b).is9620 = s.is9620 := by simp only [State.evtMsix]; split; rfl; split <;> split <;> first | rfl | rw [State.evtRequest_is9620]
@[simp] theorem State.evtMsix_now (s : State) (src b : Nat) : (s.evtMsix src b).now = s.now := by simp only [State.evtMsix]; split; rfl; split <;> split <;> first | rfl | rw [State.evtRequest_now]
@[simp] theorem State.evtMsix_freeCtr (s : State) (src b : Nat) : (s.evtMsix src b).freeCtr = s.freeCtr := by simp only [State.evtMsix]; split; rfl; split <;> split <;> first | rfl | rw [State.evtRequest_freeCtr]
@[simp] theorem State.evtMsix_latches (s : State) (src b : Nat) : (s.evtMsix src b).latches = s.latches := by simp only [State.evtMsix]; split; rfl; split <;> split <;> first | rfl | rw [State.evtRequest_latches]
@[simp] theorem State.evtMsix_ks (s : State) (src b : Nat) : (s.evtMsix src b).ks = s.ks := by simp only [State.evtMsix]; split; rfl; split <;> split <;> first | rfl | rw [State.evtRequest_ks]
@[simp] theorem State.evtMsix_ref (s : State) (src b : Nat) : (s.evtMsix src b).ref = s.ref := by simp only [State.evtMsix]; split; rfl; split <;> split <;> first | rfl | rw [State.evtRequest_ref]
@[simp] theorem State.evtMsix_nod (s : State) (src b : Nat) : (s.evtMsix src b).nod = s.nod := by simp only [State.evtMsix]; split; rfl; split <;> split <;> first | rfl | rw [State.evtRequest_nod]
@[simp] theorem State.evtMsix_ptm (s : State) (src b : Nat) : (s.evtMsix src b).ptm = s.ptm := by simp only [State.evtMsix]; split; rfl; split <;> split <;> first | rfl | rw [State.evtRequest_ptm]
@[simp] theorem State.evtMsix_cores (s : State) (src b : Nat) : (s.evtMsix src b).cores = s.cores := by simp only [State.evtMsix]; split; rfl; split <;> split <;> first | rfl | rw [State.evtRequest_cores]
@[simp] theorem State.evtMsix_smem (s : State) (src b : Nat) : (s.evtMsix src b).smem = s.smem := by simp only [State.evtMsix]; split; rfl; split <;> split <;> first | rfl | rw [State.evtRequest_smem]
@[simp] theorem State.evtMsix_smemLast (s : State) (src b : Nat) : (s.evtMsix src b).smemLast = s.smemLast := by simp only [State.evtMsix]; split; rfl; split <;> split <;> first | rfl | rw [State.evtRequest_smemLast]
@[simp] theorem State.evtMsix_smemNext (s : State) (src b : Nat) : (s.evtMsix src b).smemNext = s.smemNext := by simp only [State.evtMsix]; split; rfl; split <;> split <;> first | rfl | rw [State.evtRequest_smemNext]
@[simp] theorem State.evtMsix_smemJobs (s : State) (src b : Nat) : (s.evtMsix src b).smemJobs = s.smemJobs := by simp only [State.evtMsix]; split; rfl; split <;> split <;> first | rfl | rw [State.evtRequest_smemJobs]
@[simp] theorem State.evtMsix_sems (s : State) (src b : Nat) : (s.evtMsix src b).sems = s.sems := by simp only [State.evtMsix]; split; rfl; split <;> split <;> first | rfl | rw [State.evtRequest_sems]
@[simp] theorem State.evtMsix_permits (s : State) (src b : Nat) : (s.evtMsix src b).permits = s.permits := by simp only [State.evtMsix]; split; rfl; split <;> split <;> first | rfl | rw [State.evtRequest_permits]
@[simp] theorem State.evtMsix_mode (s : State) (src b : Nat) : (s.evtMsix src b).mode = s.mode := by simp only [State.evtMsix]; split; rfl; split <;> split <;> first | rfl | rw [State.evtRequest_mode]
@[simp] theorem State.evtMsix_cairn (s : State) (src b : Nat) : (s.evtMsix src b).cairn = s.cairn := by simp only [State.evtMsix]; split; rfl; split <;> split <;> first | rfl | rw [State.evtRequest_cairn]
@[simp] theorem State.evtMsix_trigout (s : State) (src b : Nat) : (s.evtMsix src b).trigout = s.trigout := by simp only [State.evtMsix]; split; rfl; split <;> split <;> first | rfl | rw [State.evtRequest_trigout]
@[simp] theorem State.evtMsix_conv (s : State) (src b : Nat) : (s.evtMsix src b).conv = s.conv := by simp only [State.evtMsix]; split; rfl; split <;> split <;> first | rfl | rw [State.evtRequest_conv]
@[simp] theorem State.evtMsix_chans (s : State) (src b : Nat) : (s.evtMsix src b).chans = s.chans := by simp only [State.evtMsix]; split; rfl; split <;> split <;> first | rfl | rw [State.evtRequest_chans]
@[simp] theorem State.evtMsix_trig (s : State) (src b : Nat) : (s.evtMsix src b).trig = s.trig := by simp only [State.evtMsix]; split; rfl; split <;> split <;> first | rfl | rw [State.evtRequest_trig]
@[simp] theorem State.evtMsix_tmr (s : State) (src b : Nat) : (s.evtMsix src b).tmr = s.tmr := by simp only [State.evtMsix]; split; rfl; split <;> split <;> first | rfl | rw [State.evtRequest_tmr]
@[simp] theorem State.evtMsix_record (s : State) (src b : Nat) : (s.evtMsix src b).record = s.record := by simp only [State.evtMsix]; split; rfl; split <;> split <;> first | rfl | rw [State.evtRequest_record]
@[simp] theorem State.evtMsix_churn (s : State) (src b : Nat) : (s.evtMsix src b).churn = s.churn := by simp only [State.evtMsix]; split; rfl; split <;> split <;> first | rfl | rw [State.evtRequest_churn]
@[simp] theorem State.evtMsix_fg (s : State) (src b : Nat) : (s.evtMsix src b).fg = s.fg := by simp only [State.evtMsix]; split; rfl; split <;> split <;> first | rfl | rw [State.evtRequest_fg]
@[simp] theorem State.evtMsix_mem (s : State) (src b : Nat) : (s.evtMsix src b).mem = s.mem := by simp only [State.evtMsix]; split; rfl; split <;> split <;> first | rfl | rw [State.evtRequest_mem]
@[simp] theorem State.evtMsix_link (s : State) (src b : Nat) : (s.evtMsix src b).link = s.link := by simp only [State.evtMsix]; split; rfl; split <;> split <;> first | rfl | rw [State.evtRequest_link]
@[simp] theorem State.evtMsix_tap (s : State) (src b : Nat) : (s.evtMsix src b).tap = s.tap := by simp only [State.evtMsix]; split; rfl; split <;> split <;> first | rfl | rw [State.evtRequest_tap]
@[simp] theorem State.evtMsix_dma (s : State) (src b : Nat) : (s.evtMsix src b).dma = s.dma := by simp only [State.evtMsix]; split; rfl; split <;> split <;> first | rfl | rw [State.evtRequest_dma]
@[simp] theorem State.evtMsix_dsp (s : State) (src b : Nat) : (s.evtMsix src b).dsp = s.dsp := by simp only [State.evtMsix]; split; rfl; split <;> split <;> first | rfl | rw [State.evtRequest_dsp]
@[simp] theorem State.evtMsix_sens (s : State) (src b : Nat) : (s.evtMsix src b).sens = s.sens := by simp only [State.evtMsix]; split; rfl; split <;> split <;> first | rfl | rw [State.evtRequest_sens]
@[simp] theorem State.evtMsix_mgt (s : State) (src b : Nat) : (s.evtMsix src b).mgt = s.mgt := by simp only [State.evtMsix]; split; rfl; split <;> split <;> first | rfl | rw [State.evtRequest_mgt]
@[simp] theorem State.evtMsix_jtag (s : State) (src b : Nat) : (s.evtMsix src b).jtag = s.jtag := by simp only [State.evtMsix]; split; rfl; split <;> split <;> first | rfl | rw [State.evtRequest_jtag]
@[simp] theorem State.evtMsix_hbm (s : State) (src b : Nat) : (s.evtMsix src b).hbm = s.hbm := by simp only [State.evtMsix]; split; rfl; split <;> split <;> first | rfl | rw [State.evtRequest_hbm]
@[simp] theorem State.evtMsix_hostRead (s : State) (src b : Nat) : (s.evtMsix src b).hostRead = s.hostRead := by simp only [State.evtMsix]; split; rfl; split <;> split <;> first | rfl | rw [State.evtRequest_hostRead]
@[simp] theorem State.evtMsix_hostMem (s : State) (src b : Nat) : (s.evtMsix src b).hostMem = s.hostMem := by simp only [State.evtMsix]; split; rfl; split <;> split <;> first | rfl | rw [State.evtRequest_hostMem]

/-! `evtTrigout` -/

@[simp] theorem State.evtTrigout_pending (s : State) (src b : Nat) : (s.evtTrigout src b).pending = s.pending := by unfold State.evtTrigout; dsimp only; split <;> rfl
@[simp] theorem State.evtTrigout_is9620 (s : State) (src b : Nat) : (s.evtTrigout src b).is9620 = s.is9620 := by unfold State.evtTrigout; dsimp only; split <;> rfl
@[simp] theorem State.evtTrigout_now (s : State) (src b : Nat) : (s.evtTrigout src b).now = s.now := by unfold State.evtTrigout; dsimp only; split <;> rfl
@[simp] theorem State.evtTrigout_freeCtr (s : State) (src b : Nat) : (s.evtTrigout src b).freeCtr = s.freeCtr := by unfold State.evtTrigout; dsimp only; split <;> rfl
@[simp] theorem State.evtTrigout_regs (s : State) (src b : Nat) : (s.evtTrigout src b).regs = s.regs := by unfold State.evtTrigout; dsimp only; split <;> rfl
@[simp] theorem State.evtTrigout_latches (s : State) (src b : Nat) : (s.evtTrigout src b).latches = s.latches := by unfold State.evtTrigout; dsimp only; split <;> rfl
@[simp] theorem State.evtTrigout_ks (s : State) (src b : Nat) : (s.evtTrigout src b).ks = s.ks := by unfold State.evtTrigout; dsimp only; split <;> rfl
@[simp] theorem State.evtTrigout_ref (s : State) (src b : Nat) : (s.evtTrigout src b).ref = s.ref := by unfold State.evtTrigout; dsimp only; split <;> rfl
@[simp] theorem State.evtTrigout_nod (s : State) (src b : Nat) : (s.evtTrigout src b).nod = s.nod := by unfold State.evtTrigout; dsimp only; split <;> rfl
@[simp] theorem State.evtTrigout_ptm (s : State) (src b : Nat) : (s.evtTrigout src b).ptm = s.ptm := by unfold State.evtTrigout; dsimp only; split <;> rfl
@[simp] theorem State.evtTrigout_cores (s : State) (src b : Nat) : (s.evtTrigout src b).cores = s.cores := by unfold State.evtTrigout; dsimp only; split <;> rfl
@[simp] theorem State.evtTrigout_smem (s : State) (src b : Nat) : (s.evtTrigout src b).smem = s.smem := by unfold State.evtTrigout; dsimp only; split <;> rfl
@[simp] theorem State.evtTrigout_smemLast (s : State) (src b : Nat) : (s.evtTrigout src b).smemLast = s.smemLast := by unfold State.evtTrigout; dsimp only; split <;> rfl
@[simp] theorem State.evtTrigout_smemNext (s : State) (src b : Nat) : (s.evtTrigout src b).smemNext = s.smemNext := by unfold State.evtTrigout; dsimp only; split <;> rfl
@[simp] theorem State.evtTrigout_smemJobs (s : State) (src b : Nat) : (s.evtTrigout src b).smemJobs = s.smemJobs := by unfold State.evtTrigout; dsimp only; split <;> rfl
@[simp] theorem State.evtTrigout_sems (s : State) (src b : Nat) : (s.evtTrigout src b).sems = s.sems := by unfold State.evtTrigout; dsimp only; split <;> rfl
@[simp] theorem State.evtTrigout_permits (s : State) (src b : Nat) : (s.evtTrigout src b).permits = s.permits := by unfold State.evtTrigout; dsimp only; split <;> rfl
@[simp] theorem State.evtTrigout_mode (s : State) (src b : Nat) : (s.evtTrigout src b).mode = s.mode := by unfold State.evtTrigout; dsimp only; split <;> rfl
@[simp] theorem State.evtTrigout_evt (s : State) (src b : Nat) : (s.evtTrigout src b).evt = s.evt := by unfold State.evtTrigout; dsimp only; split <;> rfl
@[simp] theorem State.evtTrigout_cairn (s : State) (src b : Nat) : (s.evtTrigout src b).cairn = s.cairn := by unfold State.evtTrigout; dsimp only; split <;> rfl
@[simp] theorem State.evtTrigout_conv (s : State) (src b : Nat) : (s.evtTrigout src b).conv = s.conv := by unfold State.evtTrigout; dsimp only; split <;> rfl
@[simp] theorem State.evtTrigout_chans (s : State) (src b : Nat) : (s.evtTrigout src b).chans = s.chans := by unfold State.evtTrigout; dsimp only; split <;> rfl
@[simp] theorem State.evtTrigout_trig (s : State) (src b : Nat) : (s.evtTrigout src b).trig = s.trig := by unfold State.evtTrigout; dsimp only; split <;> rfl
@[simp] theorem State.evtTrigout_tmr (s : State) (src b : Nat) : (s.evtTrigout src b).tmr = s.tmr := by unfold State.evtTrigout; dsimp only; split <;> rfl
@[simp] theorem State.evtTrigout_record (s : State) (src b : Nat) : (s.evtTrigout src b).record = s.record := by unfold State.evtTrigout; dsimp only; split <;> rfl
@[simp] theorem State.evtTrigout_churn (s : State) (src b : Nat) : (s.evtTrigout src b).churn = s.churn := by unfold State.evtTrigout; dsimp only; split <;> rfl
@[simp] theorem State.evtTrigout_fg (s : State) (src b : Nat) : (s.evtTrigout src b).fg = s.fg := by unfold State.evtTrigout; dsimp only; split <;> rfl
@[simp] theorem State.evtTrigout_mem (s : State) (src b : Nat) : (s.evtTrigout src b).mem = s.mem := by unfold State.evtTrigout; dsimp only; split <;> rfl
@[simp] theorem State.evtTrigout_link (s : State) (src b : Nat) : (s.evtTrigout src b).link = s.link := by unfold State.evtTrigout; dsimp only; split <;> rfl
@[simp] theorem State.evtTrigout_tap (s : State) (src b : Nat) : (s.evtTrigout src b).tap = s.tap := by unfold State.evtTrigout; dsimp only; split <;> rfl
@[simp] theorem State.evtTrigout_dma (s : State) (src b : Nat) : (s.evtTrigout src b).dma = s.dma := by unfold State.evtTrigout; dsimp only; split <;> rfl
@[simp] theorem State.evtTrigout_dsp (s : State) (src b : Nat) : (s.evtTrigout src b).dsp = s.dsp := by unfold State.evtTrigout; dsimp only; split <;> rfl
@[simp] theorem State.evtTrigout_sens (s : State) (src b : Nat) : (s.evtTrigout src b).sens = s.sens := by unfold State.evtTrigout; dsimp only; split <;> rfl
@[simp] theorem State.evtTrigout_mgt (s : State) (src b : Nat) : (s.evtTrigout src b).mgt = s.mgt := by unfold State.evtTrigout; dsimp only; split <;> rfl
@[simp] theorem State.evtTrigout_jtag (s : State) (src b : Nat) : (s.evtTrigout src b).jtag = s.jtag := by unfold State.evtTrigout; dsimp only; split <;> rfl
@[simp] theorem State.evtTrigout_hbm (s : State) (src b : Nat) : (s.evtTrigout src b).hbm = s.hbm := by unfold State.evtTrigout; dsimp only; split <;> rfl
@[simp] theorem State.evtTrigout_hostRead (s : State) (src b : Nat) : (s.evtTrigout src b).hostRead = s.hostRead := by unfold State.evtTrigout; dsimp only; split <;> rfl
@[simp] theorem State.evtTrigout_hostMem (s : State) (src b : Nat) : (s.evtTrigout src b).hostMem = s.hostMem := by unfold State.evtTrigout; dsimp only; split <;> rfl

/-! `evtCairn` -/

@[simp] theorem State.evtCairn_pending (s : State) (src : Nat) (path : W64) : (s.evtCairn src path).pending = s.pending := by unfold State.evtCairn; dsimp only; split; rw [State.cairnHw_pending]; try rfl
@[simp] theorem State.evtCairn_is9620 (s : State) (src : Nat) (path : W64) : (s.evtCairn src path).is9620 = s.is9620 := by unfold State.evtCairn; dsimp only; split; rw [State.cairnHw_is9620]; try rfl
@[simp] theorem State.evtCairn_now (s : State) (src : Nat) (path : W64) : (s.evtCairn src path).now = s.now := by unfold State.evtCairn; dsimp only; split; rw [State.cairnHw_now]; try rfl
@[simp] theorem State.evtCairn_freeCtr (s : State) (src : Nat) (path : W64) : (s.evtCairn src path).freeCtr = s.freeCtr := by unfold State.evtCairn; dsimp only; split; rw [State.cairnHw_freeCtr]; try rfl
@[simp] theorem State.evtCairn_regs (s : State) (src : Nat) (path : W64) : (s.evtCairn src path).regs = s.regs := by unfold State.evtCairn; dsimp only; split; rw [State.cairnHw_regs]; try rfl
@[simp] theorem State.evtCairn_latches (s : State) (src : Nat) (path : W64) : (s.evtCairn src path).latches = s.latches := by unfold State.evtCairn; dsimp only; split; rw [State.cairnHw_latches]; try rfl
@[simp] theorem State.evtCairn_ks (s : State) (src : Nat) (path : W64) : (s.evtCairn src path).ks = s.ks := by unfold State.evtCairn; dsimp only; split; rw [State.cairnHw_ks]; try rfl
@[simp] theorem State.evtCairn_ref (s : State) (src : Nat) (path : W64) : (s.evtCairn src path).ref = s.ref := by unfold State.evtCairn; dsimp only; split; rw [State.cairnHw_ref]; try rfl
@[simp] theorem State.evtCairn_nod (s : State) (src : Nat) (path : W64) : (s.evtCairn src path).nod = s.nod := by unfold State.evtCairn; dsimp only; split; rw [State.cairnHw_nod]; try rfl
@[simp] theorem State.evtCairn_ptm (s : State) (src : Nat) (path : W64) : (s.evtCairn src path).ptm = s.ptm := by unfold State.evtCairn; dsimp only; split; rw [State.cairnHw_ptm]; try rfl
@[simp] theorem State.evtCairn_cores (s : State) (src : Nat) (path : W64) : (s.evtCairn src path).cores = s.cores := by unfold State.evtCairn; dsimp only; split; rw [State.cairnHw_cores]; try rfl
@[simp] theorem State.evtCairn_smem (s : State) (src : Nat) (path : W64) : (s.evtCairn src path).smem = s.smem := by unfold State.evtCairn; dsimp only; split; rw [State.cairnHw_smem]; try rfl
@[simp] theorem State.evtCairn_smemLast (s : State) (src : Nat) (path : W64) : (s.evtCairn src path).smemLast = s.smemLast := by unfold State.evtCairn; dsimp only; split; rw [State.cairnHw_smemLast]; try rfl
@[simp] theorem State.evtCairn_smemNext (s : State) (src : Nat) (path : W64) : (s.evtCairn src path).smemNext = s.smemNext := by unfold State.evtCairn; dsimp only; split; rw [State.cairnHw_smemNext]; try rfl
@[simp] theorem State.evtCairn_smemJobs (s : State) (src : Nat) (path : W64) : (s.evtCairn src path).smemJobs = s.smemJobs := by unfold State.evtCairn; dsimp only; split; rw [State.cairnHw_smemJobs]; try rfl
@[simp] theorem State.evtCairn_sems (s : State) (src : Nat) (path : W64) : (s.evtCairn src path).sems = s.sems := by unfold State.evtCairn; dsimp only; split; rw [State.cairnHw_sems]; try rfl
@[simp] theorem State.evtCairn_permits (s : State) (src : Nat) (path : W64) : (s.evtCairn src path).permits = s.permits := by unfold State.evtCairn; dsimp only; split; rw [State.cairnHw_permits]; try rfl
@[simp] theorem State.evtCairn_mode (s : State) (src : Nat) (path : W64) : (s.evtCairn src path).mode = s.mode := by unfold State.evtCairn; dsimp only; split; rw [State.cairnHw_mode]; try rfl
@[simp] theorem State.evtCairn_evt (s : State) (src : Nat) (path : W64) : (s.evtCairn src path).evt = s.evt := by unfold State.evtCairn; dsimp only; split; rw [State.cairnHw_evt]; try rfl
@[simp] theorem State.evtCairn_trigout (s : State) (src : Nat) (path : W64) : (s.evtCairn src path).trigout = s.trigout := by unfold State.evtCairn; dsimp only; split; rw [State.cairnHw_trigout]; try rfl
@[simp] theorem State.evtCairn_conv (s : State) (src : Nat) (path : W64) : (s.evtCairn src path).conv = s.conv := by unfold State.evtCairn; dsimp only; split; rw [State.cairnHw_conv]; try rfl
@[simp] theorem State.evtCairn_chans (s : State) (src : Nat) (path : W64) : (s.evtCairn src path).chans = s.chans := by unfold State.evtCairn; dsimp only; split; rw [State.cairnHw_chans]; try rfl
@[simp] theorem State.evtCairn_trig (s : State) (src : Nat) (path : W64) : (s.evtCairn src path).trig = s.trig := by unfold State.evtCairn; dsimp only; split; rw [State.cairnHw_trig]; try rfl
@[simp] theorem State.evtCairn_tmr (s : State) (src : Nat) (path : W64) : (s.evtCairn src path).tmr = s.tmr := by unfold State.evtCairn; dsimp only; split; rw [State.cairnHw_tmr]; try rfl
@[simp] theorem State.evtCairn_record (s : State) (src : Nat) (path : W64) : (s.evtCairn src path).record = s.record := by unfold State.evtCairn; dsimp only; split; rw [State.cairnHw_record]; try rfl
@[simp] theorem State.evtCairn_churn (s : State) (src : Nat) (path : W64) : (s.evtCairn src path).churn = s.churn := by unfold State.evtCairn; dsimp only; split; rw [State.cairnHw_churn]; try rfl
@[simp] theorem State.evtCairn_fg (s : State) (src : Nat) (path : W64) : (s.evtCairn src path).fg = s.fg := by unfold State.evtCairn; dsimp only; split; rw [State.cairnHw_fg]; try rfl
@[simp] theorem State.evtCairn_mem (s : State) (src : Nat) (path : W64) : (s.evtCairn src path).mem = s.mem := by unfold State.evtCairn; dsimp only; split; rw [State.cairnHw_mem]; try rfl
@[simp] theorem State.evtCairn_link (s : State) (src : Nat) (path : W64) : (s.evtCairn src path).link = s.link := by unfold State.evtCairn; dsimp only; split; rw [State.cairnHw_link]; try rfl
@[simp] theorem State.evtCairn_tap (s : State) (src : Nat) (path : W64) : (s.evtCairn src path).tap = s.tap := by unfold State.evtCairn; dsimp only; split; rw [State.cairnHw_tap]; try rfl
@[simp] theorem State.evtCairn_dma (s : State) (src : Nat) (path : W64) : (s.evtCairn src path).dma = s.dma := by unfold State.evtCairn; dsimp only; split; rw [State.cairnHw_dma]; try rfl
@[simp] theorem State.evtCairn_dsp (s : State) (src : Nat) (path : W64) : (s.evtCairn src path).dsp = s.dsp := by unfold State.evtCairn; dsimp only; split; rw [State.cairnHw_dsp]; try rfl
@[simp] theorem State.evtCairn_sens (s : State) (src : Nat) (path : W64) : (s.evtCairn src path).sens = s.sens := by unfold State.evtCairn; dsimp only; split; rw [State.cairnHw_sens]; try rfl
@[simp] theorem State.evtCairn_mgt (s : State) (src : Nat) (path : W64) : (s.evtCairn src path).mgt = s.mgt := by unfold State.evtCairn; dsimp only; split; rw [State.cairnHw_mgt]; try rfl
@[simp] theorem State.evtCairn_jtag (s : State) (src : Nat) (path : W64) : (s.evtCairn src path).jtag = s.jtag := by unfold State.evtCairn; dsimp only; split; rw [State.cairnHw_jtag]; try rfl
@[simp] theorem State.evtCairn_hbm (s : State) (src : Nat) (path : W64) : (s.evtCairn src path).hbm = s.hbm := by unfold State.evtCairn; dsimp only; split; rw [State.cairnHw_hbm]; try rfl
@[simp] theorem State.evtCairn_hostRead (s : State) (src : Nat) (path : W64) : (s.evtCairn src path).hostRead = s.hostRead := by unfold State.evtCairn; dsimp only; split; rw [State.cairnHw_hostRead]; try rfl
@[simp] theorem State.evtCairn_hostMem (s : State) (src : Nat) (path : W64) : (s.evtCairn src path).hostMem = s.hostMem := by unfold State.evtCairn; dsimp only; split; rw [State.cairnHw_hostMem]; try rfl

/-! `raiseAt` -/

@[simp] theorem State.raiseAt_pending (s : State) (b src : Nat) (path : W64) : (s.raiseAt b src path).pending = s.pending := by unfold State.raiseAt; split; rfl; split; rfl; simp only [State.evtCairn_pending, State.evtTrigout_pending, State.evtMsix_pending]; rfl
@[simp] theorem State.raiseAt_is9620 (s : State) (b src : Nat) (path : W64) : (s.raiseAt b src path).is9620 = s.is9620 := by unfold State.raiseAt; split; rfl; split; rfl; simp only [State.evtCairn_is9620, State.evtTrigout_is9620, State.evtMsix_is9620]; rfl
@[simp] theorem State.raiseAt_now (s : State) (b src : Nat) (path : W64) : (s.raiseAt b src path).now = s.now := by unfold State.raiseAt; split; rfl; split; rfl; simp only [State.evtCairn_now, State.evtTrigout_now, State.evtMsix_now]; rfl
@[simp] theorem State.raiseAt_freeCtr (s : State) (b src : Nat) (path : W64) : (s.raiseAt b src path).freeCtr = s.freeCtr := by unfold State.raiseAt; split; rfl; split; rfl; simp only [State.evtCairn_freeCtr, State.evtTrigout_freeCtr, State.evtMsix_freeCtr]; rfl
@[simp] theorem State.raiseAt_latches (s : State) (b src : Nat) (path : W64) : (s.raiseAt b src path).latches = s.latches := by unfold State.raiseAt; split; rfl; split; rfl; simp only [State.evtCairn_latches, State.evtTrigout_latches, State.evtMsix_latches]; rfl
@[simp] theorem State.raiseAt_ks (s : State) (b src : Nat) (path : W64) : (s.raiseAt b src path).ks = s.ks := by unfold State.raiseAt; split; rfl; split; rfl; simp only [State.evtCairn_ks, State.evtTrigout_ks, State.evtMsix_ks]; rfl
@[simp] theorem State.raiseAt_ref (s : State) (b src : Nat) (path : W64) : (s.raiseAt b src path).ref = s.ref := by unfold State.raiseAt; split; rfl; split; rfl; simp only [State.evtCairn_ref, State.evtTrigout_ref, State.evtMsix_ref]; rfl
@[simp] theorem State.raiseAt_nod (s : State) (b src : Nat) (path : W64) : (s.raiseAt b src path).nod = s.nod := by unfold State.raiseAt; split; rfl; split; rfl; simp only [State.evtCairn_nod, State.evtTrigout_nod, State.evtMsix_nod]; rfl
@[simp] theorem State.raiseAt_ptm (s : State) (b src : Nat) (path : W64) : (s.raiseAt b src path).ptm = s.ptm := by unfold State.raiseAt; split; rfl; split; rfl; simp only [State.evtCairn_ptm, State.evtTrigout_ptm, State.evtMsix_ptm]; rfl
@[simp] theorem State.raiseAt_smem (s : State) (b src : Nat) (path : W64) : (s.raiseAt b src path).smem = s.smem := by unfold State.raiseAt; split; rfl; split; rfl; simp only [State.evtCairn_smem, State.evtTrigout_smem, State.evtMsix_smem]; rfl
@[simp] theorem State.raiseAt_smemLast (s : State) (b src : Nat) (path : W64) : (s.raiseAt b src path).smemLast = s.smemLast := by unfold State.raiseAt; split; rfl; split; rfl; simp only [State.evtCairn_smemLast, State.evtTrigout_smemLast, State.evtMsix_smemLast]; rfl
@[simp] theorem State.raiseAt_smemNext (s : State) (b src : Nat) (path : W64) : (s.raiseAt b src path).smemNext = s.smemNext := by unfold State.raiseAt; split; rfl; split; rfl; simp only [State.evtCairn_smemNext, State.evtTrigout_smemNext, State.evtMsix_smemNext]; rfl
@[simp] theorem State.raiseAt_smemJobs (s : State) (b src : Nat) (path : W64) : (s.raiseAt b src path).smemJobs = s.smemJobs := by unfold State.raiseAt; split; rfl; split; rfl; simp only [State.evtCairn_smemJobs, State.evtTrigout_smemJobs, State.evtMsix_smemJobs]; rfl
@[simp] theorem State.raiseAt_sems (s : State) (b src : Nat) (path : W64) : (s.raiseAt b src path).sems = s.sems := by unfold State.raiseAt; split; rfl; split; rfl; simp only [State.evtCairn_sems, State.evtTrigout_sems, State.evtMsix_sems]; rfl
@[simp] theorem State.raiseAt_permits (s : State) (b src : Nat) (path : W64) : (s.raiseAt b src path).permits = s.permits := by unfold State.raiseAt; split; rfl; split; rfl; simp only [State.evtCairn_permits, State.evtTrigout_permits, State.evtMsix_permits]; rfl
@[simp] theorem State.raiseAt_mode (s : State) (b src : Nat) (path : W64) : (s.raiseAt b src path).mode = s.mode := by unfold State.raiseAt; split; rfl; split; rfl; simp only [State.evtCairn_mode, State.evtTrigout_mode, State.evtMsix_mode]; rfl
@[simp] theorem State.raiseAt_conv (s : State) (b src : Nat) (path : W64) : (s.raiseAt b src path).conv = s.conv := by unfold State.raiseAt; split; rfl; split; rfl; simp only [State.evtCairn_conv, State.evtTrigout_conv, State.evtMsix_conv]; rfl
@[simp] theorem State.raiseAt_chans (s : State) (b src : Nat) (path : W64) : (s.raiseAt b src path).chans = s.chans := by unfold State.raiseAt; split; rfl; split; rfl; simp only [State.evtCairn_chans, State.evtTrigout_chans, State.evtMsix_chans]; rfl
@[simp] theorem State.raiseAt_trig (s : State) (b src : Nat) (path : W64) : (s.raiseAt b src path).trig = s.trig := by unfold State.raiseAt; split; rfl; split; rfl; simp only [State.evtCairn_trig, State.evtTrigout_trig, State.evtMsix_trig]; rfl
@[simp] theorem State.raiseAt_tmr (s : State) (b src : Nat) (path : W64) : (s.raiseAt b src path).tmr = s.tmr := by unfold State.raiseAt; split; rfl; split; rfl; simp only [State.evtCairn_tmr, State.evtTrigout_tmr, State.evtMsix_tmr]; rfl
@[simp] theorem State.raiseAt_record (s : State) (b src : Nat) (path : W64) : (s.raiseAt b src path).record = s.record := by unfold State.raiseAt; split; rfl; split; rfl; simp only [State.evtCairn_record, State.evtTrigout_record, State.evtMsix_record]; rfl
@[simp] theorem State.raiseAt_churn (s : State) (b src : Nat) (path : W64) : (s.raiseAt b src path).churn = s.churn := by unfold State.raiseAt; split; rfl; split; rfl; simp only [State.evtCairn_churn, State.evtTrigout_churn, State.evtMsix_churn]; rfl
@[simp] theorem State.raiseAt_fg (s : State) (b src : Nat) (path : W64) : (s.raiseAt b src path).fg = s.fg := by unfold State.raiseAt; split; rfl; split; rfl; simp only [State.evtCairn_fg, State.evtTrigout_fg, State.evtMsix_fg]; rfl
@[simp] theorem State.raiseAt_mem (s : State) (b src : Nat) (path : W64) : (s.raiseAt b src path).mem = s.mem := by unfold State.raiseAt; split; rfl; split; rfl; simp only [State.evtCairn_mem, State.evtTrigout_mem, State.evtMsix_mem]; rfl
@[simp] theorem State.raiseAt_link (s : State) (b src : Nat) (path : W64) : (s.raiseAt b src path).link = s.link := by unfold State.raiseAt; split; rfl; split; rfl; simp only [State.evtCairn_link, State.evtTrigout_link, State.evtMsix_link]; rfl
@[simp] theorem State.raiseAt_tap (s : State) (b src : Nat) (path : W64) : (s.raiseAt b src path).tap = s.tap := by unfold State.raiseAt; split; rfl; split; rfl; simp only [State.evtCairn_tap, State.evtTrigout_tap, State.evtMsix_tap]; rfl
@[simp] theorem State.raiseAt_dma (s : State) (b src : Nat) (path : W64) : (s.raiseAt b src path).dma = s.dma := by unfold State.raiseAt; split; rfl; split; rfl; simp only [State.evtCairn_dma, State.evtTrigout_dma, State.evtMsix_dma]; rfl
@[simp] theorem State.raiseAt_dsp (s : State) (b src : Nat) (path : W64) : (s.raiseAt b src path).dsp = s.dsp := by unfold State.raiseAt; split; rfl; split; rfl; simp only [State.evtCairn_dsp, State.evtTrigout_dsp, State.evtMsix_dsp]; rfl
@[simp] theorem State.raiseAt_sens (s : State) (b src : Nat) (path : W64) : (s.raiseAt b src path).sens = s.sens := by unfold State.raiseAt; split; rfl; split; rfl; simp only [State.evtCairn_sens, State.evtTrigout_sens, State.evtMsix_sens]; rfl
@[simp] theorem State.raiseAt_mgt (s : State) (b src : Nat) (path : W64) : (s.raiseAt b src path).mgt = s.mgt := by unfold State.raiseAt; split; rfl; split; rfl; simp only [State.evtCairn_mgt, State.evtTrigout_mgt, State.evtMsix_mgt]; rfl
@[simp] theorem State.raiseAt_jtag (s : State) (b src : Nat) (path : W64) : (s.raiseAt b src path).jtag = s.jtag := by unfold State.raiseAt; split; rfl; split; rfl; simp only [State.evtCairn_jtag, State.evtTrigout_jtag, State.evtMsix_jtag]; rfl
@[simp] theorem State.raiseAt_hbm (s : State) (b src : Nat) (path : W64) : (s.raiseAt b src path).hbm = s.hbm := by unfold State.raiseAt; split; rfl; split; rfl; simp only [State.evtCairn_hbm, State.evtTrigout_hbm, State.evtMsix_hbm]; rfl
@[simp] theorem State.raiseAt_hostRead (s : State) (b src : Nat) (path : W64) : (s.raiseAt b src path).hostRead = s.hostRead := by unfold State.raiseAt; split; rfl; split; rfl; simp only [State.evtCairn_hostRead, State.evtTrigout_hostRead, State.evtMsix_hostRead]; rfl
@[simp] theorem State.raiseAt_hostMem (s : State) (b src : Nat) (path : W64) : (s.raiseAt b src path).hostMem = s.hostMem := by unfold State.raiseAt; split; rfl; split; rfl; simp only [State.evtCairn_hostMem, State.evtTrigout_hostMem, State.evtMsix_hostMem]; rfl

/-! `modChan` -/

@[simp] theorem State.modChan_pending (s : State) (n : Nat) (f : Chan → Chan) : (s.modChan n f).pending = s.pending := rfl
@[simp] theorem State.modChan_is9620 (s : State) (n : Nat) (f : Chan → Chan) : (s.modChan n f).is9620 = s.is9620 := rfl
@[simp] theorem State.modChan_now (s : State) (n : Nat) (f : Chan → Chan) : (s.modChan n f).now = s.now := rfl
@[simp] theorem State.modChan_freeCtr (s : State) (n : Nat) (f : Chan → Chan) : (s.modChan n f).freeCtr = s.freeCtr := rfl
@[simp] theorem State.modChan_regs (s : State) (n : Nat) (f : Chan → Chan) : (s.modChan n f).regs = s.regs := rfl
@[simp] theorem State.modChan_latches (s : State) (n : Nat) (f : Chan → Chan) : (s.modChan n f).latches = s.latches := rfl
@[simp] theorem State.modChan_ks (s : State) (n : Nat) (f : Chan → Chan) : (s.modChan n f).ks = s.ks := rfl
@[simp] theorem State.modChan_ref (s : State) (n : Nat) (f : Chan → Chan) : (s.modChan n f).ref = s.ref := rfl
@[simp] theorem State.modChan_nod (s : State) (n : Nat) (f : Chan → Chan) : (s.modChan n f).nod = s.nod := rfl
@[simp] theorem State.modChan_ptm (s : State) (n : Nat) (f : Chan → Chan) : (s.modChan n f).ptm = s.ptm := rfl
@[simp] theorem State.modChan_cores (s : State) (n : Nat) (f : Chan → Chan) : (s.modChan n f).cores = s.cores := rfl
@[simp] theorem State.modChan_smem (s : State) (n : Nat) (f : Chan → Chan) : (s.modChan n f).smem = s.smem := rfl
@[simp] theorem State.modChan_smemLast (s : State) (n : Nat) (f : Chan → Chan) : (s.modChan n f).smemLast = s.smemLast := rfl
@[simp] theorem State.modChan_smemNext (s : State) (n : Nat) (f : Chan → Chan) : (s.modChan n f).smemNext = s.smemNext := rfl
@[simp] theorem State.modChan_smemJobs (s : State) (n : Nat) (f : Chan → Chan) : (s.modChan n f).smemJobs = s.smemJobs := rfl
@[simp] theorem State.modChan_sems (s : State) (n : Nat) (f : Chan → Chan) : (s.modChan n f).sems = s.sems := rfl
@[simp] theorem State.modChan_permits (s : State) (n : Nat) (f : Chan → Chan) : (s.modChan n f).permits = s.permits := rfl
@[simp] theorem State.modChan_mode (s : State) (n : Nat) (f : Chan → Chan) : (s.modChan n f).mode = s.mode := rfl
@[simp] theorem State.modChan_evt (s : State) (n : Nat) (f : Chan → Chan) : (s.modChan n f).evt = s.evt := rfl
@[simp] theorem State.modChan_cairn (s : State) (n : Nat) (f : Chan → Chan) : (s.modChan n f).cairn = s.cairn := rfl
@[simp] theorem State.modChan_trigout (s : State) (n : Nat) (f : Chan → Chan) : (s.modChan n f).trigout = s.trigout := rfl
@[simp] theorem State.modChan_conv (s : State) (n : Nat) (f : Chan → Chan) : (s.modChan n f).conv = s.conv := rfl
@[simp] theorem State.modChan_trig (s : State) (n : Nat) (f : Chan → Chan) : (s.modChan n f).trig = s.trig := rfl
@[simp] theorem State.modChan_tmr (s : State) (n : Nat) (f : Chan → Chan) : (s.modChan n f).tmr = s.tmr := rfl
@[simp] theorem State.modChan_record (s : State) (n : Nat) (f : Chan → Chan) : (s.modChan n f).record = s.record := rfl
@[simp] theorem State.modChan_churn (s : State) (n : Nat) (f : Chan → Chan) : (s.modChan n f).churn = s.churn := rfl
@[simp] theorem State.modChan_fg (s : State) (n : Nat) (f : Chan → Chan) : (s.modChan n f).fg = s.fg := rfl
@[simp] theorem State.modChan_mem (s : State) (n : Nat) (f : Chan → Chan) : (s.modChan n f).mem = s.mem := rfl
@[simp] theorem State.modChan_link (s : State) (n : Nat) (f : Chan → Chan) : (s.modChan n f).link = s.link := rfl
@[simp] theorem State.modChan_tap (s : State) (n : Nat) (f : Chan → Chan) : (s.modChan n f).tap = s.tap := rfl
@[simp] theorem State.modChan_dma (s : State) (n : Nat) (f : Chan → Chan) : (s.modChan n f).dma = s.dma := rfl
@[simp] theorem State.modChan_dsp (s : State) (n : Nat) (f : Chan → Chan) : (s.modChan n f).dsp = s.dsp := rfl
@[simp] theorem State.modChan_sens (s : State) (n : Nat) (f : Chan → Chan) : (s.modChan n f).sens = s.sens := rfl
@[simp] theorem State.modChan_mgt (s : State) (n : Nat) (f : Chan → Chan) : (s.modChan n f).mgt = s.mgt := rfl
@[simp] theorem State.modChan_jtag (s : State) (n : Nat) (f : Chan → Chan) : (s.modChan n f).jtag = s.jtag := rfl
@[simp] theorem State.modChan_hbm (s : State) (n : Nat) (f : Chan → Chan) : (s.modChan n f).hbm = s.hbm := rfl
@[simp] theorem State.modChan_hostRead (s : State) (n : Nat) (f : Chan → Chan) : (s.modChan n f).hostRead = s.hostRead := rfl
@[simp] theorem State.modChan_hostMem (s : State) (n : Nat) (f : Chan → Chan) : (s.modChan n f).hostMem = s.hostMem := rfl

/-! `modChurn` -/

@[simp] theorem State.modChurn_pending (s : State) (n : Nat) (f : Churn → Churn) : (s.modChurn n f).pending = s.pending := rfl
@[simp] theorem State.modChurn_is9620 (s : State) (n : Nat) (f : Churn → Churn) : (s.modChurn n f).is9620 = s.is9620 := rfl
@[simp] theorem State.modChurn_now (s : State) (n : Nat) (f : Churn → Churn) : (s.modChurn n f).now = s.now := rfl
@[simp] theorem State.modChurn_freeCtr (s : State) (n : Nat) (f : Churn → Churn) : (s.modChurn n f).freeCtr = s.freeCtr := rfl
@[simp] theorem State.modChurn_regs (s : State) (n : Nat) (f : Churn → Churn) : (s.modChurn n f).regs = s.regs := rfl
@[simp] theorem State.modChurn_latches (s : State) (n : Nat) (f : Churn → Churn) : (s.modChurn n f).latches = s.latches := rfl
@[simp] theorem State.modChurn_ks (s : State) (n : Nat) (f : Churn → Churn) : (s.modChurn n f).ks = s.ks := rfl
@[simp] theorem State.modChurn_ref (s : State) (n : Nat) (f : Churn → Churn) : (s.modChurn n f).ref = s.ref := rfl
@[simp] theorem State.modChurn_nod (s : State) (n : Nat) (f : Churn → Churn) : (s.modChurn n f).nod = s.nod := rfl
@[simp] theorem State.modChurn_ptm (s : State) (n : Nat) (f : Churn → Churn) : (s.modChurn n f).ptm = s.ptm := rfl
@[simp] theorem State.modChurn_cores (s : State) (n : Nat) (f : Churn → Churn) : (s.modChurn n f).cores = s.cores := rfl
@[simp] theorem State.modChurn_smem (s : State) (n : Nat) (f : Churn → Churn) : (s.modChurn n f).smem = s.smem := rfl
@[simp] theorem State.modChurn_smemLast (s : State) (n : Nat) (f : Churn → Churn) : (s.modChurn n f).smemLast = s.smemLast := rfl
@[simp] theorem State.modChurn_smemNext (s : State) (n : Nat) (f : Churn → Churn) : (s.modChurn n f).smemNext = s.smemNext := rfl
@[simp] theorem State.modChurn_smemJobs (s : State) (n : Nat) (f : Churn → Churn) : (s.modChurn n f).smemJobs = s.smemJobs := rfl
@[simp] theorem State.modChurn_sems (s : State) (n : Nat) (f : Churn → Churn) : (s.modChurn n f).sems = s.sems := rfl
@[simp] theorem State.modChurn_permits (s : State) (n : Nat) (f : Churn → Churn) : (s.modChurn n f).permits = s.permits := rfl
@[simp] theorem State.modChurn_mode (s : State) (n : Nat) (f : Churn → Churn) : (s.modChurn n f).mode = s.mode := rfl
@[simp] theorem State.modChurn_evt (s : State) (n : Nat) (f : Churn → Churn) : (s.modChurn n f).evt = s.evt := rfl
@[simp] theorem State.modChurn_cairn (s : State) (n : Nat) (f : Churn → Churn) : (s.modChurn n f).cairn = s.cairn := rfl
@[simp] theorem State.modChurn_trigout (s : State) (n : Nat) (f : Churn → Churn) : (s.modChurn n f).trigout = s.trigout := rfl
@[simp] theorem State.modChurn_conv (s : State) (n : Nat) (f : Churn → Churn) : (s.modChurn n f).conv = s.conv := rfl
@[simp] theorem State.modChurn_chans (s : State) (n : Nat) (f : Churn → Churn) : (s.modChurn n f).chans = s.chans := rfl
@[simp] theorem State.modChurn_trig (s : State) (n : Nat) (f : Churn → Churn) : (s.modChurn n f).trig = s.trig := rfl
@[simp] theorem State.modChurn_tmr (s : State) (n : Nat) (f : Churn → Churn) : (s.modChurn n f).tmr = s.tmr := rfl
@[simp] theorem State.modChurn_record (s : State) (n : Nat) (f : Churn → Churn) : (s.modChurn n f).record = s.record := rfl
@[simp] theorem State.modChurn_fg (s : State) (n : Nat) (f : Churn → Churn) : (s.modChurn n f).fg = s.fg := rfl
@[simp] theorem State.modChurn_mem (s : State) (n : Nat) (f : Churn → Churn) : (s.modChurn n f).mem = s.mem := rfl
@[simp] theorem State.modChurn_link (s : State) (n : Nat) (f : Churn → Churn) : (s.modChurn n f).link = s.link := rfl
@[simp] theorem State.modChurn_tap (s : State) (n : Nat) (f : Churn → Churn) : (s.modChurn n f).tap = s.tap := rfl
@[simp] theorem State.modChurn_dma (s : State) (n : Nat) (f : Churn → Churn) : (s.modChurn n f).dma = s.dma := rfl
@[simp] theorem State.modChurn_dsp (s : State) (n : Nat) (f : Churn → Churn) : (s.modChurn n f).dsp = s.dsp := rfl
@[simp] theorem State.modChurn_sens (s : State) (n : Nat) (f : Churn → Churn) : (s.modChurn n f).sens = s.sens := rfl
@[simp] theorem State.modChurn_mgt (s : State) (n : Nat) (f : Churn → Churn) : (s.modChurn n f).mgt = s.mgt := rfl
@[simp] theorem State.modChurn_jtag (s : State) (n : Nat) (f : Churn → Churn) : (s.modChurn n f).jtag = s.jtag := rfl
@[simp] theorem State.modChurn_hbm (s : State) (n : Nat) (f : Churn → Churn) : (s.modChurn n f).hbm = s.hbm := rfl
@[simp] theorem State.modChurn_hostRead (s : State) (n : Nat) (f : Churn → Churn) : (s.modChurn n f).hostRead = s.hostRead := rfl
@[simp] theorem State.modChurn_hostMem (s : State) (n : Nat) (f : Churn → Churn) : (s.modChurn n f).hostMem = s.hostMem := rfl

/-! `modInput` -/

@[simp] theorem State.modInput_pending (s : State) (n : Nat) (f : Input → Input) : (s.modInput n f).pending = s.pending := rfl
@[simp] theorem State.modInput_is9620 (s : State) (n : Nat) (f : Input → Input) : (s.modInput n f).is9620 = s.is9620 := rfl
@[simp] theorem State.modInput_now (s : State) (n : Nat) (f : Input → Input) : (s.modInput n f).now = s.now := rfl
@[simp] theorem State.modInput_freeCtr (s : State) (n : Nat) (f : Input → Input) : (s.modInput n f).freeCtr = s.freeCtr := rfl
@[simp] theorem State.modInput_regs (s : State) (n : Nat) (f : Input → Input) : (s.modInput n f).regs = s.regs := rfl
@[simp] theorem State.modInput_latches (s : State) (n : Nat) (f : Input → Input) : (s.modInput n f).latches = s.latches := rfl
@[simp] theorem State.modInput_ks (s : State) (n : Nat) (f : Input → Input) : (s.modInput n f).ks = s.ks := rfl
@[simp] theorem State.modInput_ref (s : State) (n : Nat) (f : Input → Input) : (s.modInput n f).ref = s.ref := rfl
@[simp] theorem State.modInput_nod (s : State) (n : Nat) (f : Input → Input) : (s.modInput n f).nod = s.nod := rfl
@[simp] theorem State.modInput_ptm (s : State) (n : Nat) (f : Input → Input) : (s.modInput n f).ptm = s.ptm := rfl
@[simp] theorem State.modInput_cores (s : State) (n : Nat) (f : Input → Input) : (s.modInput n f).cores = s.cores := rfl
@[simp] theorem State.modInput_smem (s : State) (n : Nat) (f : Input → Input) : (s.modInput n f).smem = s.smem := rfl
@[simp] theorem State.modInput_smemLast (s : State) (n : Nat) (f : Input → Input) : (s.modInput n f).smemLast = s.smemLast := rfl
@[simp] theorem State.modInput_smemNext (s : State) (n : Nat) (f : Input → Input) : (s.modInput n f).smemNext = s.smemNext := rfl
@[simp] theorem State.modInput_smemJobs (s : State) (n : Nat) (f : Input → Input) : (s.modInput n f).smemJobs = s.smemJobs := rfl
@[simp] theorem State.modInput_sems (s : State) (n : Nat) (f : Input → Input) : (s.modInput n f).sems = s.sems := rfl
@[simp] theorem State.modInput_permits (s : State) (n : Nat) (f : Input → Input) : (s.modInput n f).permits = s.permits := rfl
@[simp] theorem State.modInput_mode (s : State) (n : Nat) (f : Input → Input) : (s.modInput n f).mode = s.mode := rfl
@[simp] theorem State.modInput_evt (s : State) (n : Nat) (f : Input → Input) : (s.modInput n f).evt = s.evt := rfl
@[simp] theorem State.modInput_cairn (s : State) (n : Nat) (f : Input → Input) : (s.modInput n f).cairn = s.cairn := rfl
@[simp] theorem State.modInput_trigout (s : State) (n : Nat) (f : Input → Input) : (s.modInput n f).trigout = s.trigout := rfl
@[simp] theorem State.modInput_chans (s : State) (n : Nat) (f : Input → Input) : (s.modInput n f).chans = s.chans := rfl
@[simp] theorem State.modInput_trig (s : State) (n : Nat) (f : Input → Input) : (s.modInput n f).trig = s.trig := rfl
@[simp] theorem State.modInput_tmr (s : State) (n : Nat) (f : Input → Input) : (s.modInput n f).tmr = s.tmr := rfl
@[simp] theorem State.modInput_record (s : State) (n : Nat) (f : Input → Input) : (s.modInput n f).record = s.record := rfl
@[simp] theorem State.modInput_churn (s : State) (n : Nat) (f : Input → Input) : (s.modInput n f).churn = s.churn := rfl
@[simp] theorem State.modInput_fg (s : State) (n : Nat) (f : Input → Input) : (s.modInput n f).fg = s.fg := rfl
@[simp] theorem State.modInput_mem (s : State) (n : Nat) (f : Input → Input) : (s.modInput n f).mem = s.mem := rfl
@[simp] theorem State.modInput_link (s : State) (n : Nat) (f : Input → Input) : (s.modInput n f).link = s.link := rfl
@[simp] theorem State.modInput_tap (s : State) (n : Nat) (f : Input → Input) : (s.modInput n f).tap = s.tap := rfl
@[simp] theorem State.modInput_dma (s : State) (n : Nat) (f : Input → Input) : (s.modInput n f).dma = s.dma := rfl
@[simp] theorem State.modInput_dsp (s : State) (n : Nat) (f : Input → Input) : (s.modInput n f).dsp = s.dsp := rfl
@[simp] theorem State.modInput_sens (s : State) (n : Nat) (f : Input → Input) : (s.modInput n f).sens = s.sens := rfl
@[simp] theorem State.modInput_mgt (s : State) (n : Nat) (f : Input → Input) : (s.modInput n f).mgt = s.mgt := rfl
@[simp] theorem State.modInput_jtag (s : State) (n : Nat) (f : Input → Input) : (s.modInput n f).jtag = s.jtag := rfl
@[simp] theorem State.modInput_hbm (s : State) (n : Nat) (f : Input → Input) : (s.modInput n f).hbm = s.hbm := rfl
@[simp] theorem State.modInput_hostRead (s : State) (n : Nat) (f : Input → Input) : (s.modInput n f).hostRead = s.hostRead := rfl
@[simp] theorem State.modInput_hostMem (s : State) (n : Nat) (f : Input → Input) : (s.modInput n f).hostMem = s.hostMem := rfl

/-! `modSlice` -/

@[simp] theorem State.modSlice_pending (s : State) (sl : Nat) (f : Slice → Slice) : (s.modSlice sl f).pending = s.pending := rfl
@[simp] theorem State.modSlice_is9620 (s : State) (sl : Nat) (f : Slice → Slice) : (s.modSlice sl f).is9620 = s.is9620 := rfl
@[simp] theorem State.modSlice_now (s : State) (sl : Nat) (f : Slice → Slice) : (s.modSlice sl f).now = s.now := rfl
@[simp] theorem State.modSlice_freeCtr (s : State) (sl : Nat) (f : Slice → Slice) : (s.modSlice sl f).freeCtr = s.freeCtr := rfl
@[simp] theorem State.modSlice_regs (s : State) (sl : Nat) (f : Slice → Slice) : (s.modSlice sl f).regs = s.regs := rfl
@[simp] theorem State.modSlice_latches (s : State) (sl : Nat) (f : Slice → Slice) : (s.modSlice sl f).latches = s.latches := rfl
@[simp] theorem State.modSlice_ks (s : State) (sl : Nat) (f : Slice → Slice) : (s.modSlice sl f).ks = s.ks := rfl
@[simp] theorem State.modSlice_ref (s : State) (sl : Nat) (f : Slice → Slice) : (s.modSlice sl f).ref = s.ref := rfl
@[simp] theorem State.modSlice_nod (s : State) (sl : Nat) (f : Slice → Slice) : (s.modSlice sl f).nod = s.nod := rfl
@[simp] theorem State.modSlice_ptm (s : State) (sl : Nat) (f : Slice → Slice) : (s.modSlice sl f).ptm = s.ptm := rfl
@[simp] theorem State.modSlice_cores (s : State) (sl : Nat) (f : Slice → Slice) : (s.modSlice sl f).cores = s.cores := rfl
@[simp] theorem State.modSlice_smem (s : State) (sl : Nat) (f : Slice → Slice) : (s.modSlice sl f).smem = s.smem := rfl
@[simp] theorem State.modSlice_smemLast (s : State) (sl : Nat) (f : Slice → Slice) : (s.modSlice sl f).smemLast = s.smemLast := rfl
@[simp] theorem State.modSlice_smemNext (s : State) (sl : Nat) (f : Slice → Slice) : (s.modSlice sl f).smemNext = s.smemNext := rfl
@[simp] theorem State.modSlice_smemJobs (s : State) (sl : Nat) (f : Slice → Slice) : (s.modSlice sl f).smemJobs = s.smemJobs := rfl
@[simp] theorem State.modSlice_sems (s : State) (sl : Nat) (f : Slice → Slice) : (s.modSlice sl f).sems = s.sems := rfl
@[simp] theorem State.modSlice_permits (s : State) (sl : Nat) (f : Slice → Slice) : (s.modSlice sl f).permits = s.permits := rfl
@[simp] theorem State.modSlice_mode (s : State) (sl : Nat) (f : Slice → Slice) : (s.modSlice sl f).mode = s.mode := rfl
@[simp] theorem State.modSlice_evt (s : State) (sl : Nat) (f : Slice → Slice) : (s.modSlice sl f).evt = s.evt := rfl
@[simp] theorem State.modSlice_cairn (s : State) (sl : Nat) (f : Slice → Slice) : (s.modSlice sl f).cairn = s.cairn := rfl
@[simp] theorem State.modSlice_trigout (s : State) (sl : Nat) (f : Slice → Slice) : (s.modSlice sl f).trigout = s.trigout := rfl
@[simp] theorem State.modSlice_chans (s : State) (sl : Nat) (f : Slice → Slice) : (s.modSlice sl f).chans = s.chans := rfl
@[simp] theorem State.modSlice_trig (s : State) (sl : Nat) (f : Slice → Slice) : (s.modSlice sl f).trig = s.trig := rfl
@[simp] theorem State.modSlice_tmr (s : State) (sl : Nat) (f : Slice → Slice) : (s.modSlice sl f).tmr = s.tmr := rfl
@[simp] theorem State.modSlice_record (s : State) (sl : Nat) (f : Slice → Slice) : (s.modSlice sl f).record = s.record := rfl
@[simp] theorem State.modSlice_churn (s : State) (sl : Nat) (f : Slice → Slice) : (s.modSlice sl f).churn = s.churn := rfl
@[simp] theorem State.modSlice_fg (s : State) (sl : Nat) (f : Slice → Slice) : (s.modSlice sl f).fg = s.fg := rfl
@[simp] theorem State.modSlice_mem (s : State) (sl : Nat) (f : Slice → Slice) : (s.modSlice sl f).mem = s.mem := rfl
@[simp] theorem State.modSlice_link (s : State) (sl : Nat) (f : Slice → Slice) : (s.modSlice sl f).link = s.link := rfl
@[simp] theorem State.modSlice_tap (s : State) (sl : Nat) (f : Slice → Slice) : (s.modSlice sl f).tap = s.tap := rfl
@[simp] theorem State.modSlice_dma (s : State) (sl : Nat) (f : Slice → Slice) : (s.modSlice sl f).dma = s.dma := rfl
@[simp] theorem State.modSlice_dsp (s : State) (sl : Nat) (f : Slice → Slice) : (s.modSlice sl f).dsp = s.dsp := rfl
@[simp] theorem State.modSlice_sens (s : State) (sl : Nat) (f : Slice → Slice) : (s.modSlice sl f).sens = s.sens := rfl
@[simp] theorem State.modSlice_mgt (s : State) (sl : Nat) (f : Slice → Slice) : (s.modSlice sl f).mgt = s.mgt := rfl
@[simp] theorem State.modSlice_jtag (s : State) (sl : Nat) (f : Slice → Slice) : (s.modSlice sl f).jtag = s.jtag := rfl
@[simp] theorem State.modSlice_hbm (s : State) (sl : Nat) (f : Slice → Slice) : (s.modSlice sl f).hbm = s.hbm := rfl
@[simp] theorem State.modSlice_hostRead (s : State) (sl : Nat) (f : Slice → Slice) : (s.modSlice sl f).hostRead = s.hostRead := rfl
@[simp] theorem State.modSlice_hostMem (s : State) (sl : Nat) (f : Slice → Slice) : (s.modSlice sl f).hostMem = s.hostMem := rfl

/-! `modDsp` -/

@[simp] theorem State.modDsp_pending (s : State) (f : Dsp → Dsp) : (s.modDsp f).pending = s.pending := rfl
@[simp] theorem State.modDsp_is9620 (s : State) (f : Dsp → Dsp) : (s.modDsp f).is9620 = s.is9620 := rfl
@[simp] theorem State.modDsp_now (s : State) (f : Dsp → Dsp) : (s.modDsp f).now = s.now := rfl
@[simp] theorem State.modDsp_freeCtr (s : State) (f : Dsp → Dsp) : (s.modDsp f).freeCtr = s.freeCtr := rfl
@[simp] theorem State.modDsp_regs (s : State) (f : Dsp → Dsp) : (s.modDsp f).regs = s.regs := rfl
@[simp] theorem State.modDsp_latches (s : State) (f : Dsp → Dsp) : (s.modDsp f).latches = s.latches := rfl
@[simp] theorem State.modDsp_ks (s : State) (f : Dsp → Dsp) : (s.modDsp f).ks = s.ks := rfl
@[simp] theorem State.modDsp_ref (s : State) (f : Dsp → Dsp) : (s.modDsp f).ref = s.ref := rfl
@[simp] theorem State.modDsp_nod (s : State) (f : Dsp → Dsp) : (s.modDsp f).nod = s.nod := rfl
@[simp] theorem State.modDsp_ptm (s : State) (f : Dsp → Dsp) : (s.modDsp f).ptm = s.ptm := rfl
@[simp] theorem State.modDsp_cores (s : State) (f : Dsp → Dsp) : (s.modDsp f).cores = s.cores := rfl
@[simp] theorem State.modDsp_smem (s : State) (f : Dsp → Dsp) : (s.modDsp f).smem = s.smem := rfl
@[simp] theorem State.modDsp_smemLast (s : State) (f : Dsp → Dsp) : (s.modDsp f).smemLast = s.smemLast := rfl
@[simp] theorem State.modDsp_smemNext (s : State) (f : Dsp → Dsp) : (s.modDsp f).smemNext = s.smemNext := rfl
@[simp] theorem State.modDsp_smemJobs (s : State) (f : Dsp → Dsp) : (s.modDsp f).smemJobs = s.smemJobs := rfl
@[simp] theorem State.modDsp_sems (s : State) (f : Dsp → Dsp) : (s.modDsp f).sems = s.sems := rfl
@[simp] theorem State.modDsp_permits (s : State) (f : Dsp → Dsp) : (s.modDsp f).permits = s.permits := rfl
@[simp] theorem State.modDsp_mode (s : State) (f : Dsp → Dsp) : (s.modDsp f).mode = s.mode := rfl
@[simp] theorem State.modDsp_evt (s : State) (f : Dsp → Dsp) : (s.modDsp f).evt = s.evt := rfl
@[simp] theorem State.modDsp_cairn (s : State) (f : Dsp → Dsp) : (s.modDsp f).cairn = s.cairn := rfl
@[simp] theorem State.modDsp_trigout (s : State) (f : Dsp → Dsp) : (s.modDsp f).trigout = s.trigout := rfl
@[simp] theorem State.modDsp_conv (s : State) (f : Dsp → Dsp) : (s.modDsp f).conv = s.conv := rfl
@[simp] theorem State.modDsp_chans (s : State) (f : Dsp → Dsp) : (s.modDsp f).chans = s.chans := rfl
@[simp] theorem State.modDsp_trig (s : State) (f : Dsp → Dsp) : (s.modDsp f).trig = s.trig := rfl
@[simp] theorem State.modDsp_tmr (s : State) (f : Dsp → Dsp) : (s.modDsp f).tmr = s.tmr := rfl
@[simp] theorem State.modDsp_record (s : State) (f : Dsp → Dsp) : (s.modDsp f).record = s.record := rfl
@[simp] theorem State.modDsp_churn (s : State) (f : Dsp → Dsp) : (s.modDsp f).churn = s.churn := rfl
@[simp] theorem State.modDsp_fg (s : State) (f : Dsp → Dsp) : (s.modDsp f).fg = s.fg := rfl
@[simp] theorem State.modDsp_mem (s : State) (f : Dsp → Dsp) : (s.modDsp f).mem = s.mem := rfl
@[simp] theorem State.modDsp_link (s : State) (f : Dsp → Dsp) : (s.modDsp f).link = s.link := rfl
@[simp] theorem State.modDsp_tap (s : State) (f : Dsp → Dsp) : (s.modDsp f).tap = s.tap := rfl
@[simp] theorem State.modDsp_dma (s : State) (f : Dsp → Dsp) : (s.modDsp f).dma = s.dma := rfl
@[simp] theorem State.modDsp_sens (s : State) (f : Dsp → Dsp) : (s.modDsp f).sens = s.sens := rfl
@[simp] theorem State.modDsp_mgt (s : State) (f : Dsp → Dsp) : (s.modDsp f).mgt = s.mgt := rfl
@[simp] theorem State.modDsp_jtag (s : State) (f : Dsp → Dsp) : (s.modDsp f).jtag = s.jtag := rfl
@[simp] theorem State.modDsp_hbm (s : State) (f : Dsp → Dsp) : (s.modDsp f).hbm = s.hbm := rfl
@[simp] theorem State.modDsp_hostRead (s : State) (f : Dsp → Dsp) : (s.modDsp f).hostRead = s.hostRead := rfl
@[simp] theorem State.modDsp_hostMem (s : State) (f : Dsp → Dsp) : (s.modDsp f).hostMem = s.hostMem := rfl

/-! `modDma` -/

@[simp] theorem State.modDma_pending (s : State) (c : Nat) (f : DmaChan → DmaChan) : (s.modDma c f).pending = s.pending := rfl
@[simp] theorem State.modDma_is9620 (s : State) (c : Nat) (f : DmaChan → DmaChan) : (s.modDma c f).is9620 = s.is9620 := rfl
@[simp] theorem State.modDma_now (s : State) (c : Nat) (f : DmaChan → DmaChan) : (s.modDma c f).now = s.now := rfl
@[simp] theorem State.modDma_freeCtr (s : State) (c : Nat) (f : DmaChan → DmaChan) : (s.modDma c f).freeCtr = s.freeCtr := rfl
@[simp] theorem State.modDma_regs (s : State) (c : Nat) (f : DmaChan → DmaChan) : (s.modDma c f).regs = s.regs := rfl
@[simp] theorem State.modDma_latches (s : State) (c : Nat) (f : DmaChan → DmaChan) : (s.modDma c f).latches = s.latches := rfl
@[simp] theorem State.modDma_ks (s : State) (c : Nat) (f : DmaChan → DmaChan) : (s.modDma c f).ks = s.ks := rfl
@[simp] theorem State.modDma_ref (s : State) (c : Nat) (f : DmaChan → DmaChan) : (s.modDma c f).ref = s.ref := rfl
@[simp] theorem State.modDma_nod (s : State) (c : Nat) (f : DmaChan → DmaChan) : (s.modDma c f).nod = s.nod := rfl
@[simp] theorem State.modDma_ptm (s : State) (c : Nat) (f : DmaChan → DmaChan) : (s.modDma c f).ptm = s.ptm := rfl
@[simp] theorem State.modDma_cores (s : State) (c : Nat) (f : DmaChan → DmaChan) : (s.modDma c f).cores = s.cores := rfl
@[simp] theorem State.modDma_smem (s : State) (c : Nat) (f : DmaChan → DmaChan) : (s.modDma c f).smem = s.smem := rfl
@[simp] theorem State.modDma_smemLast (s : State) (c : Nat) (f : DmaChan → DmaChan) : (s.modDma c f).smemLast = s.smemLast := rfl
@[simp] theorem State.modDma_smemNext (s : State) (c : Nat) (f : DmaChan → DmaChan) : (s.modDma c f).smemNext = s.smemNext := rfl
@[simp] theorem State.modDma_smemJobs (s : State) (c : Nat) (f : DmaChan → DmaChan) : (s.modDma c f).smemJobs = s.smemJobs := rfl
@[simp] theorem State.modDma_sems (s : State) (c : Nat) (f : DmaChan → DmaChan) : (s.modDma c f).sems = s.sems := rfl
@[simp] theorem State.modDma_permits (s : State) (c : Nat) (f : DmaChan → DmaChan) : (s.modDma c f).permits = s.permits := rfl
@[simp] theorem State.modDma_mode (s : State) (c : Nat) (f : DmaChan → DmaChan) : (s.modDma c f).mode = s.mode := rfl
@[simp] theorem State.modDma_evt (s : State) (c : Nat) (f : DmaChan → DmaChan) : (s.modDma c f).evt = s.evt := rfl
@[simp] theorem State.modDma_cairn (s : State) (c : Nat) (f : DmaChan → DmaChan) : (s.modDma c f).cairn = s.cairn := rfl
@[simp] theorem State.modDma_trigout (s : State) (c : Nat) (f : DmaChan → DmaChan) : (s.modDma c f).trigout = s.trigout := rfl
@[simp] theorem State.modDma_conv (s : State) (c : Nat) (f : DmaChan → DmaChan) : (s.modDma c f).conv = s.conv := rfl
@[simp] theorem State.modDma_chans (s : State) (c : Nat) (f : DmaChan → DmaChan) : (s.modDma c f).chans = s.chans := rfl
@[simp] theorem State.modDma_trig (s : State) (c : Nat) (f : DmaChan → DmaChan) : (s.modDma c f).trig = s.trig := rfl
@[simp] theorem State.modDma_tmr (s : State) (c : Nat) (f : DmaChan → DmaChan) : (s.modDma c f).tmr = s.tmr := rfl
@[simp] theorem State.modDma_record (s : State) (c : Nat) (f : DmaChan → DmaChan) : (s.modDma c f).record = s.record := rfl
@[simp] theorem State.modDma_churn (s : State) (c : Nat) (f : DmaChan → DmaChan) : (s.modDma c f).churn = s.churn := rfl
@[simp] theorem State.modDma_fg (s : State) (c : Nat) (f : DmaChan → DmaChan) : (s.modDma c f).fg = s.fg := rfl
@[simp] theorem State.modDma_mem (s : State) (c : Nat) (f : DmaChan → DmaChan) : (s.modDma c f).mem = s.mem := rfl
@[simp] theorem State.modDma_link (s : State) (c : Nat) (f : DmaChan → DmaChan) : (s.modDma c f).link = s.link := rfl
@[simp] theorem State.modDma_tap (s : State) (c : Nat) (f : DmaChan → DmaChan) : (s.modDma c f).tap = s.tap := rfl
@[simp] theorem State.modDma_dsp (s : State) (c : Nat) (f : DmaChan → DmaChan) : (s.modDma c f).dsp = s.dsp := rfl
@[simp] theorem State.modDma_sens (s : State) (c : Nat) (f : DmaChan → DmaChan) : (s.modDma c f).sens = s.sens := rfl
@[simp] theorem State.modDma_mgt (s : State) (c : Nat) (f : DmaChan → DmaChan) : (s.modDma c f).mgt = s.mgt := rfl
@[simp] theorem State.modDma_jtag (s : State) (c : Nat) (f : DmaChan → DmaChan) : (s.modDma c f).jtag = s.jtag := rfl
@[simp] theorem State.modDma_hbm (s : State) (c : Nat) (f : DmaChan → DmaChan) : (s.modDma c f).hbm = s.hbm := rfl
@[simp] theorem State.modDma_hostRead (s : State) (c : Nat) (f : DmaChan → DmaChan) : (s.modDma c f).hostRead = s.hostRead := rfl
@[simp] theorem State.modDma_hostMem (s : State) (c : Nat) (f : DmaChan → DmaChan) : (s.modDma c f).hostMem = s.hostMem := rfl

/-! `modFn` -/

@[simp] theorem State.modFn_pending (s : State) (n : Nat) (g : PcieFn → PcieFn) : (s.modFn n g).pending = s.pending := rfl
@[simp] theorem State.modFn_is9620 (s : State) (n : Nat) (g : PcieFn → PcieFn) : (s.modFn n g).is9620 = s.is9620 := rfl
@[simp] theorem State.modFn_now (s : State) (n : Nat) (g : PcieFn → PcieFn) : (s.modFn n g).now = s.now := rfl
@[simp] theorem State.modFn_freeCtr (s : State) (n : Nat) (g : PcieFn → PcieFn) : (s.modFn n g).freeCtr = s.freeCtr := rfl
@[simp] theorem State.modFn_regs (s : State) (n : Nat) (g : PcieFn → PcieFn) : (s.modFn n g).regs = s.regs := rfl
@[simp] theorem State.modFn_latches (s : State) (n : Nat) (g : PcieFn → PcieFn) : (s.modFn n g).latches = s.latches := rfl
@[simp] theorem State.modFn_ks (s : State) (n : Nat) (g : PcieFn → PcieFn) : (s.modFn n g).ks = s.ks := rfl
@[simp] theorem State.modFn_ref (s : State) (n : Nat) (g : PcieFn → PcieFn) : (s.modFn n g).ref = s.ref := rfl
@[simp] theorem State.modFn_nod (s : State) (n : Nat) (g : PcieFn → PcieFn) : (s.modFn n g).nod = s.nod := rfl
@[simp] theorem State.modFn_ptm (s : State) (n : Nat) (g : PcieFn → PcieFn) : (s.modFn n g).ptm = s.ptm := rfl
@[simp] theorem State.modFn_cores (s : State) (n : Nat) (g : PcieFn → PcieFn) : (s.modFn n g).cores = s.cores := rfl
@[simp] theorem State.modFn_smem (s : State) (n : Nat) (g : PcieFn → PcieFn) : (s.modFn n g).smem = s.smem := rfl
@[simp] theorem State.modFn_smemLast (s : State) (n : Nat) (g : PcieFn → PcieFn) : (s.modFn n g).smemLast = s.smemLast := rfl
@[simp] theorem State.modFn_smemNext (s : State) (n : Nat) (g : PcieFn → PcieFn) : (s.modFn n g).smemNext = s.smemNext := rfl
@[simp] theorem State.modFn_smemJobs (s : State) (n : Nat) (g : PcieFn → PcieFn) : (s.modFn n g).smemJobs = s.smemJobs := rfl
@[simp] theorem State.modFn_sems (s : State) (n : Nat) (g : PcieFn → PcieFn) : (s.modFn n g).sems = s.sems := rfl
@[simp] theorem State.modFn_permits (s : State) (n : Nat) (g : PcieFn → PcieFn) : (s.modFn n g).permits = s.permits := rfl
@[simp] theorem State.modFn_mode (s : State) (n : Nat) (g : PcieFn → PcieFn) : (s.modFn n g).mode = s.mode := rfl
@[simp] theorem State.modFn_evt (s : State) (n : Nat) (g : PcieFn → PcieFn) : (s.modFn n g).evt = s.evt := rfl
@[simp] theorem State.modFn_cairn (s : State) (n : Nat) (g : PcieFn → PcieFn) : (s.modFn n g).cairn = s.cairn := rfl
@[simp] theorem State.modFn_trigout (s : State) (n : Nat) (g : PcieFn → PcieFn) : (s.modFn n g).trigout = s.trigout := rfl
@[simp] theorem State.modFn_conv (s : State) (n : Nat) (g : PcieFn → PcieFn) : (s.modFn n g).conv = s.conv := rfl
@[simp] theorem State.modFn_chans (s : State) (n : Nat) (g : PcieFn → PcieFn) : (s.modFn n g).chans = s.chans := rfl
@[simp] theorem State.modFn_trig (s : State) (n : Nat) (g : PcieFn → PcieFn) : (s.modFn n g).trig = s.trig := rfl
@[simp] theorem State.modFn_tmr (s : State) (n : Nat) (g : PcieFn → PcieFn) : (s.modFn n g).tmr = s.tmr := rfl
@[simp] theorem State.modFn_record (s : State) (n : Nat) (g : PcieFn → PcieFn) : (s.modFn n g).record = s.record := rfl
@[simp] theorem State.modFn_churn (s : State) (n : Nat) (g : PcieFn → PcieFn) : (s.modFn n g).churn = s.churn := rfl
@[simp] theorem State.modFn_fg (s : State) (n : Nat) (g : PcieFn → PcieFn) : (s.modFn n g).fg = s.fg := rfl
@[simp] theorem State.modFn_mem (s : State) (n : Nat) (g : PcieFn → PcieFn) : (s.modFn n g).mem = s.mem := rfl
@[simp] theorem State.modFn_tap (s : State) (n : Nat) (g : PcieFn → PcieFn) : (s.modFn n g).tap = s.tap := rfl
@[simp] theorem State.modFn_dma (s : State) (n : Nat) (g : PcieFn → PcieFn) : (s.modFn n g).dma = s.dma := rfl
@[simp] theorem State.modFn_dsp (s : State) (n : Nat) (g : PcieFn → PcieFn) : (s.modFn n g).dsp = s.dsp := rfl
@[simp] theorem State.modFn_sens (s : State) (n : Nat) (g : PcieFn → PcieFn) : (s.modFn n g).sens = s.sens := rfl
@[simp] theorem State.modFn_mgt (s : State) (n : Nat) (g : PcieFn → PcieFn) : (s.modFn n g).mgt = s.mgt := rfl
@[simp] theorem State.modFn_jtag (s : State) (n : Nat) (g : PcieFn → PcieFn) : (s.modFn n g).jtag = s.jtag := rfl
@[simp] theorem State.modFn_hbm (s : State) (n : Nat) (g : PcieFn → PcieFn) : (s.modFn n g).hbm = s.hbm := rfl
@[simp] theorem State.modFn_hostRead (s : State) (n : Nat) (g : PcieFn → PcieFn) : (s.modFn n g).hostRead = s.hostRead := rfl
@[simp] theorem State.modFn_hostMem (s : State) (n : Nat) (g : PcieFn → PcieFn) : (s.modFn n g).hostMem = s.hostMem := rfl

/-! `modLink` -/

@[simp] theorem State.modLink_pending (s : State) (f : Link → Link) : (s.modLink f).pending = s.pending := rfl
@[simp] theorem State.modLink_is9620 (s : State) (f : Link → Link) : (s.modLink f).is9620 = s.is9620 := rfl
@[simp] theorem State.modLink_now (s : State) (f : Link → Link) : (s.modLink f).now = s.now := rfl
@[simp] theorem State.modLink_freeCtr (s : State) (f : Link → Link) : (s.modLink f).freeCtr = s.freeCtr := rfl
@[simp] theorem State.modLink_regs (s : State) (f : Link → Link) : (s.modLink f).regs = s.regs := rfl
@[simp] theorem State.modLink_latches (s : State) (f : Link → Link) : (s.modLink f).latches = s.latches := rfl
@[simp] theorem State.modLink_ks (s : State) (f : Link → Link) : (s.modLink f).ks = s.ks := rfl
@[simp] theorem State.modLink_ref (s : State) (f : Link → Link) : (s.modLink f).ref = s.ref := rfl
@[simp] theorem State.modLink_nod (s : State) (f : Link → Link) : (s.modLink f).nod = s.nod := rfl
@[simp] theorem State.modLink_ptm (s : State) (f : Link → Link) : (s.modLink f).ptm = s.ptm := rfl
@[simp] theorem State.modLink_cores (s : State) (f : Link → Link) : (s.modLink f).cores = s.cores := rfl
@[simp] theorem State.modLink_smem (s : State) (f : Link → Link) : (s.modLink f).smem = s.smem := rfl
@[simp] theorem State.modLink_smemLast (s : State) (f : Link → Link) : (s.modLink f).smemLast = s.smemLast := rfl
@[simp] theorem State.modLink_smemNext (s : State) (f : Link → Link) : (s.modLink f).smemNext = s.smemNext := rfl
@[simp] theorem State.modLink_smemJobs (s : State) (f : Link → Link) : (s.modLink f).smemJobs = s.smemJobs := rfl
@[simp] theorem State.modLink_sems (s : State) (f : Link → Link) : (s.modLink f).sems = s.sems := rfl
@[simp] theorem State.modLink_permits (s : State) (f : Link → Link) : (s.modLink f).permits = s.permits := rfl
@[simp] theorem State.modLink_mode (s : State) (f : Link → Link) : (s.modLink f).mode = s.mode := rfl
@[simp] theorem State.modLink_evt (s : State) (f : Link → Link) : (s.modLink f).evt = s.evt := rfl
@[simp] theorem State.modLink_cairn (s : State) (f : Link → Link) : (s.modLink f).cairn = s.cairn := rfl
@[simp] theorem State.modLink_trigout (s : State) (f : Link → Link) : (s.modLink f).trigout = s.trigout := rfl
@[simp] theorem State.modLink_conv (s : State) (f : Link → Link) : (s.modLink f).conv = s.conv := rfl
@[simp] theorem State.modLink_chans (s : State) (f : Link → Link) : (s.modLink f).chans = s.chans := rfl
@[simp] theorem State.modLink_trig (s : State) (f : Link → Link) : (s.modLink f).trig = s.trig := rfl
@[simp] theorem State.modLink_tmr (s : State) (f : Link → Link) : (s.modLink f).tmr = s.tmr := rfl
@[simp] theorem State.modLink_record (s : State) (f : Link → Link) : (s.modLink f).record = s.record := rfl
@[simp] theorem State.modLink_churn (s : State) (f : Link → Link) : (s.modLink f).churn = s.churn := rfl
@[simp] theorem State.modLink_fg (s : State) (f : Link → Link) : (s.modLink f).fg = s.fg := rfl
@[simp] theorem State.modLink_mem (s : State) (f : Link → Link) : (s.modLink f).mem = s.mem := rfl
@[simp] theorem State.modLink_tap (s : State) (f : Link → Link) : (s.modLink f).tap = s.tap := rfl
@[simp] theorem State.modLink_dma (s : State) (f : Link → Link) : (s.modLink f).dma = s.dma := rfl
@[simp] theorem State.modLink_dsp (s : State) (f : Link → Link) : (s.modLink f).dsp = s.dsp := rfl
@[simp] theorem State.modLink_sens (s : State) (f : Link → Link) : (s.modLink f).sens = s.sens := rfl
@[simp] theorem State.modLink_mgt (s : State) (f : Link → Link) : (s.modLink f).mgt = s.mgt := rfl
@[simp] theorem State.modLink_jtag (s : State) (f : Link → Link) : (s.modLink f).jtag = s.jtag := rfl
@[simp] theorem State.modLink_hbm (s : State) (f : Link → Link) : (s.modLink f).hbm = s.hbm := rfl
@[simp] theorem State.modLink_hostRead (s : State) (f : Link → Link) : (s.modLink f).hostRead = s.hostRead := rfl
@[simp] theorem State.modLink_hostMem (s : State) (f : Link → Link) : (s.modLink f).hostMem = s.hostMem := rfl

/-! `modEngine` -/

@[simp] theorem State.modEngine_pending (s : State) (e : Nat) (f : Engine → Engine) : (s.modEngine e f).pending = s.pending := rfl
@[simp] theorem State.modEngine_is9620 (s : State) (e : Nat) (f : Engine → Engine) : (s.modEngine e f).is9620 = s.is9620 := rfl
@[simp] theorem State.modEngine_now (s : State) (e : Nat) (f : Engine → Engine) : (s.modEngine e f).now = s.now := rfl
@[simp] theorem State.modEngine_freeCtr (s : State) (e : Nat) (f : Engine → Engine) : (s.modEngine e f).freeCtr = s.freeCtr := rfl
@[simp] theorem State.modEngine_regs (s : State) (e : Nat) (f : Engine → Engine) : (s.modEngine e f).regs = s.regs := rfl
@[simp] theorem State.modEngine_latches (s : State) (e : Nat) (f : Engine → Engine) : (s.modEngine e f).latches = s.latches := rfl
@[simp] theorem State.modEngine_ks (s : State) (e : Nat) (f : Engine → Engine) : (s.modEngine e f).ks = s.ks := rfl
@[simp] theorem State.modEngine_ref (s : State) (e : Nat) (f : Engine → Engine) : (s.modEngine e f).ref = s.ref := rfl
@[simp] theorem State.modEngine_nod (s : State) (e : Nat) (f : Engine → Engine) : (s.modEngine e f).nod = s.nod := rfl
@[simp] theorem State.modEngine_ptm (s : State) (e : Nat) (f : Engine → Engine) : (s.modEngine e f).ptm = s.ptm := rfl
@[simp] theorem State.modEngine_cores (s : State) (e : Nat) (f : Engine → Engine) : (s.modEngine e f).cores = s.cores := rfl
@[simp] theorem State.modEngine_smem (s : State) (e : Nat) (f : Engine → Engine) : (s.modEngine e f).smem = s.smem := rfl
@[simp] theorem State.modEngine_smemLast (s : State) (e : Nat) (f : Engine → Engine) : (s.modEngine e f).smemLast = s.smemLast := rfl
@[simp] theorem State.modEngine_smemNext (s : State) (e : Nat) (f : Engine → Engine) : (s.modEngine e f).smemNext = s.smemNext := rfl
@[simp] theorem State.modEngine_smemJobs (s : State) (e : Nat) (f : Engine → Engine) : (s.modEngine e f).smemJobs = s.smemJobs := rfl
@[simp] theorem State.modEngine_sems (s : State) (e : Nat) (f : Engine → Engine) : (s.modEngine e f).sems = s.sems := rfl
@[simp] theorem State.modEngine_permits (s : State) (e : Nat) (f : Engine → Engine) : (s.modEngine e f).permits = s.permits := rfl
@[simp] theorem State.modEngine_mode (s : State) (e : Nat) (f : Engine → Engine) : (s.modEngine e f).mode = s.mode := rfl
@[simp] theorem State.modEngine_evt (s : State) (e : Nat) (f : Engine → Engine) : (s.modEngine e f).evt = s.evt := rfl
@[simp] theorem State.modEngine_cairn (s : State) (e : Nat) (f : Engine → Engine) : (s.modEngine e f).cairn = s.cairn := rfl
@[simp] theorem State.modEngine_trigout (s : State) (e : Nat) (f : Engine → Engine) : (s.modEngine e f).trigout = s.trigout := rfl
@[simp] theorem State.modEngine_conv (s : State) (e : Nat) (f : Engine → Engine) : (s.modEngine e f).conv = s.conv := rfl
@[simp] theorem State.modEngine_chans (s : State) (e : Nat) (f : Engine → Engine) : (s.modEngine e f).chans = s.chans := rfl
@[simp] theorem State.modEngine_trig (s : State) (e : Nat) (f : Engine → Engine) : (s.modEngine e f).trig = s.trig := rfl
@[simp] theorem State.modEngine_tmr (s : State) (e : Nat) (f : Engine → Engine) : (s.modEngine e f).tmr = s.tmr := rfl
@[simp] theorem State.modEngine_record (s : State) (e : Nat) (f : Engine → Engine) : (s.modEngine e f).record = s.record := rfl
@[simp] theorem State.modEngine_churn (s : State) (e : Nat) (f : Engine → Engine) : (s.modEngine e f).churn = s.churn := rfl
@[simp] theorem State.modEngine_fg (s : State) (e : Nat) (f : Engine → Engine) : (s.modEngine e f).fg = s.fg := rfl
@[simp] theorem State.modEngine_link (s : State) (e : Nat) (f : Engine → Engine) : (s.modEngine e f).link = s.link := rfl
@[simp] theorem State.modEngine_tap (s : State) (e : Nat) (f : Engine → Engine) : (s.modEngine e f).tap = s.tap := rfl
@[simp] theorem State.modEngine_dma (s : State) (e : Nat) (f : Engine → Engine) : (s.modEngine e f).dma = s.dma := rfl
@[simp] theorem State.modEngine_dsp (s : State) (e : Nat) (f : Engine → Engine) : (s.modEngine e f).dsp = s.dsp := rfl
@[simp] theorem State.modEngine_sens (s : State) (e : Nat) (f : Engine → Engine) : (s.modEngine e f).sens = s.sens := rfl
@[simp] theorem State.modEngine_mgt (s : State) (e : Nat) (f : Engine → Engine) : (s.modEngine e f).mgt = s.mgt := rfl
@[simp] theorem State.modEngine_jtag (s : State) (e : Nat) (f : Engine → Engine) : (s.modEngine e f).jtag = s.jtag := rfl
@[simp] theorem State.modEngine_hbm (s : State) (e : Nat) (f : Engine → Engine) : (s.modEngine e f).hbm = s.hbm := rfl
@[simp] theorem State.modEngine_hostRead (s : State) (e : Nat) (f : Engine → Engine) : (s.modEngine e f).hostRead = s.hostRead := rfl
@[simp] theorem State.modEngine_hostMem (s : State) (e : Nat) (f : Engine → Engine) : (s.modEngine e f).hostMem = s.hostMem := rfl

/-! `modHchan` -/

@[simp] theorem State.modHchan_pending (s : State) (c : Nat) (f : HChan → HChan) : (s.modHchan c f).pending = s.pending := rfl
@[simp] theorem State.modHchan_is9620 (s : State) (c : Nat) (f : HChan → HChan) : (s.modHchan c f).is9620 = s.is9620 := rfl
@[simp] theorem State.modHchan_now (s : State) (c : Nat) (f : HChan → HChan) : (s.modHchan c f).now = s.now := rfl
@[simp] theorem State.modHchan_freeCtr (s : State) (c : Nat) (f : HChan → HChan) : (s.modHchan c f).freeCtr = s.freeCtr := rfl
@[simp] theorem State.modHchan_regs (s : State) (c : Nat) (f : HChan → HChan) : (s.modHchan c f).regs = s.regs := rfl
@[simp] theorem State.modHchan_latches (s : State) (c : Nat) (f : HChan → HChan) : (s.modHchan c f).latches = s.latches := rfl
@[simp] theorem State.modHchan_ks (s : State) (c : Nat) (f : HChan → HChan) : (s.modHchan c f).ks = s.ks := rfl
@[simp] theorem State.modHchan_ref (s : State) (c : Nat) (f : HChan → HChan) : (s.modHchan c f).ref = s.ref := rfl
@[simp] theorem State.modHchan_nod (s : State) (c : Nat) (f : HChan → HChan) : (s.modHchan c f).nod = s.nod := rfl
@[simp] theorem State.modHchan_ptm (s : State) (c : Nat) (f : HChan → HChan) : (s.modHchan c f).ptm = s.ptm := rfl
@[simp] theorem State.modHchan_cores (s : State) (c : Nat) (f : HChan → HChan) : (s.modHchan c f).cores = s.cores := rfl
@[simp] theorem State.modHchan_smem (s : State) (c : Nat) (f : HChan → HChan) : (s.modHchan c f).smem = s.smem := rfl
@[simp] theorem State.modHchan_smemLast (s : State) (c : Nat) (f : HChan → HChan) : (s.modHchan c f).smemLast = s.smemLast := rfl
@[simp] theorem State.modHchan_smemNext (s : State) (c : Nat) (f : HChan → HChan) : (s.modHchan c f).smemNext = s.smemNext := rfl
@[simp] theorem State.modHchan_smemJobs (s : State) (c : Nat) (f : HChan → HChan) : (s.modHchan c f).smemJobs = s.smemJobs := rfl
@[simp] theorem State.modHchan_sems (s : State) (c : Nat) (f : HChan → HChan) : (s.modHchan c f).sems = s.sems := rfl
@[simp] theorem State.modHchan_permits (s : State) (c : Nat) (f : HChan → HChan) : (s.modHchan c f).permits = s.permits := rfl
@[simp] theorem State.modHchan_mode (s : State) (c : Nat) (f : HChan → HChan) : (s.modHchan c f).mode = s.mode := rfl
@[simp] theorem State.modHchan_evt (s : State) (c : Nat) (f : HChan → HChan) : (s.modHchan c f).evt = s.evt := rfl
@[simp] theorem State.modHchan_cairn (s : State) (c : Nat) (f : HChan → HChan) : (s.modHchan c f).cairn = s.cairn := rfl
@[simp] theorem State.modHchan_trigout (s : State) (c : Nat) (f : HChan → HChan) : (s.modHchan c f).trigout = s.trigout := rfl
@[simp] theorem State.modHchan_conv (s : State) (c : Nat) (f : HChan → HChan) : (s.modHchan c f).conv = s.conv := rfl
@[simp] theorem State.modHchan_chans (s : State) (c : Nat) (f : HChan → HChan) : (s.modHchan c f).chans = s.chans := rfl
@[simp] theorem State.modHchan_trig (s : State) (c : Nat) (f : HChan → HChan) : (s.modHchan c f).trig = s.trig := rfl
@[simp] theorem State.modHchan_tmr (s : State) (c : Nat) (f : HChan → HChan) : (s.modHchan c f).tmr = s.tmr := rfl
@[simp] theorem State.modHchan_record (s : State) (c : Nat) (f : HChan → HChan) : (s.modHchan c f).record = s.record := rfl
@[simp] theorem State.modHchan_churn (s : State) (c : Nat) (f : HChan → HChan) : (s.modHchan c f).churn = s.churn := rfl
@[simp] theorem State.modHchan_fg (s : State) (c : Nat) (f : HChan → HChan) : (s.modHchan c f).fg = s.fg := rfl
@[simp] theorem State.modHchan_link (s : State) (c : Nat) (f : HChan → HChan) : (s.modHchan c f).link = s.link := rfl
@[simp] theorem State.modHchan_tap (s : State) (c : Nat) (f : HChan → HChan) : (s.modHchan c f).tap = s.tap := rfl
@[simp] theorem State.modHchan_dma (s : State) (c : Nat) (f : HChan → HChan) : (s.modHchan c f).dma = s.dma := rfl
@[simp] theorem State.modHchan_dsp (s : State) (c : Nat) (f : HChan → HChan) : (s.modHchan c f).dsp = s.dsp := rfl
@[simp] theorem State.modHchan_sens (s : State) (c : Nat) (f : HChan → HChan) : (s.modHchan c f).sens = s.sens := rfl
@[simp] theorem State.modHchan_mgt (s : State) (c : Nat) (f : HChan → HChan) : (s.modHchan c f).mgt = s.mgt := rfl
@[simp] theorem State.modHchan_jtag (s : State) (c : Nat) (f : HChan → HChan) : (s.modHchan c f).jtag = s.jtag := rfl
@[simp] theorem State.modHchan_hbm (s : State) (c : Nat) (f : HChan → HChan) : (s.modHchan c f).hbm = s.hbm := rfl
@[simp] theorem State.modHchan_hostRead (s : State) (c : Nat) (f : HChan → HChan) : (s.modHchan c f).hostRead = s.hostRead := rfl
@[simp] theorem State.modHchan_hostMem (s : State) (c : Nat) (f : HChan → HChan) : (s.modHchan c f).hostMem = s.hostMem := rfl

/-! `modMport` -/

@[simp] theorem State.modMport_pending (s : State) (p : Nat) (f : MPort → MPort) : (s.modMport p f).pending = s.pending := rfl
@[simp] theorem State.modMport_is9620 (s : State) (p : Nat) (f : MPort → MPort) : (s.modMport p f).is9620 = s.is9620 := rfl
@[simp] theorem State.modMport_now (s : State) (p : Nat) (f : MPort → MPort) : (s.modMport p f).now = s.now := rfl
@[simp] theorem State.modMport_freeCtr (s : State) (p : Nat) (f : MPort → MPort) : (s.modMport p f).freeCtr = s.freeCtr := rfl
@[simp] theorem State.modMport_regs (s : State) (p : Nat) (f : MPort → MPort) : (s.modMport p f).regs = s.regs := rfl
@[simp] theorem State.modMport_latches (s : State) (p : Nat) (f : MPort → MPort) : (s.modMport p f).latches = s.latches := rfl
@[simp] theorem State.modMport_ks (s : State) (p : Nat) (f : MPort → MPort) : (s.modMport p f).ks = s.ks := rfl
@[simp] theorem State.modMport_ref (s : State) (p : Nat) (f : MPort → MPort) : (s.modMport p f).ref = s.ref := rfl
@[simp] theorem State.modMport_nod (s : State) (p : Nat) (f : MPort → MPort) : (s.modMport p f).nod = s.nod := rfl
@[simp] theorem State.modMport_ptm (s : State) (p : Nat) (f : MPort → MPort) : (s.modMport p f).ptm = s.ptm := rfl
@[simp] theorem State.modMport_cores (s : State) (p : Nat) (f : MPort → MPort) : (s.modMport p f).cores = s.cores := rfl
@[simp] theorem State.modMport_smem (s : State) (p : Nat) (f : MPort → MPort) : (s.modMport p f).smem = s.smem := rfl
@[simp] theorem State.modMport_smemLast (s : State) (p : Nat) (f : MPort → MPort) : (s.modMport p f).smemLast = s.smemLast := rfl
@[simp] theorem State.modMport_smemNext (s : State) (p : Nat) (f : MPort → MPort) : (s.modMport p f).smemNext = s.smemNext := rfl
@[simp] theorem State.modMport_smemJobs (s : State) (p : Nat) (f : MPort → MPort) : (s.modMport p f).smemJobs = s.smemJobs := rfl
@[simp] theorem State.modMport_sems (s : State) (p : Nat) (f : MPort → MPort) : (s.modMport p f).sems = s.sems := rfl
@[simp] theorem State.modMport_permits (s : State) (p : Nat) (f : MPort → MPort) : (s.modMport p f).permits = s.permits := rfl
@[simp] theorem State.modMport_mode (s : State) (p : Nat) (f : MPort → MPort) : (s.modMport p f).mode = s.mode := rfl
@[simp] theorem State.modMport_evt (s : State) (p : Nat) (f : MPort → MPort) : (s.modMport p f).evt = s.evt := rfl
@[simp] theorem State.modMport_cairn (s : State) (p : Nat) (f : MPort → MPort) : (s.modMport p f).cairn = s.cairn := rfl
@[simp] theorem State.modMport_trigout (s : State) (p : Nat) (f : MPort → MPort) : (s.modMport p f).trigout = s.trigout := rfl
@[simp] theorem State.modMport_conv (s : State) (p : Nat) (f : MPort → MPort) : (s.modMport p f).conv = s.conv := rfl
@[simp] theorem State.modMport_chans (s : State) (p : Nat) (f : MPort → MPort) : (s.modMport p f).chans = s.chans := rfl
@[simp] theorem State.modMport_trig (s : State) (p : Nat) (f : MPort → MPort) : (s.modMport p f).trig = s.trig := rfl
@[simp] theorem State.modMport_tmr (s : State) (p : Nat) (f : MPort → MPort) : (s.modMport p f).tmr = s.tmr := rfl
@[simp] theorem State.modMport_record (s : State) (p : Nat) (f : MPort → MPort) : (s.modMport p f).record = s.record := rfl
@[simp] theorem State.modMport_churn (s : State) (p : Nat) (f : MPort → MPort) : (s.modMport p f).churn = s.churn := rfl
@[simp] theorem State.modMport_fg (s : State) (p : Nat) (f : MPort → MPort) : (s.modMport p f).fg = s.fg := rfl
@[simp] theorem State.modMport_link (s : State) (p : Nat) (f : MPort → MPort) : (s.modMport p f).link = s.link := rfl
@[simp] theorem State.modMport_tap (s : State) (p : Nat) (f : MPort → MPort) : (s.modMport p f).tap = s.tap := rfl
@[simp] theorem State.modMport_dma (s : State) (p : Nat) (f : MPort → MPort) : (s.modMport p f).dma = s.dma := rfl
@[simp] theorem State.modMport_dsp (s : State) (p : Nat) (f : MPort → MPort) : (s.modMport p f).dsp = s.dsp := rfl
@[simp] theorem State.modMport_sens (s : State) (p : Nat) (f : MPort → MPort) : (s.modMport p f).sens = s.sens := rfl
@[simp] theorem State.modMport_mgt (s : State) (p : Nat) (f : MPort → MPort) : (s.modMport p f).mgt = s.mgt := rfl
@[simp] theorem State.modMport_jtag (s : State) (p : Nat) (f : MPort → MPort) : (s.modMport p f).jtag = s.jtag := rfl
@[simp] theorem State.modMport_hbm (s : State) (p : Nat) (f : MPort → MPort) : (s.modMport p f).hbm = s.hbm := rfl
@[simp] theorem State.modMport_hostRead (s : State) (p : Nat) (f : MPort → MPort) : (s.modMport p f).hostRead = s.hostRead := rfl
@[simp] theorem State.modMport_hostMem (s : State) (p : Nat) (f : MPort → MPort) : (s.modMport p f).hostMem = s.hostMem := rfl

/-! `modStack` -/

@[simp] theorem State.modStack_pending (s : State) (st : Nat) (f : Stack → Stack) : (s.modStack st f).pending = s.pending := rfl
@[simp] theorem State.modStack_is9620 (s : State) (st : Nat) (f : Stack → Stack) : (s.modStack st f).is9620 = s.is9620 := rfl
@[simp] theorem State.modStack_now (s : State) (st : Nat) (f : Stack → Stack) : (s.modStack st f).now = s.now := rfl
@[simp] theorem State.modStack_freeCtr (s : State) (st : Nat) (f : Stack → Stack) : (s.modStack st f).freeCtr = s.freeCtr := rfl
@[simp] theorem State.modStack_regs (s : State) (st : Nat) (f : Stack → Stack) : (s.modStack st f).regs = s.regs := rfl
@[simp] theorem State.modStack_latches (s : State) (st : Nat) (f : Stack → Stack) : (s.modStack st f).latches = s.latches := rfl
@[simp] theorem State.modStack_ks (s : State) (st : Nat) (f : Stack → Stack) : (s.modStack st f).ks = s.ks := rfl
@[simp] theorem State.modStack_ref (s : State) (st : Nat) (f : Stack → Stack) : (s.modStack st f).ref = s.ref := rfl
@[simp] theorem State.modStack_nod (s : State) (st : Nat) (f : Stack → Stack) : (s.modStack st f).nod = s.nod := rfl
@[simp] theorem State.modStack_ptm (s : State) (st : Nat) (f : Stack → Stack) : (s.modStack st f).ptm = s.ptm := rfl
@[simp] theorem State.modStack_cores (s : State) (st : Nat) (f : Stack → Stack) : (s.modStack st f).cores = s.cores := rfl
@[simp] theorem State.modStack_smem (s : State) (st : Nat) (f : Stack → Stack) : (s.modStack st f).smem = s.smem := rfl
@[simp] theorem State.modStack_smemLast (s : State) (st : Nat) (f : Stack → Stack) : (s.modStack st f).smemLast = s.smemLast := rfl
@[simp] theorem State.modStack_smemNext (s : State) (st : Nat) (f : Stack → Stack) : (s.modStack st f).smemNext = s.smemNext := rfl
@[simp] theorem State.modStack_smemJobs (s : State) (st : Nat) (f : Stack → Stack) : (s.modStack st f).smemJobs = s.smemJobs := rfl
@[simp] theorem State.modStack_sems (s : State) (st : Nat) (f : Stack → Stack) : (s.modStack st f).sems = s.sems := rfl
@[simp] theorem State.modStack_permits (s : State) (st : Nat) (f : Stack → Stack) : (s.modStack st f).permits = s.permits := rfl
@[simp] theorem State.modStack_mode (s : State) (st : Nat) (f : Stack → Stack) : (s.modStack st f).mode = s.mode := rfl
@[simp] theorem State.modStack_evt (s : State) (st : Nat) (f : Stack → Stack) : (s.modStack st f).evt = s.evt := rfl
@[simp] theorem State.modStack_cairn (s : State) (st : Nat) (f : Stack → Stack) : (s.modStack st f).cairn = s.cairn := rfl
@[simp] theorem State.modStack_trigout (s : State) (st : Nat) (f : Stack → Stack) : (s.modStack st f).trigout = s.trigout := rfl
@[simp] theorem State.modStack_conv (s : State) (st : Nat) (f : Stack → Stack) : (s.modStack st f).conv = s.conv := rfl
@[simp] theorem State.modStack_chans (s : State) (st : Nat) (f : Stack → Stack) : (s.modStack st f).chans = s.chans := rfl
@[simp] theorem State.modStack_trig (s : State) (st : Nat) (f : Stack → Stack) : (s.modStack st f).trig = s.trig := rfl
@[simp] theorem State.modStack_tmr (s : State) (st : Nat) (f : Stack → Stack) : (s.modStack st f).tmr = s.tmr := rfl
@[simp] theorem State.modStack_record (s : State) (st : Nat) (f : Stack → Stack) : (s.modStack st f).record = s.record := rfl
@[simp] theorem State.modStack_churn (s : State) (st : Nat) (f : Stack → Stack) : (s.modStack st f).churn = s.churn := rfl
@[simp] theorem State.modStack_fg (s : State) (st : Nat) (f : Stack → Stack) : (s.modStack st f).fg = s.fg := rfl
@[simp] theorem State.modStack_link (s : State) (st : Nat) (f : Stack → Stack) : (s.modStack st f).link = s.link := rfl
@[simp] theorem State.modStack_tap (s : State) (st : Nat) (f : Stack → Stack) : (s.modStack st f).tap = s.tap := rfl
@[simp] theorem State.modStack_dma (s : State) (st : Nat) (f : Stack → Stack) : (s.modStack st f).dma = s.dma := rfl
@[simp] theorem State.modStack_dsp (s : State) (st : Nat) (f : Stack → Stack) : (s.modStack st f).dsp = s.dsp := rfl
@[simp] theorem State.modStack_sens (s : State) (st : Nat) (f : Stack → Stack) : (s.modStack st f).sens = s.sens := rfl
@[simp] theorem State.modStack_mgt (s : State) (st : Nat) (f : Stack → Stack) : (s.modStack st f).mgt = s.mgt := rfl
@[simp] theorem State.modStack_jtag (s : State) (st : Nat) (f : Stack → Stack) : (s.modStack st f).jtag = s.jtag := rfl
@[simp] theorem State.modStack_hbm (s : State) (st : Nat) (f : Stack → Stack) : (s.modStack st f).hbm = s.hbm := rfl
@[simp] theorem State.modStack_hostRead (s : State) (st : Nat) (f : Stack → Stack) : (s.modStack st f).hostRead = s.hostRead := rfl
@[simp] theorem State.modStack_hostMem (s : State) (st : Nat) (f : Stack → Stack) : (s.modStack st f).hostMem = s.hostMem := rfl

/-! `modMgt` -/

@[simp] theorem State.modMgt_pending (s : State) (f : Mgt → Mgt) : (s.modMgt f).pending = s.pending := rfl
@[simp] theorem State.modMgt_is9620 (s : State) (f : Mgt → Mgt) : (s.modMgt f).is9620 = s.is9620 := rfl
@[simp] theorem State.modMgt_now (s : State) (f : Mgt → Mgt) : (s.modMgt f).now = s.now := rfl
@[simp] theorem State.modMgt_freeCtr (s : State) (f : Mgt → Mgt) : (s.modMgt f).freeCtr = s.freeCtr := rfl
@[simp] theorem State.modMgt_regs (s : State) (f : Mgt → Mgt) : (s.modMgt f).regs = s.regs := rfl
@[simp] theorem State.modMgt_latches (s : State) (f : Mgt → Mgt) : (s.modMgt f).latches = s.latches := rfl
@[simp] theorem State.modMgt_ks (s : State) (f : Mgt → Mgt) : (s.modMgt f).ks = s.ks := rfl
@[simp] theorem State.modMgt_ref (s : State) (f : Mgt → Mgt) : (s.modMgt f).ref = s.ref := rfl
@[simp] theorem State.modMgt_nod (s : State) (f : Mgt → Mgt) : (s.modMgt f).nod = s.nod := rfl
@[simp] theorem State.modMgt_ptm (s : State) (f : Mgt → Mgt) : (s.modMgt f).ptm = s.ptm := rfl
@[simp] theorem State.modMgt_cores (s : State) (f : Mgt → Mgt) : (s.modMgt f).cores = s.cores := rfl
@[simp] theorem State.modMgt_smem (s : State) (f : Mgt → Mgt) : (s.modMgt f).smem = s.smem := rfl
@[simp] theorem State.modMgt_smemLast (s : State) (f : Mgt → Mgt) : (s.modMgt f).smemLast = s.smemLast := rfl
@[simp] theorem State.modMgt_smemNext (s : State) (f : Mgt → Mgt) : (s.modMgt f).smemNext = s.smemNext := rfl
@[simp] theorem State.modMgt_smemJobs (s : State) (f : Mgt → Mgt) : (s.modMgt f).smemJobs = s.smemJobs := rfl
@[simp] theorem State.modMgt_sems (s : State) (f : Mgt → Mgt) : (s.modMgt f).sems = s.sems := rfl
@[simp] theorem State.modMgt_permits (s : State) (f : Mgt → Mgt) : (s.modMgt f).permits = s.permits := rfl
@[simp] theorem State.modMgt_mode (s : State) (f : Mgt → Mgt) : (s.modMgt f).mode = s.mode := rfl
@[simp] theorem State.modMgt_evt (s : State) (f : Mgt → Mgt) : (s.modMgt f).evt = s.evt := rfl
@[simp] theorem State.modMgt_cairn (s : State) (f : Mgt → Mgt) : (s.modMgt f).cairn = s.cairn := rfl
@[simp] theorem State.modMgt_trigout (s : State) (f : Mgt → Mgt) : (s.modMgt f).trigout = s.trigout := rfl
@[simp] theorem State.modMgt_conv (s : State) (f : Mgt → Mgt) : (s.modMgt f).conv = s.conv := rfl
@[simp] theorem State.modMgt_chans (s : State) (f : Mgt → Mgt) : (s.modMgt f).chans = s.chans := rfl
@[simp] theorem State.modMgt_trig (s : State) (f : Mgt → Mgt) : (s.modMgt f).trig = s.trig := rfl
@[simp] theorem State.modMgt_tmr (s : State) (f : Mgt → Mgt) : (s.modMgt f).tmr = s.tmr := rfl
@[simp] theorem State.modMgt_record (s : State) (f : Mgt → Mgt) : (s.modMgt f).record = s.record := rfl
@[simp] theorem State.modMgt_churn (s : State) (f : Mgt → Mgt) : (s.modMgt f).churn = s.churn := rfl
@[simp] theorem State.modMgt_fg (s : State) (f : Mgt → Mgt) : (s.modMgt f).fg = s.fg := rfl
@[simp] theorem State.modMgt_mem (s : State) (f : Mgt → Mgt) : (s.modMgt f).mem = s.mem := rfl
@[simp] theorem State.modMgt_link (s : State) (f : Mgt → Mgt) : (s.modMgt f).link = s.link := rfl
@[simp] theorem State.modMgt_tap (s : State) (f : Mgt → Mgt) : (s.modMgt f).tap = s.tap := rfl
@[simp] theorem State.modMgt_dma (s : State) (f : Mgt → Mgt) : (s.modMgt f).dma = s.dma := rfl
@[simp] theorem State.modMgt_dsp (s : State) (f : Mgt → Mgt) : (s.modMgt f).dsp = s.dsp := rfl
@[simp] theorem State.modMgt_sens (s : State) (f : Mgt → Mgt) : (s.modMgt f).sens = s.sens := rfl
@[simp] theorem State.modMgt_jtag (s : State) (f : Mgt → Mgt) : (s.modMgt f).jtag = s.jtag := rfl
@[simp] theorem State.modMgt_hbm (s : State) (f : Mgt → Mgt) : (s.modMgt f).hbm = s.hbm := rfl
@[simp] theorem State.modMgt_hostRead (s : State) (f : Mgt → Mgt) : (s.modMgt f).hostRead = s.hostRead := rfl
@[simp] theorem State.modMgt_hostMem (s : State) (f : Mgt → Mgt) : (s.modMgt f).hostMem = s.hostMem := rfl

/-! `modSweep` -/

@[simp] theorem State.modSweep_pending (s : State) (f : Sweep → Sweep) : (s.modSweep f).pending = s.pending := rfl
@[simp] theorem State.modSweep_is9620 (s : State) (f : Sweep → Sweep) : (s.modSweep f).is9620 = s.is9620 := rfl
@[simp] theorem State.modSweep_now (s : State) (f : Sweep → Sweep) : (s.modSweep f).now = s.now := rfl
@[simp] theorem State.modSweep_freeCtr (s : State) (f : Sweep → Sweep) : (s.modSweep f).freeCtr = s.freeCtr := rfl
@[simp] theorem State.modSweep_regs (s : State) (f : Sweep → Sweep) : (s.modSweep f).regs = s.regs := rfl
@[simp] theorem State.modSweep_latches (s : State) (f : Sweep → Sweep) : (s.modSweep f).latches = s.latches := rfl
@[simp] theorem State.modSweep_ks (s : State) (f : Sweep → Sweep) : (s.modSweep f).ks = s.ks := rfl
@[simp] theorem State.modSweep_ref (s : State) (f : Sweep → Sweep) : (s.modSweep f).ref = s.ref := rfl
@[simp] theorem State.modSweep_nod (s : State) (f : Sweep → Sweep) : (s.modSweep f).nod = s.nod := rfl
@[simp] theorem State.modSweep_ptm (s : State) (f : Sweep → Sweep) : (s.modSweep f).ptm = s.ptm := rfl
@[simp] theorem State.modSweep_cores (s : State) (f : Sweep → Sweep) : (s.modSweep f).cores = s.cores := rfl
@[simp] theorem State.modSweep_smem (s : State) (f : Sweep → Sweep) : (s.modSweep f).smem = s.smem := rfl
@[simp] theorem State.modSweep_smemLast (s : State) (f : Sweep → Sweep) : (s.modSweep f).smemLast = s.smemLast := rfl
@[simp] theorem State.modSweep_smemNext (s : State) (f : Sweep → Sweep) : (s.modSweep f).smemNext = s.smemNext := rfl
@[simp] theorem State.modSweep_smemJobs (s : State) (f : Sweep → Sweep) : (s.modSweep f).smemJobs = s.smemJobs := rfl
@[simp] theorem State.modSweep_sems (s : State) (f : Sweep → Sweep) : (s.modSweep f).sems = s.sems := rfl
@[simp] theorem State.modSweep_permits (s : State) (f : Sweep → Sweep) : (s.modSweep f).permits = s.permits := rfl
@[simp] theorem State.modSweep_mode (s : State) (f : Sweep → Sweep) : (s.modSweep f).mode = s.mode := rfl
@[simp] theorem State.modSweep_evt (s : State) (f : Sweep → Sweep) : (s.modSweep f).evt = s.evt := rfl
@[simp] theorem State.modSweep_cairn (s : State) (f : Sweep → Sweep) : (s.modSweep f).cairn = s.cairn := rfl
@[simp] theorem State.modSweep_trigout (s : State) (f : Sweep → Sweep) : (s.modSweep f).trigout = s.trigout := rfl
@[simp] theorem State.modSweep_conv (s : State) (f : Sweep → Sweep) : (s.modSweep f).conv = s.conv := rfl
@[simp] theorem State.modSweep_chans (s : State) (f : Sweep → Sweep) : (s.modSweep f).chans = s.chans := rfl
@[simp] theorem State.modSweep_trig (s : State) (f : Sweep → Sweep) : (s.modSweep f).trig = s.trig := rfl
@[simp] theorem State.modSweep_tmr (s : State) (f : Sweep → Sweep) : (s.modSweep f).tmr = s.tmr := rfl
@[simp] theorem State.modSweep_record (s : State) (f : Sweep → Sweep) : (s.modSweep f).record = s.record := rfl
@[simp] theorem State.modSweep_churn (s : State) (f : Sweep → Sweep) : (s.modSweep f).churn = s.churn := rfl
@[simp] theorem State.modSweep_fg (s : State) (f : Sweep → Sweep) : (s.modSweep f).fg = s.fg := rfl
@[simp] theorem State.modSweep_link (s : State) (f : Sweep → Sweep) : (s.modSweep f).link = s.link := rfl
@[simp] theorem State.modSweep_tap (s : State) (f : Sweep → Sweep) : (s.modSweep f).tap = s.tap := rfl
@[simp] theorem State.modSweep_dma (s : State) (f : Sweep → Sweep) : (s.modSweep f).dma = s.dma := rfl
@[simp] theorem State.modSweep_dsp (s : State) (f : Sweep → Sweep) : (s.modSweep f).dsp = s.dsp := rfl
@[simp] theorem State.modSweep_sens (s : State) (f : Sweep → Sweep) : (s.modSweep f).sens = s.sens := rfl
@[simp] theorem State.modSweep_mgt (s : State) (f : Sweep → Sweep) : (s.modSweep f).mgt = s.mgt := rfl
@[simp] theorem State.modSweep_jtag (s : State) (f : Sweep → Sweep) : (s.modSweep f).jtag = s.jtag := rfl
@[simp] theorem State.modSweep_hbm (s : State) (f : Sweep → Sweep) : (s.modSweep f).hbm = s.hbm := rfl
@[simp] theorem State.modSweep_hostRead (s : State) (f : Sweep → Sweep) : (s.modSweep f).hostRead = s.hostRead := rfl
@[simp] theorem State.modSweep_hostMem (s : State) (f : Sweep → Sweep) : (s.modSweep f).hostMem = s.hostMem := rfl

/-! `modMode` -/

@[simp] theorem State.modMode_pending (s : State) (f : ModeCtl → ModeCtl) : (s.modMode f).pending = s.pending := rfl
@[simp] theorem State.modMode_is9620 (s : State) (f : ModeCtl → ModeCtl) : (s.modMode f).is9620 = s.is9620 := rfl
@[simp] theorem State.modMode_now (s : State) (f : ModeCtl → ModeCtl) : (s.modMode f).now = s.now := rfl
@[simp] theorem State.modMode_freeCtr (s : State) (f : ModeCtl → ModeCtl) : (s.modMode f).freeCtr = s.freeCtr := rfl
@[simp] theorem State.modMode_regs (s : State) (f : ModeCtl → ModeCtl) : (s.modMode f).regs = s.regs := rfl
@[simp] theorem State.modMode_latches (s : State) (f : ModeCtl → ModeCtl) : (s.modMode f).latches = s.latches := rfl
@[simp] theorem State.modMode_ks (s : State) (f : ModeCtl → ModeCtl) : (s.modMode f).ks = s.ks := rfl
@[simp] theorem State.modMode_ref (s : State) (f : ModeCtl → ModeCtl) : (s.modMode f).ref = s.ref := rfl
@[simp] theorem State.modMode_nod (s : State) (f : ModeCtl → ModeCtl) : (s.modMode f).nod = s.nod := rfl
@[simp] theorem State.modMode_ptm (s : State) (f : ModeCtl → ModeCtl) : (s.modMode f).ptm = s.ptm := rfl
@[simp] theorem State.modMode_cores (s : State) (f : ModeCtl → ModeCtl) : (s.modMode f).cores = s.cores := rfl
@[simp] theorem State.modMode_smem (s : State) (f : ModeCtl → ModeCtl) : (s.modMode f).smem = s.smem := rfl
@[simp] theorem State.modMode_smemLast (s : State) (f : ModeCtl → ModeCtl) : (s.modMode f).smemLast = s.smemLast := rfl
@[simp] theorem State.modMode_smemNext (s : State) (f : ModeCtl → ModeCtl) : (s.modMode f).smemNext = s.smemNext := rfl
@[simp] theorem State.modMode_smemJobs (s : State) (f : ModeCtl → ModeCtl) : (s.modMode f).smemJobs = s.smemJobs := rfl
@[simp] theorem State.modMode_sems (s : State) (f : ModeCtl → ModeCtl) : (s.modMode f).sems = s.sems := rfl
@[simp] theorem State.modMode_permits (s : State) (f : ModeCtl → ModeCtl) : (s.modMode f).permits = s.permits := rfl
@[simp] theorem State.modMode_evt (s : State) (f : ModeCtl → ModeCtl) : (s.modMode f).evt = s.evt := rfl
@[simp] theorem State.modMode_cairn (s : State) (f : ModeCtl → ModeCtl) : (s.modMode f).cairn = s.cairn := rfl
@[simp] theorem State.modMode_trigout (s : State) (f : ModeCtl → ModeCtl) : (s.modMode f).trigout = s.trigout := rfl
@[simp] theorem State.modMode_conv (s : State) (f : ModeCtl → ModeCtl) : (s.modMode f).conv = s.conv := rfl
@[simp] theorem State.modMode_chans (s : State) (f : ModeCtl → ModeCtl) : (s.modMode f).chans = s.chans := rfl
@[simp] theorem State.modMode_trig (s : State) (f : ModeCtl → ModeCtl) : (s.modMode f).trig = s.trig := rfl
@[simp] theorem State.modMode_tmr (s : State) (f : ModeCtl → ModeCtl) : (s.modMode f).tmr = s.tmr := rfl
@[simp] theorem State.modMode_record (s : State) (f : ModeCtl → ModeCtl) : (s.modMode f).record = s.record := rfl
@[simp] theorem State.modMode_churn (s : State) (f : ModeCtl → ModeCtl) : (s.modMode f).churn = s.churn := rfl
@[simp] theorem State.modMode_fg (s : State) (f : ModeCtl → ModeCtl) : (s.modMode f).fg = s.fg := rfl
@[simp] theorem State.modMode_mem (s : State) (f : ModeCtl → ModeCtl) : (s.modMode f).mem = s.mem := rfl
@[simp] theorem State.modMode_link (s : State) (f : ModeCtl → ModeCtl) : (s.modMode f).link = s.link := rfl
@[simp] theorem State.modMode_tap (s : State) (f : ModeCtl → ModeCtl) : (s.modMode f).tap = s.tap := rfl
@[simp] theorem State.modMode_dma (s : State) (f : ModeCtl → ModeCtl) : (s.modMode f).dma = s.dma := rfl
@[simp] theorem State.modMode_dsp (s : State) (f : ModeCtl → ModeCtl) : (s.modMode f).dsp = s.dsp := rfl
@[simp] theorem State.modMode_sens (s : State) (f : ModeCtl → ModeCtl) : (s.modMode f).sens = s.sens := rfl
@[simp] theorem State.modMode_mgt (s : State) (f : ModeCtl → ModeCtl) : (s.modMode f).mgt = s.mgt := rfl
@[simp] theorem State.modMode_jtag (s : State) (f : ModeCtl → ModeCtl) : (s.modMode f).jtag = s.jtag := rfl
@[simp] theorem State.modMode_hbm (s : State) (f : ModeCtl → ModeCtl) : (s.modMode f).hbm = s.hbm := rfl
@[simp] theorem State.modMode_hostRead (s : State) (f : ModeCtl → ModeCtl) : (s.modMode f).hostRead = s.hostRead := rfl
@[simp] theorem State.modMode_hostMem (s : State) (f : ModeCtl → ModeCtl) : (s.modMode f).hostMem = s.hostMem := rfl

/-! `modSem` -/

@[simp] theorem State.modSem_pending (s : State) (n : Nat) (f : Sem → Sem) : (s.modSem n f).pending = s.pending := rfl
@[simp] theorem State.modSem_is9620 (s : State) (n : Nat) (f : Sem → Sem) : (s.modSem n f).is9620 = s.is9620 := rfl
@[simp] theorem State.modSem_now (s : State) (n : Nat) (f : Sem → Sem) : (s.modSem n f).now = s.now := rfl
@[simp] theorem State.modSem_freeCtr (s : State) (n : Nat) (f : Sem → Sem) : (s.modSem n f).freeCtr = s.freeCtr := rfl
@[simp] theorem State.modSem_regs (s : State) (n : Nat) (f : Sem → Sem) : (s.modSem n f).regs = s.regs := rfl
@[simp] theorem State.modSem_latches (s : State) (n : Nat) (f : Sem → Sem) : (s.modSem n f).latches = s.latches := rfl
@[simp] theorem State.modSem_ks (s : State) (n : Nat) (f : Sem → Sem) : (s.modSem n f).ks = s.ks := rfl
@[simp] theorem State.modSem_ref (s : State) (n : Nat) (f : Sem → Sem) : (s.modSem n f).ref = s.ref := rfl
@[simp] theorem State.modSem_nod (s : State) (n : Nat) (f : Sem → Sem) : (s.modSem n f).nod = s.nod := rfl
@[simp] theorem State.modSem_ptm (s : State) (n : Nat) (f : Sem → Sem) : (s.modSem n f).ptm = s.ptm := rfl
@[simp] theorem State.modSem_cores (s : State) (n : Nat) (f : Sem → Sem) : (s.modSem n f).cores = s.cores := rfl
@[simp] theorem State.modSem_smem (s : State) (n : Nat) (f : Sem → Sem) : (s.modSem n f).smem = s.smem := rfl
@[simp] theorem State.modSem_smemLast (s : State) (n : Nat) (f : Sem → Sem) : (s.modSem n f).smemLast = s.smemLast := rfl
@[simp] theorem State.modSem_smemNext (s : State) (n : Nat) (f : Sem → Sem) : (s.modSem n f).smemNext = s.smemNext := rfl
@[simp] theorem State.modSem_smemJobs (s : State) (n : Nat) (f : Sem → Sem) : (s.modSem n f).smemJobs = s.smemJobs := rfl
@[simp] theorem State.modSem_permits (s : State) (n : Nat) (f : Sem → Sem) : (s.modSem n f).permits = s.permits := rfl
@[simp] theorem State.modSem_mode (s : State) (n : Nat) (f : Sem → Sem) : (s.modSem n f).mode = s.mode := rfl
@[simp] theorem State.modSem_evt (s : State) (n : Nat) (f : Sem → Sem) : (s.modSem n f).evt = s.evt := rfl
@[simp] theorem State.modSem_cairn (s : State) (n : Nat) (f : Sem → Sem) : (s.modSem n f).cairn = s.cairn := rfl
@[simp] theorem State.modSem_trigout (s : State) (n : Nat) (f : Sem → Sem) : (s.modSem n f).trigout = s.trigout := rfl
@[simp] theorem State.modSem_conv (s : State) (n : Nat) (f : Sem → Sem) : (s.modSem n f).conv = s.conv := rfl
@[simp] theorem State.modSem_chans (s : State) (n : Nat) (f : Sem → Sem) : (s.modSem n f).chans = s.chans := rfl
@[simp] theorem State.modSem_trig (s : State) (n : Nat) (f : Sem → Sem) : (s.modSem n f).trig = s.trig := rfl
@[simp] theorem State.modSem_tmr (s : State) (n : Nat) (f : Sem → Sem) : (s.modSem n f).tmr = s.tmr := rfl
@[simp] theorem State.modSem_record (s : State) (n : Nat) (f : Sem → Sem) : (s.modSem n f).record = s.record := rfl
@[simp] theorem State.modSem_churn (s : State) (n : Nat) (f : Sem → Sem) : (s.modSem n f).churn = s.churn := rfl
@[simp] theorem State.modSem_fg (s : State) (n : Nat) (f : Sem → Sem) : (s.modSem n f).fg = s.fg := rfl
@[simp] theorem State.modSem_mem (s : State) (n : Nat) (f : Sem → Sem) : (s.modSem n f).mem = s.mem := rfl
@[simp] theorem State.modSem_link (s : State) (n : Nat) (f : Sem → Sem) : (s.modSem n f).link = s.link := rfl
@[simp] theorem State.modSem_tap (s : State) (n : Nat) (f : Sem → Sem) : (s.modSem n f).tap = s.tap := rfl
@[simp] theorem State.modSem_dma (s : State) (n : Nat) (f : Sem → Sem) : (s.modSem n f).dma = s.dma := rfl
@[simp] theorem State.modSem_dsp (s : State) (n : Nat) (f : Sem → Sem) : (s.modSem n f).dsp = s.dsp := rfl
@[simp] theorem State.modSem_sens (s : State) (n : Nat) (f : Sem → Sem) : (s.modSem n f).sens = s.sens := rfl
@[simp] theorem State.modSem_mgt (s : State) (n : Nat) (f : Sem → Sem) : (s.modSem n f).mgt = s.mgt := rfl
@[simp] theorem State.modSem_jtag (s : State) (n : Nat) (f : Sem → Sem) : (s.modSem n f).jtag = s.jtag := rfl
@[simp] theorem State.modSem_hbm (s : State) (n : Nat) (f : Sem → Sem) : (s.modSem n f).hbm = s.hbm := rfl
@[simp] theorem State.modSem_hostRead (s : State) (n : Nat) (f : Sem → Sem) : (s.modSem n f).hostRead = s.hostRead := rfl
@[simp] theorem State.modSem_hostMem (s : State) (n : Nat) (f : Sem → Sem) : (s.modSem n f).hostMem = s.hostMem := rfl

/-! `modRing` -/

@[simp] theorem State.modRing_pending (s : State) (n : Nat) (f : Ring → Ring) : (s.modRing n f).pending = s.pending := rfl
@[simp] theorem State.modRing_is9620 (s : State) (n : Nat) (f : Ring → Ring) : (s.modRing n f).is9620 = s.is9620 := rfl
@[simp] theorem State.modRing_now (s : State) (n : Nat) (f : Ring → Ring) : (s.modRing n f).now = s.now := rfl
@[simp] theorem State.modRing_freeCtr (s : State) (n : Nat) (f : Ring → Ring) : (s.modRing n f).freeCtr = s.freeCtr := rfl
@[simp] theorem State.modRing_regs (s : State) (n : Nat) (f : Ring → Ring) : (s.modRing n f).regs = s.regs := rfl
@[simp] theorem State.modRing_latches (s : State) (n : Nat) (f : Ring → Ring) : (s.modRing n f).latches = s.latches := rfl
@[simp] theorem State.modRing_ks (s : State) (n : Nat) (f : Ring → Ring) : (s.modRing n f).ks = s.ks := rfl
@[simp] theorem State.modRing_ref (s : State) (n : Nat) (f : Ring → Ring) : (s.modRing n f).ref = s.ref := rfl
@[simp] theorem State.modRing_nod (s : State) (n : Nat) (f : Ring → Ring) : (s.modRing n f).nod = s.nod := rfl
@[simp] theorem State.modRing_ptm (s : State) (n : Nat) (f : Ring → Ring) : (s.modRing n f).ptm = s.ptm := rfl
@[simp] theorem State.modRing_cores (s : State) (n : Nat) (f : Ring → Ring) : (s.modRing n f).cores = s.cores := rfl
@[simp] theorem State.modRing_smem (s : State) (n : Nat) (f : Ring → Ring) : (s.modRing n f).smem = s.smem := rfl
@[simp] theorem State.modRing_smemLast (s : State) (n : Nat) (f : Ring → Ring) : (s.modRing n f).smemLast = s.smemLast := rfl
@[simp] theorem State.modRing_smemNext (s : State) (n : Nat) (f : Ring → Ring) : (s.modRing n f).smemNext = s.smemNext := rfl
@[simp] theorem State.modRing_smemJobs (s : State) (n : Nat) (f : Ring → Ring) : (s.modRing n f).smemJobs = s.smemJobs := rfl
@[simp] theorem State.modRing_sems (s : State) (n : Nat) (f : Ring → Ring) : (s.modRing n f).sems = s.sems := rfl
@[simp] theorem State.modRing_permits (s : State) (n : Nat) (f : Ring → Ring) : (s.modRing n f).permits = s.permits := rfl
@[simp] theorem State.modRing_mode (s : State) (n : Nat) (f : Ring → Ring) : (s.modRing n f).mode = s.mode := rfl
@[simp] theorem State.modRing_evt (s : State) (n : Nat) (f : Ring → Ring) : (s.modRing n f).evt = s.evt := rfl
@[simp] theorem State.modRing_cairn (s : State) (n : Nat) (f : Ring → Ring) : (s.modRing n f).cairn = s.cairn := rfl
@[simp] theorem State.modRing_trigout (s : State) (n : Nat) (f : Ring → Ring) : (s.modRing n f).trigout = s.trigout := rfl
@[simp] theorem State.modRing_conv (s : State) (n : Nat) (f : Ring → Ring) : (s.modRing n f).conv = s.conv := rfl
@[simp] theorem State.modRing_chans (s : State) (n : Nat) (f : Ring → Ring) : (s.modRing n f).chans = s.chans := rfl
@[simp] theorem State.modRing_trig (s : State) (n : Nat) (f : Ring → Ring) : (s.modRing n f).trig = s.trig := rfl
@[simp] theorem State.modRing_tmr (s : State) (n : Nat) (f : Ring → Ring) : (s.modRing n f).tmr = s.tmr := rfl
@[simp] theorem State.modRing_churn (s : State) (n : Nat) (f : Ring → Ring) : (s.modRing n f).churn = s.churn := rfl
@[simp] theorem State.modRing_fg (s : State) (n : Nat) (f : Ring → Ring) : (s.modRing n f).fg = s.fg := rfl
@[simp] theorem State.modRing_mem (s : State) (n : Nat) (f : Ring → Ring) : (s.modRing n f).mem = s.mem := rfl
@[simp] theorem State.modRing_link (s : State) (n : Nat) (f : Ring → Ring) : (s.modRing n f).link = s.link := rfl
@[simp] theorem State.modRing_tap (s : State) (n : Nat) (f : Ring → Ring) : (s.modRing n f).tap = s.tap := rfl
@[simp] theorem State.modRing_dma (s : State) (n : Nat) (f : Ring → Ring) : (s.modRing n f).dma = s.dma := rfl
@[simp] theorem State.modRing_dsp (s : State) (n : Nat) (f : Ring → Ring) : (s.modRing n f).dsp = s.dsp := rfl
@[simp] theorem State.modRing_sens (s : State) (n : Nat) (f : Ring → Ring) : (s.modRing n f).sens = s.sens := rfl
@[simp] theorem State.modRing_mgt (s : State) (n : Nat) (f : Ring → Ring) : (s.modRing n f).mgt = s.mgt := rfl
@[simp] theorem State.modRing_jtag (s : State) (n : Nat) (f : Ring → Ring) : (s.modRing n f).jtag = s.jtag := rfl
@[simp] theorem State.modRing_hbm (s : State) (n : Nat) (f : Ring → Ring) : (s.modRing n f).hbm = s.hbm := rfl
@[simp] theorem State.modRing_hostRead (s : State) (n : Nat) (f : Ring → Ring) : (s.modRing n f).hostRead = s.hostRead := rfl
@[simp] theorem State.modRing_hostMem (s : State) (n : Nat) (f : Ring → Ring) : (s.modRing n f).hostMem = s.hostMem := rfl

/-! `modDir` -/

@[simp] theorem State.modDir_pending (s : State) (p : Nat) (f : Dir → Dir) : (s.modDir p f).pending = s.pending := rfl
@[simp] theorem State.modDir_is9620 (s : State) (p : Nat) (f : Dir → Dir) : (s.modDir p f).is9620 = s.is9620 := rfl
@[simp] theorem State.modDir_now (s : State) (p : Nat) (f : Dir → Dir) : (s.modDir p f).now = s.now := rfl
@[simp] theorem State.modDir_freeCtr (s : State) (p : Nat) (f : Dir → Dir) : (s.modDir p f).freeCtr = s.freeCtr := rfl
@[simp] theorem State.modDir_regs (s : State) (p : Nat) (f : Dir → Dir) : (s.modDir p f).regs = s.regs := rfl
@[simp] theorem State.modDir_latches (s : State) (p : Nat) (f : Dir → Dir) : (s.modDir p f).latches = s.latches := rfl
@[simp] theorem State.modDir_ks (s : State) (p : Nat) (f : Dir → Dir) : (s.modDir p f).ks = s.ks := rfl
@[simp] theorem State.modDir_ref (s : State) (p : Nat) (f : Dir → Dir) : (s.modDir p f).ref = s.ref := rfl
@[simp] theorem State.modDir_nod (s : State) (p : Nat) (f : Dir → Dir) : (s.modDir p f).nod = s.nod := rfl
@[simp] theorem State.modDir_ptm (s : State) (p : Nat) (f : Dir → Dir) : (s.modDir p f).ptm = s.ptm := rfl
@[simp] theorem State.modDir_cores (s : State) (p : Nat) (f : Dir → Dir) : (s.modDir p f).cores = s.cores := rfl
@[simp] theorem State.modDir_smem (s : State) (p : Nat) (f : Dir → Dir) : (s.modDir p f).smem = s.smem := rfl
@[simp] theorem State.modDir_smemLast (s : State) (p : Nat) (f : Dir → Dir) : (s.modDir p f).smemLast = s.smemLast := rfl
@[simp] theorem State.modDir_smemNext (s : State) (p : Nat) (f : Dir → Dir) : (s.modDir p f).smemNext = s.smemNext := rfl
@[simp] theorem State.modDir_smemJobs (s : State) (p : Nat) (f : Dir → Dir) : (s.modDir p f).smemJobs = s.smemJobs := rfl
@[simp] theorem State.modDir_sems (s : State) (p : Nat) (f : Dir → Dir) : (s.modDir p f).sems = s.sems := rfl
@[simp] theorem State.modDir_permits (s : State) (p : Nat) (f : Dir → Dir) : (s.modDir p f).permits = s.permits := rfl
@[simp] theorem State.modDir_mode (s : State) (p : Nat) (f : Dir → Dir) : (s.modDir p f).mode = s.mode := rfl
@[simp] theorem State.modDir_evt (s : State) (p : Nat) (f : Dir → Dir) : (s.modDir p f).evt = s.evt := rfl
@[simp] theorem State.modDir_cairn (s : State) (p : Nat) (f : Dir → Dir) : (s.modDir p f).cairn = s.cairn := rfl
@[simp] theorem State.modDir_trigout (s : State) (p : Nat) (f : Dir → Dir) : (s.modDir p f).trigout = s.trigout := rfl
@[simp] theorem State.modDir_conv (s : State) (p : Nat) (f : Dir → Dir) : (s.modDir p f).conv = s.conv := rfl
@[simp] theorem State.modDir_chans (s : State) (p : Nat) (f : Dir → Dir) : (s.modDir p f).chans = s.chans := rfl
@[simp] theorem State.modDir_trig (s : State) (p : Nat) (f : Dir → Dir) : (s.modDir p f).trig = s.trig := rfl
@[simp] theorem State.modDir_tmr (s : State) (p : Nat) (f : Dir → Dir) : (s.modDir p f).tmr = s.tmr := rfl
@[simp] theorem State.modDir_churn (s : State) (p : Nat) (f : Dir → Dir) : (s.modDir p f).churn = s.churn := rfl
@[simp] theorem State.modDir_fg (s : State) (p : Nat) (f : Dir → Dir) : (s.modDir p f).fg = s.fg := rfl
@[simp] theorem State.modDir_mem (s : State) (p : Nat) (f : Dir → Dir) : (s.modDir p f).mem = s.mem := rfl
@[simp] theorem State.modDir_link (s : State) (p : Nat) (f : Dir → Dir) : (s.modDir p f).link = s.link := rfl
@[simp] theorem State.modDir_tap (s : State) (p : Nat) (f : Dir → Dir) : (s.modDir p f).tap = s.tap := rfl
@[simp] theorem State.modDir_dma (s : State) (p : Nat) (f : Dir → Dir) : (s.modDir p f).dma = s.dma := rfl
@[simp] theorem State.modDir_dsp (s : State) (p : Nat) (f : Dir → Dir) : (s.modDir p f).dsp = s.dsp := rfl
@[simp] theorem State.modDir_sens (s : State) (p : Nat) (f : Dir → Dir) : (s.modDir p f).sens = s.sens := rfl
@[simp] theorem State.modDir_mgt (s : State) (p : Nat) (f : Dir → Dir) : (s.modDir p f).mgt = s.mgt := rfl
@[simp] theorem State.modDir_jtag (s : State) (p : Nat) (f : Dir → Dir) : (s.modDir p f).jtag = s.jtag := rfl
@[simp] theorem State.modDir_hbm (s : State) (p : Nat) (f : Dir → Dir) : (s.modDir p f).hbm = s.hbm := rfl
@[simp] theorem State.modDir_hostRead (s : State) (p : Nat) (f : Dir → Dir) : (s.modDir p f).hostRead = s.hostRead := rfl
@[simp] theorem State.modDir_hostMem (s : State) (p : Nat) (f : Dir → Dir) : (s.modDir p f).hostMem = s.hostMem := rfl

/-! `modSens` -/

@[simp] theorem State.modSens_pending (s : State) (f : Sens → Sens) : (s.modSens f).pending = s.pending := rfl
@[simp] theorem State.modSens_is9620 (s : State) (f : Sens → Sens) : (s.modSens f).is9620 = s.is9620 := rfl
@[simp] theorem State.modSens_now (s : State) (f : Sens → Sens) : (s.modSens f).now = s.now := rfl
@[simp] theorem State.modSens_freeCtr (s : State) (f : Sens → Sens) : (s.modSens f).freeCtr = s.freeCtr := rfl
@[simp] theorem State.modSens_regs (s : State) (f : Sens → Sens) : (s.modSens f).regs = s.regs := rfl
@[simp] theorem State.modSens_latches (s : State) (f : Sens → Sens) : (s.modSens f).latches = s.latches := rfl
@[simp] theorem State.modSens_ks (s : State) (f : Sens → Sens) : (s.modSens f).ks = s.ks := rfl
@[simp] theorem State.modSens_ref (s : State) (f : Sens → Sens) : (s.modSens f).ref = s.ref := rfl
@[simp] theorem State.modSens_nod (s : State) (f : Sens → Sens) : (s.modSens f).nod = s.nod := rfl
@[simp] theorem State.modSens_ptm (s : State) (f : Sens → Sens) : (s.modSens f).ptm = s.ptm := rfl
@[simp] theorem State.modSens_cores (s : State) (f : Sens → Sens) : (s.modSens f).cores = s.cores := rfl
@[simp] theorem State.modSens_smem (s : State) (f : Sens → Sens) : (s.modSens f).smem = s.smem := rfl
@[simp] theorem State.modSens_smemLast (s : State) (f : Sens → Sens) : (s.modSens f).smemLast = s.smemLast := rfl
@[simp] theorem State.modSens_smemNext (s : State) (f : Sens → Sens) : (s.modSens f).smemNext = s.smemNext := rfl
@[simp] theorem State.modSens_smemJobs (s : State) (f : Sens → Sens) : (s.modSens f).smemJobs = s.smemJobs := rfl
@[simp] theorem State.modSens_sems (s : State) (f : Sens → Sens) : (s.modSens f).sems = s.sems := rfl
@[simp] theorem State.modSens_permits (s : State) (f : Sens → Sens) : (s.modSens f).permits = s.permits := rfl
@[simp] theorem State.modSens_mode (s : State) (f : Sens → Sens) : (s.modSens f).mode = s.mode := rfl
@[simp] theorem State.modSens_evt (s : State) (f : Sens → Sens) : (s.modSens f).evt = s.evt := rfl
@[simp] theorem State.modSens_cairn (s : State) (f : Sens → Sens) : (s.modSens f).cairn = s.cairn := rfl
@[simp] theorem State.modSens_trigout (s : State) (f : Sens → Sens) : (s.modSens f).trigout = s.trigout := rfl
@[simp] theorem State.modSens_conv (s : State) (f : Sens → Sens) : (s.modSens f).conv = s.conv := rfl
@[simp] theorem State.modSens_chans (s : State) (f : Sens → Sens) : (s.modSens f).chans = s.chans := rfl
@[simp] theorem State.modSens_trig (s : State) (f : Sens → Sens) : (s.modSens f).trig = s.trig := rfl
@[simp] theorem State.modSens_tmr (s : State) (f : Sens → Sens) : (s.modSens f).tmr = s.tmr := rfl
@[simp] theorem State.modSens_record (s : State) (f : Sens → Sens) : (s.modSens f).record = s.record := rfl
@[simp] theorem State.modSens_churn (s : State) (f : Sens → Sens) : (s.modSens f).churn = s.churn := rfl
@[simp] theorem State.modSens_fg (s : State) (f : Sens → Sens) : (s.modSens f).fg = s.fg := rfl
@[simp] theorem State.modSens_mem (s : State) (f : Sens → Sens) : (s.modSens f).mem = s.mem := rfl
@[simp] theorem State.modSens_link (s : State) (f : Sens → Sens) : (s.modSens f).link = s.link := rfl
@[simp] theorem State.modSens_tap (s : State) (f : Sens → Sens) : (s.modSens f).tap = s.tap := rfl
@[simp] theorem State.modSens_dma (s : State) (f : Sens → Sens) : (s.modSens f).dma = s.dma := rfl
@[simp] theorem State.modSens_dsp (s : State) (f : Sens → Sens) : (s.modSens f).dsp = s.dsp := rfl
@[simp] theorem State.modSens_mgt (s : State) (f : Sens → Sens) : (s.modSens f).mgt = s.mgt := rfl
@[simp] theorem State.modSens_jtag (s : State) (f : Sens → Sens) : (s.modSens f).jtag = s.jtag := rfl
@[simp] theorem State.modSens_hbm (s : State) (f : Sens → Sens) : (s.modSens f).hbm = s.hbm := rfl
@[simp] theorem State.modSens_hostRead (s : State) (f : Sens → Sens) : (s.modSens f).hostRead = s.hostRead := rfl
@[simp] theorem State.modSens_hostMem (s : State) (f : Sens → Sens) : (s.modSens f).hostMem = s.hostMem := rfl

/-! `setTap` -/

@[simp] theorem State.setTap_pending (s : State) (t : Nat) (x : Tap) : (s.setTap t x).pending = s.pending := rfl
@[simp] theorem State.setTap_is9620 (s : State) (t : Nat) (x : Tap) : (s.setTap t x).is9620 = s.is9620 := rfl
@[simp] theorem State.setTap_now (s : State) (t : Nat) (x : Tap) : (s.setTap t x).now = s.now := rfl
@[simp] theorem State.setTap_freeCtr (s : State) (t : Nat) (x : Tap) : (s.setTap t x).freeCtr = s.freeCtr := rfl
@[simp] theorem State.setTap_regs (s : State) (t : Nat) (x : Tap) : (s.setTap t x).regs = s.regs := rfl
@[simp] theorem State.setTap_latches (s : State) (t : Nat) (x : Tap) : (s.setTap t x).latches = s.latches := rfl
@[simp] theorem State.setTap_ks (s : State) (t : Nat) (x : Tap) : (s.setTap t x).ks = s.ks := rfl
@[simp] theorem State.setTap_ref (s : State) (t : Nat) (x : Tap) : (s.setTap t x).ref = s.ref := rfl
@[simp] theorem State.setTap_nod (s : State) (t : Nat) (x : Tap) : (s.setTap t x).nod = s.nod := rfl
@[simp] theorem State.setTap_ptm (s : State) (t : Nat) (x : Tap) : (s.setTap t x).ptm = s.ptm := rfl
@[simp] theorem State.setTap_cores (s : State) (t : Nat) (x : Tap) : (s.setTap t x).cores = s.cores := rfl
@[simp] theorem State.setTap_smem (s : State) (t : Nat) (x : Tap) : (s.setTap t x).smem = s.smem := rfl
@[simp] theorem State.setTap_smemLast (s : State) (t : Nat) (x : Tap) : (s.setTap t x).smemLast = s.smemLast := rfl
@[simp] theorem State.setTap_smemNext (s : State) (t : Nat) (x : Tap) : (s.setTap t x).smemNext = s.smemNext := rfl
@[simp] theorem State.setTap_smemJobs (s : State) (t : Nat) (x : Tap) : (s.setTap t x).smemJobs = s.smemJobs := rfl
@[simp] theorem State.setTap_sems (s : State) (t : Nat) (x : Tap) : (s.setTap t x).sems = s.sems := rfl
@[simp] theorem State.setTap_permits (s : State) (t : Nat) (x : Tap) : (s.setTap t x).permits = s.permits := rfl
@[simp] theorem State.setTap_mode (s : State) (t : Nat) (x : Tap) : (s.setTap t x).mode = s.mode := rfl
@[simp] theorem State.setTap_evt (s : State) (t : Nat) (x : Tap) : (s.setTap t x).evt = s.evt := rfl
@[simp] theorem State.setTap_cairn (s : State) (t : Nat) (x : Tap) : (s.setTap t x).cairn = s.cairn := rfl
@[simp] theorem State.setTap_trigout (s : State) (t : Nat) (x : Tap) : (s.setTap t x).trigout = s.trigout := rfl
@[simp] theorem State.setTap_conv (s : State) (t : Nat) (x : Tap) : (s.setTap t x).conv = s.conv := rfl
@[simp] theorem State.setTap_chans (s : State) (t : Nat) (x : Tap) : (s.setTap t x).chans = s.chans := rfl
@[simp] theorem State.setTap_trig (s : State) (t : Nat) (x : Tap) : (s.setTap t x).trig = s.trig := rfl
@[simp] theorem State.setTap_tmr (s : State) (t : Nat) (x : Tap) : (s.setTap t x).tmr = s.tmr := rfl
@[simp] theorem State.setTap_record (s : State) (t : Nat) (x : Tap) : (s.setTap t x).record = s.record := rfl
@[simp] theorem State.setTap_churn (s : State) (t : Nat) (x : Tap) : (s.setTap t x).churn = s.churn := rfl
@[simp] theorem State.setTap_fg (s : State) (t : Nat) (x : Tap) : (s.setTap t x).fg = s.fg := rfl
@[simp] theorem State.setTap_mem (s : State) (t : Nat) (x : Tap) : (s.setTap t x).mem = s.mem := rfl
@[simp] theorem State.setTap_link (s : State) (t : Nat) (x : Tap) : (s.setTap t x).link = s.link := rfl
@[simp] theorem State.setTap_dma (s : State) (t : Nat) (x : Tap) : (s.setTap t x).dma = s.dma := rfl
@[simp] theorem State.setTap_dsp (s : State) (t : Nat) (x : Tap) : (s.setTap t x).dsp = s.dsp := rfl
@[simp] theorem State.setTap_sens (s : State) (t : Nat) (x : Tap) : (s.setTap t x).sens = s.sens := rfl
@[simp] theorem State.setTap_mgt (s : State) (t : Nat) (x : Tap) : (s.setTap t x).mgt = s.mgt := rfl
@[simp] theorem State.setTap_jtag (s : State) (t : Nat) (x : Tap) : (s.setTap t x).jtag = s.jtag := rfl
@[simp] theorem State.setTap_hbm (s : State) (t : Nat) (x : Tap) : (s.setTap t x).hbm = s.hbm := rfl
@[simp] theorem State.setTap_hostRead (s : State) (t : Nat) (x : Tap) : (s.setTap t x).hostRead = s.hostRead := rfl
@[simp] theorem State.setTap_hostMem (s : State) (t : Nat) (x : Tap) : (s.setTap t x).hostMem = s.hostMem := rfl

/-! `modTap` -/

@[simp] theorem State.modTap_pending (s : State) (t : Nat) (f : Tap → Tap) : (s.modTap t f).pending = s.pending := rfl
@[simp] theorem State.modTap_is9620 (s : State) (t : Nat) (f : Tap → Tap) : (s.modTap t f).is9620 = s.is9620 := rfl
@[simp] theorem State.modTap_now (s : State) (t : Nat) (f : Tap → Tap) : (s.modTap t f).now = s.now := rfl
@[simp] theorem State.modTap_freeCtr (s : State) (t : Nat) (f : Tap → Tap) : (s.modTap t f).freeCtr = s.freeCtr := rfl
@[simp] theorem State.modTap_regs (s : State) (t : Nat) (f : Tap → Tap) : (s.modTap t f).regs = s.regs := rfl
@[simp] theorem State.modTap_latches (s : State) (t : Nat) (f : Tap → Tap) : (s.modTap t f).latches = s.latches := rfl
@[simp] theorem State.modTap_ks (s : State) (t : Nat) (f : Tap → Tap) : (s.modTap t f).ks = s.ks := rfl
@[simp] theorem State.modTap_ref (s : State) (t : Nat) (f : Tap → Tap) : (s.modTap t f).ref = s.ref := rfl
@[simp] theorem State.modTap_nod (s : State) (t : Nat) (f : Tap → Tap) : (s.modTap t f).nod = s.nod := rfl
@[simp] theorem State.modTap_ptm (s : State) (t : Nat) (f : Tap → Tap) : (s.modTap t f).ptm = s.ptm := rfl
@[simp] theorem State.modTap_cores (s : State) (t : Nat) (f : Tap → Tap) : (s.modTap t f).cores = s.cores := rfl
@[simp] theorem State.modTap_smem (s : State) (t : Nat) (f : Tap → Tap) : (s.modTap t f).smem = s.smem := rfl
@[simp] theorem State.modTap_smemLast (s : State) (t : Nat) (f : Tap → Tap) : (s.modTap t f).smemLast = s.smemLast := rfl
@[simp] theorem State.modTap_smemNext (s : State) (t : Nat) (f : Tap → Tap) : (s.modTap t f).smemNext = s.smemNext := rfl
@[simp] theorem State.modTap_smemJobs (s : State) (t : Nat) (f : Tap → Tap) : (s.modTap t f).smemJobs = s.smemJobs := rfl
@[simp] theorem State.modTap_sems (s : State) (t : Nat) (f : Tap → Tap) : (s.modTap t f).sems = s.sems := rfl
@[simp] theorem State.modTap_permits (s : State) (t : Nat) (f : Tap → Tap) : (s.modTap t f).permits = s.permits := rfl
@[simp] theorem State.modTap_mode (s : State) (t : Nat) (f : Tap → Tap) : (s.modTap t f).mode = s.mode := rfl
@[simp] theorem State.modTap_evt (s : State) (t : Nat) (f : Tap → Tap) : (s.modTap t f).evt = s.evt := rfl
@[simp] theorem State.modTap_cairn (s : State) (t : Nat) (f : Tap → Tap) : (s.modTap t f).cairn = s.cairn := rfl
@[simp] theorem State.modTap_trigout (s : State) (t : Nat) (f : Tap → Tap) : (s.modTap t f).trigout = s.trigout := rfl
@[simp] theorem State.modTap_conv (s : State) (t : Nat) (f : Tap → Tap) : (s.modTap t f).conv = s.conv := rfl
@[simp] theorem State.modTap_chans (s : State) (t : Nat) (f : Tap → Tap) : (s.modTap t f).chans = s.chans := rfl
@[simp] theorem State.modTap_trig (s : State) (t : Nat) (f : Tap → Tap) : (s.modTap t f).trig = s.trig := rfl
@[simp] theorem State.modTap_tmr (s : State) (t : Nat) (f : Tap → Tap) : (s.modTap t f).tmr = s.tmr := rfl
@[simp] theorem State.modTap_record (s : State) (t : Nat) (f : Tap → Tap) : (s.modTap t f).record = s.record := rfl
@[simp] theorem State.modTap_churn (s : State) (t : Nat) (f : Tap → Tap) : (s.modTap t f).churn = s.churn := rfl
@[simp] theorem State.modTap_fg (s : State) (t : Nat) (f : Tap → Tap) : (s.modTap t f).fg = s.fg := rfl
@[simp] theorem State.modTap_mem (s : State) (t : Nat) (f : Tap → Tap) : (s.modTap t f).mem = s.mem := rfl
@[simp] theorem State.modTap_link (s : State) (t : Nat) (f : Tap → Tap) : (s.modTap t f).link = s.link := rfl
@[simp] theorem State.modTap_dma (s : State) (t : Nat) (f : Tap → Tap) : (s.modTap t f).dma = s.dma := rfl
@[simp] theorem State.modTap_dsp (s : State) (t : Nat) (f : Tap → Tap) : (s.modTap t f).dsp = s.dsp := rfl
@[simp] theorem State.modTap_sens (s : State) (t : Nat) (f : Tap → Tap) : (s.modTap t f).sens = s.sens := rfl
@[simp] theorem State.modTap_mgt (s : State) (t : Nat) (f : Tap → Tap) : (s.modTap t f).mgt = s.mgt := rfl
@[simp] theorem State.modTap_jtag (s : State) (t : Nat) (f : Tap → Tap) : (s.modTap t f).jtag = s.jtag := rfl
@[simp] theorem State.modTap_hbm (s : State) (t : Nat) (f : Tap → Tap) : (s.modTap t f).hbm = s.hbm := rfl
@[simp] theorem State.modTap_hostRead (s : State) (t : Nat) (f : Tap → Tap) : (s.modTap t f).hostRead = s.hostRead := rfl
@[simp] theorem State.modTap_hostMem (s : State) (t : Nat) (f : Tap → Tap) : (s.modTap t f).hostMem = s.hostMem := rfl

/-! `modUnit` -/

@[simp] theorem State.modUnit_pending (s : State) (k : Nat) (f : TUnit → TUnit) : (s.modUnit k f).pending = s.pending := rfl
@[simp] theorem State.modUnit_is9620 (s : State) (k : Nat) (f : TUnit → TUnit) : (s.modUnit k f).is9620 = s.is9620 := rfl
@[simp] theorem State.modUnit_now (s : State) (k : Nat) (f : TUnit → TUnit) : (s.modUnit k f).now = s.now := rfl
@[simp] theorem State.modUnit_freeCtr (s : State) (k : Nat) (f : TUnit → TUnit) : (s.modUnit k f).freeCtr = s.freeCtr := rfl
@[simp] theorem State.modUnit_regs (s : State) (k : Nat) (f : TUnit → TUnit) : (s.modUnit k f).regs = s.regs := rfl
@[simp] theorem State.modUnit_latches (s : State) (k : Nat) (f : TUnit → TUnit) : (s.modUnit k f).latches = s.latches := rfl
@[simp] theorem State.modUnit_ks (s : State) (k : Nat) (f : TUnit → TUnit) : (s.modUnit k f).ks = s.ks := rfl
@[simp] theorem State.modUnit_ref (s : State) (k : Nat) (f : TUnit → TUnit) : (s.modUnit k f).ref = s.ref := rfl
@[simp] theorem State.modUnit_nod (s : State) (k : Nat) (f : TUnit → TUnit) : (s.modUnit k f).nod = s.nod := rfl
@[simp] theorem State.modUnit_ptm (s : State) (k : Nat) (f : TUnit → TUnit) : (s.modUnit k f).ptm = s.ptm := rfl
@[simp] theorem State.modUnit_cores (s : State) (k : Nat) (f : TUnit → TUnit) : (s.modUnit k f).cores = s.cores := rfl
@[simp] theorem State.modUnit_smem (s : State) (k : Nat) (f : TUnit → TUnit) : (s.modUnit k f).smem = s.smem := rfl
@[simp] theorem State.modUnit_smemLast (s : State) (k : Nat) (f : TUnit → TUnit) : (s.modUnit k f).smemLast = s.smemLast := rfl
@[simp] theorem State.modUnit_smemNext (s : State) (k : Nat) (f : TUnit → TUnit) : (s.modUnit k f).smemNext = s.smemNext := rfl
@[simp] theorem State.modUnit_smemJobs (s : State) (k : Nat) (f : TUnit → TUnit) : (s.modUnit k f).smemJobs = s.smemJobs := rfl
@[simp] theorem State.modUnit_sems (s : State) (k : Nat) (f : TUnit → TUnit) : (s.modUnit k f).sems = s.sems := rfl
@[simp] theorem State.modUnit_permits (s : State) (k : Nat) (f : TUnit → TUnit) : (s.modUnit k f).permits = s.permits := rfl
@[simp] theorem State.modUnit_mode (s : State) (k : Nat) (f : TUnit → TUnit) : (s.modUnit k f).mode = s.mode := rfl
@[simp] theorem State.modUnit_evt (s : State) (k : Nat) (f : TUnit → TUnit) : (s.modUnit k f).evt = s.evt := rfl
@[simp] theorem State.modUnit_cairn (s : State) (k : Nat) (f : TUnit → TUnit) : (s.modUnit k f).cairn = s.cairn := rfl
@[simp] theorem State.modUnit_trigout (s : State) (k : Nat) (f : TUnit → TUnit) : (s.modUnit k f).trigout = s.trigout := rfl
@[simp] theorem State.modUnit_conv (s : State) (k : Nat) (f : TUnit → TUnit) : (s.modUnit k f).conv = s.conv := rfl
@[simp] theorem State.modUnit_chans (s : State) (k : Nat) (f : TUnit → TUnit) : (s.modUnit k f).chans = s.chans := rfl
@[simp] theorem State.modUnit_trig (s : State) (k : Nat) (f : TUnit → TUnit) : (s.modUnit k f).trig = s.trig := rfl
@[simp] theorem State.modUnit_record (s : State) (k : Nat) (f : TUnit → TUnit) : (s.modUnit k f).record = s.record := rfl
@[simp] theorem State.modUnit_churn (s : State) (k : Nat) (f : TUnit → TUnit) : (s.modUnit k f).churn = s.churn := rfl
@[simp] theorem State.modUnit_fg (s : State) (k : Nat) (f : TUnit → TUnit) : (s.modUnit k f).fg = s.fg := rfl
@[simp] theorem State.modUnit_mem (s : State) (k : Nat) (f : TUnit → TUnit) : (s.modUnit k f).mem = s.mem := rfl
@[simp] theorem State.modUnit_link (s : State) (k : Nat) (f : TUnit → TUnit) : (s.modUnit k f).link = s.link := rfl
@[simp] theorem State.modUnit_tap (s : State) (k : Nat) (f : TUnit → TUnit) : (s.modUnit k f).tap = s.tap := rfl
@[simp] theorem State.modUnit_dma (s : State) (k : Nat) (f : TUnit → TUnit) : (s.modUnit k f).dma = s.dma := rfl
@[simp] theorem State.modUnit_dsp (s : State) (k : Nat) (f : TUnit → TUnit) : (s.modUnit k f).dsp = s.dsp := rfl
@[simp] theorem State.modUnit_sens (s : State) (k : Nat) (f : TUnit → TUnit) : (s.modUnit k f).sens = s.sens := rfl
@[simp] theorem State.modUnit_mgt (s : State) (k : Nat) (f : TUnit → TUnit) : (s.modUnit k f).mgt = s.mgt := rfl
@[simp] theorem State.modUnit_jtag (s : State) (k : Nat) (f : TUnit → TUnit) : (s.modUnit k f).jtag = s.jtag := rfl
@[simp] theorem State.modUnit_hbm (s : State) (k : Nat) (f : TUnit → TUnit) : (s.modUnit k f).hbm = s.hbm := rfl
@[simp] theorem State.modUnit_hostRead (s : State) (k : Nat) (f : TUnit → TUnit) : (s.modUnit k f).hostRead = s.hostRead := rfl
@[simp] theorem State.modUnit_hostMem (s : State) (k : Nat) (f : TUnit → TUnit) : (s.modUnit k f).hostMem = s.hostMem := rfl

/-! `modTmrCal` -/

@[simp] theorem State.modTmrCal_pending (s : State) (f : TmrCal → TmrCal) : (s.modTmrCal f).pending = s.pending := rfl
@[simp] theorem State.modTmrCal_is9620 (s : State) (f : TmrCal → TmrCal) : (s.modTmrCal f).is9620 = s.is9620 := rfl
@[simp] theorem State.modTmrCal_now (s : State) (f : TmrCal → TmrCal) : (s.modTmrCal f).now = s.now := rfl
@[simp] theorem State.modTmrCal_freeCtr (s : State) (f : TmrCal → TmrCal) : (s.modTmrCal f).freeCtr = s.freeCtr := rfl
@[simp] theorem State.modTmrCal_regs (s : State) (f : TmrCal → TmrCal) : (s.modTmrCal f).regs = s.regs := rfl
@[simp] theorem State.modTmrCal_latches (s : State) (f : TmrCal → TmrCal) : (s.modTmrCal f).latches = s.latches := rfl
@[simp] theorem State.modTmrCal_ks (s : State) (f : TmrCal → TmrCal) : (s.modTmrCal f).ks = s.ks := rfl
@[simp] theorem State.modTmrCal_ref (s : State) (f : TmrCal → TmrCal) : (s.modTmrCal f).ref = s.ref := rfl
@[simp] theorem State.modTmrCal_nod (s : State) (f : TmrCal → TmrCal) : (s.modTmrCal f).nod = s.nod := rfl
@[simp] theorem State.modTmrCal_ptm (s : State) (f : TmrCal → TmrCal) : (s.modTmrCal f).ptm = s.ptm := rfl
@[simp] theorem State.modTmrCal_cores (s : State) (f : TmrCal → TmrCal) : (s.modTmrCal f).cores = s.cores := rfl
@[simp] theorem State.modTmrCal_smem (s : State) (f : TmrCal → TmrCal) : (s.modTmrCal f).smem = s.smem := rfl
@[simp] theorem State.modTmrCal_smemLast (s : State) (f : TmrCal → TmrCal) : (s.modTmrCal f).smemLast = s.smemLast := rfl
@[simp] theorem State.modTmrCal_smemNext (s : State) (f : TmrCal → TmrCal) : (s.modTmrCal f).smemNext = s.smemNext := rfl
@[simp] theorem State.modTmrCal_smemJobs (s : State) (f : TmrCal → TmrCal) : (s.modTmrCal f).smemJobs = s.smemJobs := rfl
@[simp] theorem State.modTmrCal_sems (s : State) (f : TmrCal → TmrCal) : (s.modTmrCal f).sems = s.sems := rfl
@[simp] theorem State.modTmrCal_permits (s : State) (f : TmrCal → TmrCal) : (s.modTmrCal f).permits = s.permits := rfl
@[simp] theorem State.modTmrCal_mode (s : State) (f : TmrCal → TmrCal) : (s.modTmrCal f).mode = s.mode := rfl
@[simp] theorem State.modTmrCal_evt (s : State) (f : TmrCal → TmrCal) : (s.modTmrCal f).evt = s.evt := rfl
@[simp] theorem State.modTmrCal_cairn (s : State) (f : TmrCal → TmrCal) : (s.modTmrCal f).cairn = s.cairn := rfl
@[simp] theorem State.modTmrCal_trigout (s : State) (f : TmrCal → TmrCal) : (s.modTmrCal f).trigout = s.trigout := rfl
@[simp] theorem State.modTmrCal_conv (s : State) (f : TmrCal → TmrCal) : (s.modTmrCal f).conv = s.conv := rfl
@[simp] theorem State.modTmrCal_chans (s : State) (f : TmrCal → TmrCal) : (s.modTmrCal f).chans = s.chans := rfl
@[simp] theorem State.modTmrCal_trig (s : State) (f : TmrCal → TmrCal) : (s.modTmrCal f).trig = s.trig := rfl
@[simp] theorem State.modTmrCal_record (s : State) (f : TmrCal → TmrCal) : (s.modTmrCal f).record = s.record := rfl
@[simp] theorem State.modTmrCal_churn (s : State) (f : TmrCal → TmrCal) : (s.modTmrCal f).churn = s.churn := rfl
@[simp] theorem State.modTmrCal_fg (s : State) (f : TmrCal → TmrCal) : (s.modTmrCal f).fg = s.fg := rfl
@[simp] theorem State.modTmrCal_mem (s : State) (f : TmrCal → TmrCal) : (s.modTmrCal f).mem = s.mem := rfl
@[simp] theorem State.modTmrCal_link (s : State) (f : TmrCal → TmrCal) : (s.modTmrCal f).link = s.link := rfl
@[simp] theorem State.modTmrCal_tap (s : State) (f : TmrCal → TmrCal) : (s.modTmrCal f).tap = s.tap := rfl
@[simp] theorem State.modTmrCal_dma (s : State) (f : TmrCal → TmrCal) : (s.modTmrCal f).dma = s.dma := rfl
@[simp] theorem State.modTmrCal_dsp (s : State) (f : TmrCal → TmrCal) : (s.modTmrCal f).dsp = s.dsp := rfl
@[simp] theorem State.modTmrCal_sens (s : State) (f : TmrCal → TmrCal) : (s.modTmrCal f).sens = s.sens := rfl
@[simp] theorem State.modTmrCal_mgt (s : State) (f : TmrCal → TmrCal) : (s.modTmrCal f).mgt = s.mgt := rfl
@[simp] theorem State.modTmrCal_jtag (s : State) (f : TmrCal → TmrCal) : (s.modTmrCal f).jtag = s.jtag := rfl
@[simp] theorem State.modTmrCal_hbm (s : State) (f : TmrCal → TmrCal) : (s.modTmrCal f).hbm = s.hbm := rfl
@[simp] theorem State.modTmrCal_hostRead (s : State) (f : TmrCal → TmrCal) : (s.modTmrCal f).hostRead = s.hostRead := rfl
@[simp] theorem State.modTmrCal_hostMem (s : State) (f : TmrCal → TmrCal) : (s.modTmrCal f).hostMem = s.hostMem := rfl

/-! `modCell` -/

@[simp] theorem State.modCell_pending (s : State) (c : Nat) (f : TCell → TCell) : (s.modCell c f).pending = s.pending := rfl
@[simp] theorem State.modCell_is9620 (s : State) (c : Nat) (f : TCell → TCell) : (s.modCell c f).is9620 = s.is9620 := rfl
@[simp] theorem State.modCell_now (s : State) (c : Nat) (f : TCell → TCell) : (s.modCell c f).now = s.now := rfl
@[simp] theorem State.modCell_freeCtr (s : State) (c : Nat) (f : TCell → TCell) : (s.modCell c f).freeCtr = s.freeCtr := rfl
@[simp] theorem State.modCell_regs (s : State) (c : Nat) (f : TCell → TCell) : (s.modCell c f).regs = s.regs := rfl
@[simp] theorem State.modCell_latches (s : State) (c : Nat) (f : TCell → TCell) : (s.modCell c f).latches = s.latches := rfl
@[simp] theorem State.modCell_ks (s : State) (c : Nat) (f : TCell → TCell) : (s.modCell c f).ks = s.ks := rfl
@[simp] theorem State.modCell_ref (s : State) (c : Nat) (f : TCell → TCell) : (s.modCell c f).ref = s.ref := rfl
@[simp] theorem State.modCell_nod (s : State) (c : Nat) (f : TCell → TCell) : (s.modCell c f).nod = s.nod := rfl
@[simp] theorem State.modCell_ptm (s : State) (c : Nat) (f : TCell → TCell) : (s.modCell c f).ptm = s.ptm := rfl
@[simp] theorem State.modCell_cores (s : State) (c : Nat) (f : TCell → TCell) : (s.modCell c f).cores = s.cores := rfl
@[simp] theorem State.modCell_smem (s : State) (c : Nat) (f : TCell → TCell) : (s.modCell c f).smem = s.smem := rfl
@[simp] theorem State.modCell_smemLast (s : State) (c : Nat) (f : TCell → TCell) : (s.modCell c f).smemLast = s.smemLast := rfl
@[simp] theorem State.modCell_smemNext (s : State) (c : Nat) (f : TCell → TCell) : (s.modCell c f).smemNext = s.smemNext := rfl
@[simp] theorem State.modCell_smemJobs (s : State) (c : Nat) (f : TCell → TCell) : (s.modCell c f).smemJobs = s.smemJobs := rfl
@[simp] theorem State.modCell_sems (s : State) (c : Nat) (f : TCell → TCell) : (s.modCell c f).sems = s.sems := rfl
@[simp] theorem State.modCell_permits (s : State) (c : Nat) (f : TCell → TCell) : (s.modCell c f).permits = s.permits := rfl
@[simp] theorem State.modCell_mode (s : State) (c : Nat) (f : TCell → TCell) : (s.modCell c f).mode = s.mode := rfl
@[simp] theorem State.modCell_evt (s : State) (c : Nat) (f : TCell → TCell) : (s.modCell c f).evt = s.evt := rfl
@[simp] theorem State.modCell_cairn (s : State) (c : Nat) (f : TCell → TCell) : (s.modCell c f).cairn = s.cairn := rfl
@[simp] theorem State.modCell_trigout (s : State) (c : Nat) (f : TCell → TCell) : (s.modCell c f).trigout = s.trigout := rfl
@[simp] theorem State.modCell_conv (s : State) (c : Nat) (f : TCell → TCell) : (s.modCell c f).conv = s.conv := rfl
@[simp] theorem State.modCell_chans (s : State) (c : Nat) (f : TCell → TCell) : (s.modCell c f).chans = s.chans := rfl
@[simp] theorem State.modCell_tmr (s : State) (c : Nat) (f : TCell → TCell) : (s.modCell c f).tmr = s.tmr := rfl
@[simp] theorem State.modCell_record (s : State) (c : Nat) (f : TCell → TCell) : (s.modCell c f).record = s.record := rfl
@[simp] theorem State.modCell_churn (s : State) (c : Nat) (f : TCell → TCell) : (s.modCell c f).churn = s.churn := rfl
@[simp] theorem State.modCell_fg (s : State) (c : Nat) (f : TCell → TCell) : (s.modCell c f).fg = s.fg := rfl
@[simp] theorem State.modCell_mem (s : State) (c : Nat) (f : TCell → TCell) : (s.modCell c f).mem = s.mem := rfl
@[simp] theorem State.modCell_link (s : State) (c : Nat) (f : TCell → TCell) : (s.modCell c f).link = s.link := rfl
@[simp] theorem State.modCell_tap (s : State) (c : Nat) (f : TCell → TCell) : (s.modCell c f).tap = s.tap := rfl
@[simp] theorem State.modCell_dma (s : State) (c : Nat) (f : TCell → TCell) : (s.modCell c f).dma = s.dma := rfl
@[simp] theorem State.modCell_dsp (s : State) (c : Nat) (f : TCell → TCell) : (s.modCell c f).dsp = s.dsp := rfl
@[simp] theorem State.modCell_sens (s : State) (c : Nat) (f : TCell → TCell) : (s.modCell c f).sens = s.sens := rfl
@[simp] theorem State.modCell_mgt (s : State) (c : Nat) (f : TCell → TCell) : (s.modCell c f).mgt = s.mgt := rfl
@[simp] theorem State.modCell_jtag (s : State) (c : Nat) (f : TCell → TCell) : (s.modCell c f).jtag = s.jtag := rfl
@[simp] theorem State.modCell_hbm (s : State) (c : Nat) (f : TCell → TCell) : (s.modCell c f).hbm = s.hbm := rfl
@[simp] theorem State.modCell_hostRead (s : State) (c : Nat) (f : TCell → TCell) : (s.modCell c f).hostRead = s.hostRead := rfl
@[simp] theorem State.modCell_hostMem (s : State) (c : Nat) (f : TCell → TCell) : (s.modCell c f).hostMem = s.hostMem := rfl

/-! `modProg` -/

@[simp] theorem State.modProg_pending (s : State) (p : Nat) (f : TProg → TProg) : (s.modProg p f).pending = s.pending := rfl
@[simp] theorem State.modProg_is9620 (s : State) (p : Nat) (f : TProg → TProg) : (s.modProg p f).is9620 = s.is9620 := rfl
@[simp] theorem State.modProg_now (s : State) (p : Nat) (f : TProg → TProg) : (s.modProg p f).now = s.now := rfl
@[simp] theorem State.modProg_freeCtr (s : State) (p : Nat) (f : TProg → TProg) : (s.modProg p f).freeCtr = s.freeCtr := rfl
@[simp] theorem State.modProg_regs (s : State) (p : Nat) (f : TProg → TProg) : (s.modProg p f).regs = s.regs := rfl
@[simp] theorem State.modProg_latches (s : State) (p : Nat) (f : TProg → TProg) : (s.modProg p f).latches = s.latches := rfl
@[simp] theorem State.modProg_ks (s : State) (p : Nat) (f : TProg → TProg) : (s.modProg p f).ks = s.ks := rfl
@[simp] theorem State.modProg_ref (s : State) (p : Nat) (f : TProg → TProg) : (s.modProg p f).ref = s.ref := rfl
@[simp] theorem State.modProg_nod (s : State) (p : Nat) (f : TProg → TProg) : (s.modProg p f).nod = s.nod := rfl
@[simp] theorem State.modProg_ptm (s : State) (p : Nat) (f : TProg → TProg) : (s.modProg p f).ptm = s.ptm := rfl
@[simp] theorem State.modProg_cores (s : State) (p : Nat) (f : TProg → TProg) : (s.modProg p f).cores = s.cores := rfl
@[simp] theorem State.modProg_smem (s : State) (p : Nat) (f : TProg → TProg) : (s.modProg p f).smem = s.smem := rfl
@[simp] theorem State.modProg_smemLast (s : State) (p : Nat) (f : TProg → TProg) : (s.modProg p f).smemLast = s.smemLast := rfl
@[simp] theorem State.modProg_smemNext (s : State) (p : Nat) (f : TProg → TProg) : (s.modProg p f).smemNext = s.smemNext := rfl
@[simp] theorem State.modProg_smemJobs (s : State) (p : Nat) (f : TProg → TProg) : (s.modProg p f).smemJobs = s.smemJobs := rfl
@[simp] theorem State.modProg_sems (s : State) (p : Nat) (f : TProg → TProg) : (s.modProg p f).sems = s.sems := rfl
@[simp] theorem State.modProg_permits (s : State) (p : Nat) (f : TProg → TProg) : (s.modProg p f).permits = s.permits := rfl
@[simp] theorem State.modProg_mode (s : State) (p : Nat) (f : TProg → TProg) : (s.modProg p f).mode = s.mode := rfl
@[simp] theorem State.modProg_evt (s : State) (p : Nat) (f : TProg → TProg) : (s.modProg p f).evt = s.evt := rfl
@[simp] theorem State.modProg_cairn (s : State) (p : Nat) (f : TProg → TProg) : (s.modProg p f).cairn = s.cairn := rfl
@[simp] theorem State.modProg_trigout (s : State) (p : Nat) (f : TProg → TProg) : (s.modProg p f).trigout = s.trigout := rfl
@[simp] theorem State.modProg_conv (s : State) (p : Nat) (f : TProg → TProg) : (s.modProg p f).conv = s.conv := rfl
@[simp] theorem State.modProg_chans (s : State) (p : Nat) (f : TProg → TProg) : (s.modProg p f).chans = s.chans := rfl
@[simp] theorem State.modProg_tmr (s : State) (p : Nat) (f : TProg → TProg) : (s.modProg p f).tmr = s.tmr := rfl
@[simp] theorem State.modProg_record (s : State) (p : Nat) (f : TProg → TProg) : (s.modProg p f).record = s.record := rfl
@[simp] theorem State.modProg_churn (s : State) (p : Nat) (f : TProg → TProg) : (s.modProg p f).churn = s.churn := rfl
@[simp] theorem State.modProg_fg (s : State) (p : Nat) (f : TProg → TProg) : (s.modProg p f).fg = s.fg := rfl
@[simp] theorem State.modProg_mem (s : State) (p : Nat) (f : TProg → TProg) : (s.modProg p f).mem = s.mem := rfl
@[simp] theorem State.modProg_link (s : State) (p : Nat) (f : TProg → TProg) : (s.modProg p f).link = s.link := rfl
@[simp] theorem State.modProg_tap (s : State) (p : Nat) (f : TProg → TProg) : (s.modProg p f).tap = s.tap := rfl
@[simp] theorem State.modProg_dma (s : State) (p : Nat) (f : TProg → TProg) : (s.modProg p f).dma = s.dma := rfl
@[simp] theorem State.modProg_dsp (s : State) (p : Nat) (f : TProg → TProg) : (s.modProg p f).dsp = s.dsp := rfl
@[simp] theorem State.modProg_sens (s : State) (p : Nat) (f : TProg → TProg) : (s.modProg p f).sens = s.sens := rfl
@[simp] theorem State.modProg_mgt (s : State) (p : Nat) (f : TProg → TProg) : (s.modProg p f).mgt = s.mgt := rfl
@[simp] theorem State.modProg_jtag (s : State) (p : Nat) (f : TProg → TProg) : (s.modProg p f).jtag = s.jtag := rfl
@[simp] theorem State.modProg_hbm (s : State) (p : Nat) (f : TProg → TProg) : (s.modProg p f).hbm = s.hbm := rfl
@[simp] theorem State.modProg_hostRead (s : State) (p : Nat) (f : TProg → TProg) : (s.modProg p f).hostRead = s.hostRead := rfl
@[simp] theorem State.modProg_hostMem (s : State) (p : Nat) (f : TProg → TProg) : (s.modProg p f).hostMem = s.hostMem := rfl

/-! ### The updates of a core -/

@[simp] theorem Core.wr_fz (c : Core) (k : Nat) (v : W32) : (c.wr k v).fz = c.fz := by unfold Core.wr; split <;> rfl
@[simp] theorem Core.wr_fn (c : Core) (k : Nat) (v : W32) : (c.wr k v).fn = c.fn := by unfold Core.wr; split <;> rfl
@[simp] theorem Core.wr_fc (c : Core) (k : Nat) (v : W32) : (c.wr k v).fc = c.fc := by unfold Core.wr; split <;> rfl
@[simp] theorem Core.wr_fv (c : Core) (k : Nat) (v : W32) : (c.wr k v).fv = c.fv := by unfold Core.wr; split <;> rfl
@[simp] theorem Core.wr_pc (c : Core) (k : Nat) (v : W32) : (c.wr k v).pc = c.pc := by unfold Core.wr; split <;> rfl
@[simp] theorem Core.wr_stack (c : Core) (k : Nat) (v : W32) : (c.wr k v).stack = c.stack := by unfold Core.wr; split <;> rfl
@[simp] theorem Core.wr_run (c : Core) (k : Nat) (v : W32) : (c.wr k v).run = c.run := by unfold Core.wr; split <;> rfl
@[simp] theorem Core.wr_waiting (c : Core) (k : Nat) (v : W32) : (c.wr k v).waiting = c.waiting := by unfold Core.wr; split <;> rfl
@[simp] theorem Core.wr_met (c : Core) (k : Nat) (v : W32) : (c.wr k v).met = c.met := by unfold Core.wr; split <;> rfl
@[simp] theorem Core.wr_stepping (c : Core) (k : Nat) (v : W32) : (c.wr k v).stepping = c.stepping := by unfold Core.wr; split <;> rfl
@[simp] theorem Core.wr_edge (c : Core) (k : Nat) (v : W32) : (c.wr k v).edge = c.edge := by unfold Core.wr; split <;> rfl
@[simp] theorem Core.wr_openGrp (c : Core) (k : Nat) (v : W32) : (c.wr k v).openGrp = c.openGrp := by unfold Core.wr; split <;> rfl
@[simp] theorem Core.wr_groups (c : Core) (k : Nat) (v : W32) : (c.wr k v).groups = c.groups := by unfold Core.wr; split <;> rfl
@[simp] theorem Core.wr_xferEnd (c : Core) (k : Nat) (v : W32) : (c.wr k v).xferEnd = c.xferEnd := by unfold Core.wr; split <;> rfl
@[simp] theorem Core.wr_ticket (c : Core) (k : Nat) (v : W32) : (c.wr k v).ticket = c.ticket := by unfold Core.wr; split <;> rfl
@[simp] theorem Core.wr_done (c : Core) (k : Nat) (v : W32) : (c.wr k v).done = c.done := by unfold Core.wr; split <;> rfl
@[simp] theorem Core.wr_drds (c : Core) (k : Nat) (v : W32) : (c.wr k v).drds = c.drds := by unfold Core.wr; split <;> rfl
@[simp] theorem Core.wr_cause (c : Core) (k : Nat) (v : W32) : (c.wr k v).cause = c.cause := by unfold Core.wr; split <;> rfl
@[simp] theorem Core.wr_info (c : Core) (k : Nat) (v : W32) : (c.wr k v).info = c.info := by unfold Core.wr; split <;> rfl
@[simp] theorem Core.wr_drdTimeout (c : Core) (k : Nat) (v : W32) : (c.wr k v).drdTimeout = c.drdTimeout := by unfold Core.wr; split <;> rfl
@[simp] theorem Core.wr_hostWrErr (c : Core) (k : Nat) (v : W32) : (c.wr k v).hostWrErr = c.hostWrErr := by unfold Core.wr; split <;> rfl
@[simp] theorem Core.wr_waitTrap (c : Core) (k : Nat) (v : W32) : (c.wr k v).waitTrap = c.waitTrap := by unfold Core.wr; split <;> rfl
@[simp] theorem Core.wr_startPc (c : Core) (k : Nat) (v : W32) : (c.wr k v).startPc = c.startPc := by unfold Core.wr; split <;> rfl
@[simp] theorem Core.wr_h2c (c : Core) (k : Nat) (v : W32) : (c.wr k v).h2c = c.h2c := by unfold Core.wr; split <;> rfl
@[simp] theorem Core.wr_h2cCount (c : Core) (k : Nat) (v : W32) : (c.wr k v).h2cCount = c.h2cCount := by unfold Core.wr; split <;> rfl
@[simp] theorem Core.wr_h2cFull (c : Core) (k : Nat) (v : W32) : (c.wr k v).h2cFull = c.h2cFull := by unfold Core.wr; split <;> rfl
@[simp] theorem Core.wr_h2cErr (c : Core) (k : Nat) (v : W32) : (c.wr k v).h2cErr = c.h2cErr := by unfold Core.wr; split <;> rfl
@[simp] theorem Core.wr_c2h (c : Core) (k : Nat) (v : W32) : (c.wr k v).c2h = c.c2h := by unfold Core.wr; split <;> rfl
@[simp] theorem Core.wr_c2hCount (c : Core) (k : Nat) (v : W32) : (c.wr k v).c2hCount = c.c2hCount := by unfold Core.wr; split <;> rfl
@[simp] theorem Core.wr_c2hFull (c : Core) (k : Nat) (v : W32) : (c.wr k v).c2hFull = c.c2hFull := by unfold Core.wr; split <;> rfl
@[simp] theorem Core.wr_imem (c : Core) (k : Nat) (v : W32) : (c.wr k v).imem = c.imem := by unfold Core.wr; split <;> rfl
@[simp] theorem Core.wr_dmem (c : Core) (k : Nat) (v : W32) : (c.wr k v).dmem = c.dmem := by unfold Core.wr; split <;> rfl

@[simp] theorem Core.goOn_g (c : Core) (t : Nat) (pc : W32) : (c.goOn t pc).g = c.g := by unfold Core.goOn Core.toHalt; dsimp only; split <;> rfl
@[simp] theorem Core.goOn_fz (c : Core) (t : Nat) (pc : W32) : (c.goOn t pc).fz = c.fz := by unfold Core.goOn Core.toHalt; dsimp only; split <;> rfl
@[simp] theorem Core.goOn_fn (c : Core) (t : Nat) (pc : W32) : (c.goOn t pc).fn = c.fn := by unfold Core.goOn Core.toHalt; dsimp only; split <;> rfl
@[simp] theorem Core.goOn_fc (c : Core) (t : Nat) (pc : W32) : (c.goOn t pc).fc = c.fc := by unfold Core.goOn Core.toHalt; dsimp only; split <;> rfl
@[simp] theorem Core.goOn_fv (c : Core) (t : Nat) (pc : W32) : (c.goOn t pc).fv = c.fv := by unfold Core.goOn Core.toHalt; dsimp only; split <;> rfl
@[simp] theorem Core.goOn_stack (c : Core) (t : Nat) (pc : W32) : (c.goOn t pc).stack = c.stack := by unfold Core.goOn Core.toHalt; dsimp only; split <;> rfl
@[simp] theorem Core.goOn_openGrp (c : Core) (t : Nat) (pc : W32) : (c.goOn t pc).openGrp = c.openGrp := by unfold Core.goOn Core.toHalt; dsimp only; split <;> rfl
@[simp] theorem Core.goOn_groups (c : Core) (t : Nat) (pc : W32) : (c.goOn t pc).groups = c.groups := by unfold Core.goOn Core.toHalt; dsimp only; split <;> rfl
@[simp] theorem Core.goOn_xferEnd (c : Core) (t : Nat) (pc : W32) : (c.goOn t pc).xferEnd = c.xferEnd := by unfold Core.goOn Core.toHalt; dsimp only; split <;> rfl
@[simp] theorem Core.goOn_ticket (c : Core) (t : Nat) (pc : W32) : (c.goOn t pc).ticket = c.ticket := by unfold Core.goOn Core.toHalt; dsimp only; split <;> rfl
@[simp] theorem Core.goOn_done (c : Core) (t : Nat) (pc : W32) : (c.goOn t pc).done = c.done := by unfold Core.goOn Core.toHalt; dsimp only; split <;> rfl
@[simp] theorem Core.goOn_drds (c : Core) (t : Nat) (pc : W32) : (c.goOn t pc).drds = c.drds := by unfold Core.goOn Core.toHalt; dsimp only; split <;> rfl
@[simp] theorem Core.goOn_cause (c : Core) (t : Nat) (pc : W32) : (c.goOn t pc).cause = c.cause := by unfold Core.goOn Core.toHalt; dsimp only; split <;> rfl
@[simp] theorem Core.goOn_info (c : Core) (t : Nat) (pc : W32) : (c.goOn t pc).info = c.info := by unfold Core.goOn Core.toHalt; dsimp only; split <;> rfl
@[simp] theorem Core.goOn_drdTimeout (c : Core) (t : Nat) (pc : W32) : (c.goOn t pc).drdTimeout = c.drdTimeout := by unfold Core.goOn Core.toHalt; dsimp only; split <;> rfl
@[simp] theorem Core.goOn_hostWrErr (c : Core) (t : Nat) (pc : W32) : (c.goOn t pc).hostWrErr = c.hostWrErr := by unfold Core.goOn Core.toHalt; dsimp only; split <;> rfl
@[simp] theorem Core.goOn_waitTrap (c : Core) (t : Nat) (pc : W32) : (c.goOn t pc).waitTrap = c.waitTrap := by unfold Core.goOn Core.toHalt; dsimp only; split <;> rfl
@[simp] theorem Core.goOn_startPc (c : Core) (t : Nat) (pc : W32) : (c.goOn t pc).startPc = c.startPc := by unfold Core.goOn Core.toHalt; dsimp only; split <;> rfl
@[simp] theorem Core.goOn_h2c (c : Core) (t : Nat) (pc : W32) : (c.goOn t pc).h2c = c.h2c := by unfold Core.goOn Core.toHalt; dsimp only; split <;> rfl
@[simp] theorem Core.goOn_h2cCount (c : Core) (t : Nat) (pc : W32) : (c.goOn t pc).h2cCount = c.h2cCount := by unfold Core.goOn Core.toHalt; dsimp only; split <;> rfl
@[simp] theorem Core.goOn_h2cFull (c : Core) (t : Nat) (pc : W32) : (c.goOn t pc).h2cFull = c.h2cFull := by unfold Core.goOn Core.toHalt; dsimp only; split <;> rfl
@[simp] theorem Core.goOn_h2cErr (c : Core) (t : Nat) (pc : W32) : (c.goOn t pc).h2cErr = c.h2cErr := by unfold Core.goOn Core.toHalt; dsimp only; split <;> rfl
@[simp] theorem Core.goOn_c2h (c : Core) (t : Nat) (pc : W32) : (c.goOn t pc).c2h = c.c2h := by unfold Core.goOn Core.toHalt; dsimp only; split <;> rfl
@[simp] theorem Core.goOn_c2hCount (c : Core) (t : Nat) (pc : W32) : (c.goOn t pc).c2hCount = c.c2hCount := by unfold Core.goOn Core.toHalt; dsimp only; split <;> rfl
@[simp] theorem Core.goOn_c2hFull (c : Core) (t : Nat) (pc : W32) : (c.goOn t pc).c2hFull = c.c2hFull := by unfold Core.goOn Core.toHalt; dsimp only; split <;> rfl
@[simp] theorem Core.goOn_imem (c : Core) (t : Nat) (pc : W32) : (c.goOn t pc).imem = c.imem := by unfold Core.goOn Core.toHalt; dsimp only; split <;> rfl
@[simp] theorem Core.goOn_dmem (c : Core) (t : Nat) (pc : W32) : (c.goOn t pc).dmem = c.dmem := by unfold Core.goOn Core.toHalt; dsimp only; split <;> rfl

end Sys2Proof.Machine
end

