-- ==== Sys2Proof/Laws/Ops.lean ====
section
/-! SUPPORT. What the shared operations do: stored registers read back, time moves forward only, an occurrence writes its status, its
count and the queue's overflow and no other register, and cores are read back. -/

namespace Sys2Proof.Machine

/-! ### Registers -/

/-- A stored register reads what was written to it, unless its block is absent. -/
theorem State.reg_setReg_self (s : State) (a : Nat) (v : W32) (h : (s.is9620 && absent9620 a) = false) : (s.setReg a v).reg a = v := by
  unfold State.reg State.setReg
  simp only [h, Bool.false_eq_true, if_false]
  exact Assoc.get_put_self (resetVal a) s.regs a v

/-- A write leaves every other register. -/
theorem State.reg_setReg_ne (s : State) {a b : Nat} (v : W32) (h : b ≠ a) : (s.setReg a v).reg b = s.reg b := by
  unfold State.reg State.setReg
  simp only [Assoc.get_put_default, if_neg h]

/-- A write to a register that reads as it did is its own value. -/
theorem State.reg_setReg (s : State) (a b : Nat) (v : W32) :
    (s.setReg a v).reg b = if b = a then (if s.is9620 && absent9620 a then 0 else v) else s.reg b := by
  by_cases h : b = a
  · subst h
    cases hx : (s.is9620 && absent9620 b)
    · simp [State.reg_setReg_self s b v hx]
    · simp [State.reg, State.setReg, hx]
  · rw [if_neg h, State.reg_setReg_ne s v h]

/-- Registers are read from the table and the part alone. -/
theorem State.reg_congr (s t : State) (a : Nat) (hr : t.regs = s.regs) (hp : t.is9620 = s.is9620) : t.reg a = s.reg a := by
  simp [State.reg, hr, hp]

@[simp] theorem State.advance_reg (s : State) (t a : Nat) : (s.advance t).reg a = s.reg a :=
  State.reg_congr _ _ a (by simp) (by simp)

@[simp] theorem State.setCore_reg (s : State) (q : Fin 16) (c : Core) (a : Nat) : (s.setCore q c).reg a = s.reg a :=
  State.reg_congr _ _ a rfl rfl

theorem State.reg_bump_ne (s : State) {a b : Nat} (h : b ≠ a) : (s.bump a).reg b = s.reg b := State.reg_setReg_ne s _ h

theorem State.reg_bump_self (s : State) (a : Nat) (h : (s.is9620 && absent9620 a) = false) : (s.bump a).reg a = satInc (s.reg a) 1 :=
  State.reg_setReg_self s a _ h

/-! ### Time -/

theorem State.now_le_advance (s : State) (t : Nat) : s.now ≤ (s.advance t).now := by
  unfold State.advance
  split
  · exact Nat.le_refl _
  · exact Nat.le_max_left _ _

theorem State.advance_now (s : State) (t : Nat) (h : s.ks.held = false) : (s.advance t).now = max s.now t := by
  simp [State.advance, h]

/-! ### Cores -/

@[simp] theorem State.core_setCore (s : State) (q : Fin 16) (c : Core) : (s.setCore q c).core q = c := by
  simp [State.core, State.setCore]

theorem State.core_setCore_ne (s : State) {p q : Fin 16} (c : Core) (h : p ≠ q) : (s.setCore q c).core p = s.core p := by
  simp only [State.core, State.setCore]
  exact Vector.getElem_set_ne q.isLt p.isLt (fun e => h (Fin.ext e.symm))

@[simp] theorem State.core_advance (s : State) (t : Nat) (q : Fin 16) : (s.advance t).core q = s.core q := by
  simp [State.core]

@[simp] theorem State.core_setReg (s : State) (a : Nat) (v : W32) (q : Fin 16) : (s.setReg a v).core q = s.core q := rfl

@[simp] theorem State.setCore_setCore (s : State) (q : Fin 16) (c d : Core) : (s.setCore q c).setCore q d = s.setCore q d := by
  simp [State.setCore]

/-- A register of a core after a write to it: g0 reads 0, and discards the write (02 R39). -/
theorem Core.rd_wr (c : Core) (d k : Nat) (v : W32) (hk : k < 32) : (c.wr d v).rd k = if k = 0 then 0 else if k = d then v else c.rd k := by
  unfold Core.wr Core.rd
  by_cases h0 : k = 0
  · simp [h0]
  · by_cases hd : d = 0
    · have : k ≠ d := by omega
      simp [h0, hd]
    · simp only [h0, hd, if_false]
      by_cases e : k = d
      · subst e
        simp [vget, vmod, hk]
      · simp only [e, if_false, vget, vmod]
        split
        · simp [List.getD_eq_getElem?_getD, Ne.symm e]
        · rfl

@[simp] theorem Core.wr_zero (c : Core) (v : W32) : c.wr 0 v = c := rfl

/-! ### An occurrence (22 R537, R538) -/

@[simp] theorem State.freshen_regs (s : State) (b a : Nat) (m : W32) : (s.freshen b a m).regs = s.regs := rfl
@[simp] theorem State.freshen_is9620 (s : State) (b a : Nat) (m : W32) : (s.freshen b a m).is9620 = s.is9620 := rfl
@[simp] theorem State.freshen_cores (s : State) (b a : Nat) (m : W32) : (s.freshen b a m).cores = s.cores := rfl

/-- Setting bits of a register changes no other register. -/
theorem State.reg_setBits_ne (s : State) (b : Nat) {a c : Nat} (m : W32) (h : c ≠ a) : (s.setBits b a m).reg c = s.reg c := by
  rw [State.reg_congr (s.setReg a (s.reg a ||| m)) (s.setBits b a m) c rfl rfl, State.reg_setReg_ne _ _ h]

theorem State.evtRequest_reg (s : State) (v b a : Nat) (h1 : a ≠ R.evtQueueOvf) (h2 : a ≠ R.evtOvfVec (v / 32)) :
    (s.evtRequest v b).reg a = s.reg a := by
  unfold State.evtRequest
  split
  · rfl
  · split
    · exact State.reg_congr _ _ a rfl rfl
    · rw [State.reg_setBits_ne _ _ _ h1, State.reg_setReg_ne _ _ h2]

theorem fld_lt (w : W32) (lo len : Nat) : fld w lo len < 2 ^ len := Nat.mod_lt _ (Nat.two_pow_pos len)

theorem State.evtMsix_reg (s : State) (src b a : Nat) (h1 : a ≠ R.evtQueueOvf) (h2 : ∀ i < 64, a ≠ R.evtOvfVec i) :
    (s.evtMsix src b).reg a = s.reg a := by
  have key : ∀ (u : State) (w : W32), u.regs = s.regs → u.is9620 = s.is9620 → (u.evtRequest (fld w 0 11) b).reg a = s.reg a := by
    intro u w hr hp
    have hv : fld w 0 11 < 2 ^ 11 := fld_lt w 0 11
    rw [State.evtRequest_reg u _ b a h1 (h2 _ (by omega))]
    exact State.reg_congr _ _ a hr hp
  simp only [State.evtMsix]
  split
  · exact State.reg_congr _ _ a rfl rfl
  · split <;> split
    · exact key _ _ rfl rfl
    · exact State.reg_congr _ _ a rfl rfl
    · exact key _ _ rfl rfl
    · exact State.reg_congr _ _ a rfl rfl

/-- An occurrence leaves every register but those that `raiseWrites` names. -/
theorem State.raiseAt_reg (s : State) (b src : Nat) (path : W64) (a : Nat) (h : raiseWrites src a = false) :
    (s.raiseAt b src path).reg a = s.reg a := by
  simp only [raiseWrites, Bool.or_eq_false_iff, beq_eq_false_iff_ne, List.any_eq_false, List.mem_range, beq_iff_eq] at h
  obtain ⟨⟨⟨h1, h2⟩, h3⟩, h4⟩ := h
  unfold State.raiseAt
  split
  · rfl
  · split
    · rfl
    · let s1 : State := (s.setBits b (R.evtStatus (src / 32)) (BitVec.ofNat 32 (2 ^ (src % 32)))).bump
        (R.evtCount src)
      let s2 : State := { s1 with evt := { s1.evt with last := Assoc.put 0 s1.evt.last src (b + 1) } }
      have h5 : ∀ u : State, u.regs = (s2.evtMsix src b).regs → u.is9620 = (s2.evtMsix src b).is9620 → u.reg a = s.reg a := by
        intro u hr hp
        rw [State.reg_congr _ u a hr hp, State.evtMsix_reg s2 src b a h3 h4, State.reg_congr s1 s2 a rfl rfl,
          State.reg_bump_ne _ h2, State.reg_setBits_ne _ _ _ h1]
      exact h5 _ (by simp [s2, s1]) (by simp [s2, s1])

/-- An occurrence changes of a core only what it waits for and its event groups. -/
theorem State.raiseAt_core (s : State) (b src : Nat) (path : W64) (q : Fin 16) :
    ∃ w gs, (s.raiseAt b src path).core q = { s.core q with waiting := w, groups := gs } := by
  unfold State.raiseAt
  split
  · exact ⟨_, _, rfl⟩
  · split
    · exact ⟨_, _, rfl⟩
    · simp only [State.core, Vector.getElem_mapFinIdx, Core.seeEvent, State.evtCairn_cores, State.evtTrigout_cores, State.evtMsix_cores]
      exact ⟨_, _, rfl⟩

/-! ### A turn of the SMEM arbiter (02 R42): what it changes, that the core whose access begins is as it was, and the bound of its wait -/

theorem State.smemTurn_frame (s : State) (req e lo hi n : Nat) (store : Bool) :
    (s.smemTurn req e lo hi n store).2 = { s with
      smemLast := (s.smemTurn req e lo hi n store).2.smemLast
      smemNext := (s.smemTurn req e lo hi n store).2.smemNext
      smemJobs := (s.smemTurn req e lo hi n store).2.smemJobs
      cores := (s.smemTurn req e lo hi n store).2.cores } := rfl

theorem State.smemTurn_core (s : State) (req e lo hi n : Nat) (store : Bool) (p : Fin 16) :
    (s.smemTurn req e lo hi n store).2.core p = { s.core p with edge := ((s.smemTurn req e lo hi n store).2.core p).edge } := by
  simp only [State.smemTurn, State.smemCharge, State.smemJoin, State.smemTo, State.core]
  simp only [Vector.getElem_mapFinIdx]
  split <;> rfl

theorem State.smemTurn_own (s : State) (q : Fin 16) (e lo hi n : Nat) (store : Bool) :
    (s.smemTurn q e lo hi n store).2.core q = s.core q := by
  simp only [State.smemTurn, State.smemCharge, State.smemJoin, State.smemTo, State.core]
  simp only [Vector.getElem_mapFinIdx, ite_true]

theorem State.smemTurn_wait (s : State) (req e lo hi n : Nat) (store : Bool) : (s.smemTurn req e lo hi n store).1 ≤ 16 * n := by
  simp only [State.smemTurn, State.smemCharge, State.smemJoin, List.getLast?_eq_getElem?, List.getElem?_mapIdx, List.length_mapIdx, List.length_append,
    List.length_singleton, Nat.add_sub_cancel, List.getElem?_concat_length, Option.map_some, Option.elim_some]
  exact Nat.min_le_left _ _
end Sys2Proof.Machine
end

