-- ==== Sys2Proof/Laws/Bytes.lean ====
section
/-! SUPPORT. Laws of words and bytes: a number read back from its bytes, words from theirs, a field after it is set, a 64-bit register
after it is written, and the flash after it is programmed. -/

namespace Sys2Proof.Machine

/-- A number is read back from its bytes. -/
theorem ofBytes_leBytes (n v : Nat) : ofBytes (leBytes n v) = v % 256 ^ n := by
  induction n generalizing v with
  | zero => simp [leBytes, ofBytes, Nat.mod_one]
  | succ n ih =>
    simp only [leBytes, ofBytes, ih]
    rw [show (BitVec.ofNat 8 v).toNat = v % 256 from BitVec.toNat_ofNat v 8, Nat.pow_succ, Nat.mul_comm (256 ^ n) 256, Nat.mod_mul]

/-- A word is read back from its bytes. -/
theorem ofBytes_word (w : W32) : BitVec.ofNat 32 (ofBytes (leBytes 4 w.toNat)) = w := by
  rw [ofBytes_leBytes, Nat.mod_eq_of_lt (by have := w.isLt; omega), BitVec.ofNat_toNat, BitVec.setWidth_eq]

/-- Words are read back from their bytes. -/
theorem wordsOf_leBytes (ws : List W32) : wordsOf (ws.flatMap (fun w => leBytes 4 w.toNat)) = ws := by
  induction ws with
  | nil => rfl
  | cons w r ih =>
    have h := ofBytes_word w
    simp only [leBytes, List.flatMap_cons, List.cons_append, List.nil_append] at h ih ⊢
    rw [wordsOf, ih, h]

/-- An entry above every listed key reads as unlisted. -/
theorem Assoc.get_above {α : Type} (d : α) (m : List (Nat × α)) (a : Nat) (h : ∀ e ∈ m, e.1 < a) : Assoc.get d m a = d := by
  induction m with
  | nil => rfl
  | cons e r ih =>
    have he := h e (by simp)
    obtain ⟨k, w⟩ := e
    rw [Assoc.get, if_neg (by simp only at he; omega), ih (fun e he => h e (List.mem_cons_of_mem _ he))]

/-! ### Fields and 64-bit registers -/

/-- A bit of a field. -/
theorem fld_testBit (w : W32) (lo len i : Nat) : (fld w lo len).testBit i = (decide (i < len) && w.getLsbD (lo + i)) := by
  simp [fld, Nat.testBit_mod_two_pow, Nat.testBit_div_two_pow, Nat.add_comm, BitVec.getLsbD]

/-- A bit of a word after a field of it is set: of the field's value inside the field, of the word outside. -/
theorem setFld_getLsbD (w : W32) (lo len v i : Nat) (h : lo + len ≤ 32) :
    (setFld w lo len v).getLsbD i = if lo ≤ i ∧ i < lo + len then v.testBit (i - lo) else w.getLsbD i := by
  have e : (setFld w lo len v).getLsbD i = ((w.getLsbD i && (decide (i < 32) && !(decide (lo ≤ i) && decide (i - lo < len)))) ||
      (decide (i < 32) && (decide (lo ≤ i) && (decide (i - lo < len) && v.testBit (i - lo))))) := by
    simp only [setFld, BitVec.getLsbD_or, BitVec.getLsbD_and, BitVec.getLsbD_not, BitVec.getLsbD_ofNat, Nat.testBit_mul_two_pow,
      Nat.testBit_mod_two_pow, Nat.testBit_two_pow_sub_one]
    by_cases hi : i < 32 <;> simp [hi]
  rw [e]
  by_cases h1 : lo ≤ i ∧ i < lo + len
  · rw [if_pos h1]
    simp [h1.1, show i - lo < len by omega, show i < 32 by omega]
  · rw [if_neg h1]
    by_cases hi : i < 32
    · by_cases h2 : lo ≤ i
      · simp [hi, h2, show ¬ i - lo < len by omega]
      · simp [hi, h2]
    · simp [hi, BitVec.getLsbD_of_ge w i (by omega)]

/-- A field reads what it was set to. -/
theorem fld_setFld_self (w : W32) (lo len v : Nat) (h : lo + len ≤ 32) : fld (setFld w lo len v) lo len = v % 2 ^ len := by
  apply Nat.eq_of_testBit_eq
  intro i
  rw [fld_testBit, setFld_getLsbD _ _ _ _ _ h, Nat.testBit_mod_two_pow]
  by_cases hi : i < len
  · rw [if_pos (by omega), Nat.add_sub_cancel_left]
  · simp [hi]

/-- A field that another one does not touch reads as before when that one is set. -/
theorem fld_setFld_apart (w : W32) (lo len v a n : Nat) (h : lo + len ≤ 32) (hd : a + n ≤ lo ∨ lo + len ≤ a) :
    fld (setFld w lo len v) a n = fld w a n := by
  apply Nat.eq_of_testBit_eq
  intro i
  rw [fld_testBit, fld_testBit, setFld_getLsbD _ _ _ _ _ h]
  by_cases hi : i < n
  · rw [if_neg (by omega)]
  · simp [hi]

/-- A 64-bit number is read back from its two words. -/
theorem join_loW_hiW (v : Nat) (h : v < 2 ^ 64) : join (loW v) (hiW v) = v := by
  simp only [join, loW, hiW, BitVec.toNat_ofNat]
  omega

/-- A 64-bit register reads what was written to it. -/
theorem State.reg64_setReg64_self (s : State) (a v : Nat) (h : v < 2 ^ 64) (h1 : (s.is9620 && absent9620 a) = false)
    (h2 : (s.is9620 && absent9620 (a + 4)) = false) : (s.setReg64 a v).reg64 a = v := by
  unfold State.reg64 State.setReg64
  rw [State.reg_setReg_ne _ _ (by omega), State.reg_setReg_self _ _ _ h1, State.reg_setReg_self (s.setReg a (loW v)) _ _ h2, join_loW_hiW v h]

/-- A register that is no half of it reads as before when a 64-bit register is written. -/
theorem State.reg_setReg64_ne (s : State) (a v b : Nat) (h1 : b ≠ a) (h2 : b ≠ a + 4) : (s.setReg64 a v).reg b = s.reg b := by
  unfold State.setReg64
  rw [State.reg_setReg_ne _ _ h2, State.reg_setReg_ne _ _ h1]

/-! ### The flash -/

/-- A byte of the flash after bytes are programmed: the byte programmed at its address, or what it was. -/
theorem get_flashPut (fl : List Host.Cell) (a x : Nat) (bs : List Byte) :
    Assoc.get 0xFF (flashPut fl a bs) x = if a ≤ x ∧ x < a + bs.length then bs.getD (x - a) 0 else Assoc.get 0xFF fl x := by
  induction bs generalizing fl a with
  | nil => rw [if_neg (by simp only [List.length_nil]; omega), flashPut]
  | cons b r ih =>
    simp only [flashPut, ih, Assoc.get_put, List.length_cons]
    by_cases h : x = a
    · subst h
      rw [if_neg (by omega), if_pos rfl, if_pos (by omega), Nat.sub_self, List.getD_cons_zero]
    · by_cases h' : a + 1 ≤ x ∧ x < a + 1 + r.length
      · rw [if_pos h', if_pos (by omega), show x - a = x - (a + 1) + 1 by omega, List.getD_cons_succ]
      · rw [if_neg h', if_neg h, if_neg (by omega)]

/-- Bytes programmed are read back. -/
theorem flashBytes_put (m : Mgt) (a : Nat) (bs : List Byte) : ({ m with flash := flashPut m.flash a bs } : Mgt).flashBytes a bs.length = bs := by
  apply List.ext_getElem
  · simp [Mgt.flashBytes]
  · intro i h1 h2
    simp only [Mgt.flashBytes, Mgt.flashByte, List.getElem_map, List.getElem_range, get_flashPut]
    rw [if_pos (by omega), Nat.add_sub_cancel_left, ← List.getElem_eq_getD (h := h2)]

/-- Words programmed are read back. -/
theorem flashWords_put (s : State) (a : Nat) (ws : List W32) : (s.flashWords a ws).mgt.flashWords a ws.length = ws := by
  have h : 4 * ws.length = (ws.flatMap (fun w => leBytes 4 w.toNat)).length := by
    induction ws with
    | nil => rfl
    | cons w r ih => simp only [List.flatMap_cons, List.length_append, List.length_cons, leBytes_length, ← ih]; omega
  simp only [State.flashWords, State.modMgt, Mgt.flashWords]
  rw [h, flashBytes_put, wordsOf_leBytes]

/-- Flash above all that is listed is erased. -/
theorem flashBytes_above (m : Mgt) (a n : Nat) (h : ∀ e ∈ m.flash, e.1 < a) : m.flashBytes a n = List.replicate n 0xFF := by
  apply List.ext_getElem
  · simp [Mgt.flashBytes]
  · intro i h1 h2
    simp only [Mgt.flashBytes, Mgt.flashByte, List.getElem_map, List.getElem_range, List.getElem_replicate]
    exact Assoc.get_above _ _ _ (fun e he => Nat.lt_of_lt_of_le (h e he) (Nat.le_add_right _ _))

/-- The boot counter counts only in the twins that lie below the last byte listed. -/
theorem bootCount_below (m : Mgt) (k : Nat) (hk : k ≤ 512) (h : ∀ e ∈ m.flash, e.1 < 0x2000 + 8 * k) :
    m.bootCount = ((List.range k).filter (fun i => twinOk (m.flashWords (0x2000 + 8 * i) 2))).length := by
  rw [Mgt.bootCount, show (512 : Nat) = k + (512 - k) by omega, List.range_add, List.filter_append, List.length_append]
  have : ((List.range (512 - k)).map (k + ·)).filter (fun i => twinOk (m.flashWords (0x2000 + 8 * i) 2)) = [] := by
    rw [List.filter_eq_nil_iff]
    intro i hi
    obtain ⟨j, -, rfl⟩ := List.mem_map.1 hi
    have e := flashBytes_above m (0x2000 + 8 * (k + j)) 8 (fun e he => Nat.lt_of_lt_of_le (h e he) (by omega))
    simp only [Mgt.flashWords, e]
    decide
  rw [this, List.length_nil, Nat.add_zero]

end Sys2Proof.Machine
end

