-- ==== Sys2Proof/Laws/Core.lean ====
section
/-! SUPPORT. What an instruction of a core does: one that is ready begins at once and ends as its effect says; how a core goes on. -/

namespace Sys2Proof.Machine

theorem State.awake_up (s : State) (r : Host.Outcome State Fault Refusal) (h : s.up) : s.awake r = r := by
  unfold State.awake
  rw [if_neg (by rw [show s.stopped = false from h]; exact Bool.false_ne_true)]

theorem State.clocked_ticking (s : State) (r : Host.Outcome State Fault Refusal) (h : s.ticking) : s.clocked r = r := by
  unfold State.clocked
  rw [if_neg (by rw [show s.clockless = false from h]; exact Bool.false_ne_true)]

theorem State.up_ticking {s : State} (h : s.up) : s.ticking := by
  unfold State.up State.stopped at h
  exact (Bool.or_eq_false_iff.mp h).1

/-- No outstanding DRD in the way: the instruction does not wait. -/
theorem State.drdWait_free (s : State) (q : Fin 16) (uses : List Nat) (n : Nat)
    (h : ∀ d ∈ (s.core q).drds, d.gd = 0 ∨ uses.contains d.gd = false) : s.drdWait q uses n = s := by
  cases n with
  | zero => rfl
  | succ n =>
    unfold State.drdWait
    rw [if_neg]
    rintro ⟨-, h2⟩
    obtain ⟨d, hd, hu⟩ := List.any_eq_true.mp h2
    simp only [Bool.and_eq_true, bne_iff_ne, ne_eq] at hu
    rcases h d hd with h3 | h3
    · exact hu.1 h3
    · rw [h3] at hu
      exact Bool.false_ne_true hu.2

/-- A ready instruction begins at its core's next edge and ends as its effect says. -/
theorem State.instr_ready {s : State} {q : Fin 16} {op : Op} (h : s.ready q op) (eff : State → Nat → InstrEnd) :
    s.instr q op eff = (s.begun q).finish q (s.startEdge q) (eff (s.begun q) (s.startEdge q)) := by
  obtain ⟨-, hr, hp, ho, hd⟩ := h
  have hf : fetchFault (s.core q).pc op = none := by
    have h1 : 1 ≤ op.size := by unfold Op.size; split <;> omega
    unfold fetchFault
    rw [if_neg (by omega), if_neg (by omega), ho]
    rfl
  unfold State.instr
  rw [if_neg (by simp [hr]), hf]
  simp only [State.drdWait_free s q op.uses 4 hd]
  rw [if_neg (by simp [hr])]
  rfl

@[simp] theorem State.core_begun (s : State) (p q : Fin 16) : (s.begun q).core p = s.core p := by simp [State.begun]

/-- A core that goes on. -/
theorem Core.wentOn_goOn (c d : Core) (e k : Nat) (pc : W32) (hs : d.stepping = c.stepping) (hd : d.drds = c.drds) :
    c.wentOn e k pc (d.goOn (e + 64 * k) pc) := by
  unfold Core.wentOn Core.goOn Core.toHalt
  rw [hs]
  cases c.stepping <;> simp [hd]

@[simp] theorem Core.goOn_rd (c : Core) (t : Nat) (pc : W32) (k : Nat) : (c.goOn t pc).rd k = c.rd k := by
  unfold Core.goOn Core.toHalt Core.rd; dsimp only; split <;> (try split) <;> rfl

theorem Core.goOn_same (c : Core) (t : Nat) (pc : W32) :
    c.goOn t pc = { c with pc := pc, edge := t, waiting := none, met := none, run := (c.goOn t pc).run, stepping := false } := by
  unfold Core.goOn Core.toHalt
  cases h : c.stepping <;> simp

/-- A ready instruction whose effect retires with its core as `d`, RUNNING. -/
theorem State.instr_ok {s : State} {q : Fin 16} {op : Op} (h : s.ready q op) {eff : State → Nat → InstrEnd} {d : Core} {k : Nat} {pc : W32}
    (he : eff (s.begun q) (s.startEdge q) = .ok ((s.begun q).setCore q d) k pc) (hd : d.run = .running) :
    s.instr q op eff = (s.begun q).setCore q (d.goOn (s.startEdge q + 64 * k) pc) := by
  rw [State.instr_ready h, he]
  simp only [State.finish, State.modCore, State.core_setCore, State.setCore_setCore, hd, if_true]

theorem State.onlyCore_setCore (s : State) (q : Fin 16) (d : Core) : s.onlyCore ((s.begun q).setCore q d) q := by
  refine ⟨?_, ?_⟩
  · unfold State.begun State.advance State.setCore
    split <;> rfl
  · intro p hp
    rw [State.core_setCore_ne _ _ hp, State.core_begun]

/-- What `computes` asks, of a core that wrote one register and the flags. -/
theorem State.setCore_computes (s : State) (q : Fin 16) (gd : Nat) (v : W32) (z n c o : Bool) (k size : Nat) (hg : gd < 32) :
    s.computes ((s.begun q).setCore q (({ s.core q with fz := z, fn := n, fc := c, fv := o }.wr gd v).goOn (s.startEdge q + 64 * k)
      ((s.core q).pc + BitVec.ofNat 32 size))) q gd v z n c o k size := by
  refine ⟨State.onlyCore_setCore s q _, ?_, ?_, ?_, ?_⟩
  · rw [State.core_setCore, Core.goOn_same]
    unfold Core.sameButRegs Core.wr
    split <;> rfl
  · intro j hj hjd
    have hne : j ≠ gd := by simpa using hjd
    rw [State.core_setCore, Core.goOn_rd, Core.rd_wr _ _ _ _ hj, if_neg hne]
    unfold Core.rd
    split <;> rfl
  · intro h0
    rw [State.core_setCore, Core.goOn_rd, Core.rd_wr _ _ _ _ hg, if_neg h0, if_pos rfl]
  · rw [State.core_setCore]
    exact ⟨by simp, by simp, by simp, by simp, Core.wentOn_goOn _ _ _ _ _ (by simp) (by simp)⟩

/-- What `computes` asks, of an instruction that writes one register and the flags. -/
theorem State.instr_computes {s : State} {q : Fin 16} {op : Op} (h : s.ready q op) {eff : State → Nat → InstrEnd} {gd : Nat} {v : W32}
    {z n c o : Bool} {k size : Nat} (hg : gd < 32)
    (he : eff (s.begun q) (s.startEdge q) =
      .ok ((s.begun q).setCore q ({ s.core q with fz := z, fn := n, fc := c, fv := o }.wr gd v)) k ((s.core q).pc + BitVec.ofNat 32 size)) :
    s.computes (s.instr q op eff) q gd v z n c o k size := by
  rw [State.instr_ok h he (by rw [Core.wr_run]; exact h.2.1)]
  exact State.setCore_computes s q gd v z n c o k size hg

/-- A ready instruction whose effect ends in a state in which its core runs. -/
theorem State.instr_end {s : State} {q : Fin 16} {op : Op} (h : s.ready q op) {eff : State → Nat → InstrEnd} {u : State} {k : Nat} {pc : W32}
    (he : eff (s.begun q) (s.startEdge q) = .ok u k pc) (hu : (u.core q).run = .running) :
    s.instr q op eff = u.setCore q ((u.core q).goOn (s.startEdge q + 64 * k) pc) := by
  rw [State.instr_ready h, he]
  simp only [State.finish, State.modCore, hu, if_true]

end Sys2Proof.Machine
end

