-- ==== Sys2Proof/Laws/PerInstr.lean ====
section
/-! SUPPORT. Facts of every command as syntax, one lemma per constructor. -/

namespace Sys2Proof.Laws.WellFormedCore

open Sys2Proof Sys2Proof.Machine

/-- A command that executes an Ashlar instruction is well formed when no reserved encoding spells the instruction, whose words are as
many as its size says (12 R312 to R314). -/
def Statement (i : Instr) : Prop := ∀ q op, i.op = some (q, op) → i.wf = op.ok ∧ op.words.length = op.size

theorem words_length (op : Op) : op.words.length = op.size := by cases op <;> rfl

theorem of_any (i : Instr) : Statement i := by
  intro q op h
  exact ⟨by simp [Instr.wf, h], words_length op⟩

theorem add (q : Fin 16) (gd ga gb : Fin 32) : Statement (.add q gd ga gb) := of_any _
theorem addc (q : Fin 16) (gd ga gb : Fin 32) : Statement (.addc q gd ga gb) := of_any _
theorem sub (q : Fin 16) (gd ga gb : Fin 32) : Statement (.sub q gd ga gb) := of_any _
theorem subc (q : Fin 16) (gd ga gb : Fin 32) : Statement (.subc q gd ga gb) := of_any _
theorem and (q : Fin 16) (gd ga gb : Fin 32) : Statement (.and q gd ga gb) := of_any _
theorem or (q : Fin 16) (gd ga gb : Fin 32) : Statement (.or q gd ga gb) := of_any _
theorem xor (q : Fin 16) (gd ga gb : Fin 32) : Statement (.xor q gd ga gb) := of_any _
theorem shl (q : Fin 16) (gd ga gb : Fin 32) : Statement (.shl q gd ga gb) := of_any _
theorem shr (q : Fin 16) (gd ga gb : Fin 32) : Statement (.shr q gd ga gb) := of_any _
theorem sar (q : Fin 16) (gd ga gb : Fin 32) : Statement (.sar q gd ga gb) := of_any _
theorem mul (q : Fin 16) (gd ga gb : Fin 32) : Statement (.mul q gd ga gb) := of_any _
theorem mulhu (q : Fin 16) (gd ga gb : Fin 32) : Statement (.mulhu q gd ga gb) := of_any _
theorem cmp (q : Fin 16) (ga gb : Fin 32) : Statement (.cmp q ga gb) := of_any _
theorem tst (q : Fin 16) (ga gb : Fin 32) : Statement (.tst q ga gb) := of_any _
theorem addi (q : Fin 16) (gd ga : Fin 32) (imm : BitVec 15) : Statement (.addi q gd ga imm) := of_any _
theorem andi (q : Fin 16) (gd ga : Fin 32) (imm : BitVec 15) : Statement (.andi q gd ga imm) := of_any _
theorem ori (q : Fin 16) (gd ga : Fin 32) (imm : BitVec 15) : Statement (.ori q gd ga imm) := of_any _
theorem xori (q : Fin 16) (gd ga : Fin 32) (imm : BitVec 15) : Statement (.xori q gd ga imm) := of_any _
theorem shli (q : Fin 16) (gd ga : Fin 32) (imm : BitVec 15) : Statement (.shli q gd ga imm) := of_any _
theorem shri (q : Fin 16) (gd ga : Fin 32) (imm : BitVec 15) : Statement (.shri q gd ga imm) := of_any _
theorem sari (q : Fin 16) (gd ga : Fin 32) (imm : BitVec 15) : Statement (.sari q gd ga imm) := of_any _
theorem cmpi (q : Fin 16) (ga : Fin 32) (imm : BitVec 15) : Statement (.cmpi q ga imm) := of_any _
theorem li (q : Fin 16) (gd : Fin 32) (imm32 : W32) : Statement (.li q gd imm32) := of_any _
theorem ldw (q : Fin 16) (gd ga : Fin 32) (imm : BitVec 15) : Statement (.ldw q gd ga imm) := of_any _
theorem ldb (q : Fin 16) (gd ga : Fin 32) (imm : BitVec 15) : Statement (.ldb q gd ga imm) := of_any _
theorem stw (q : Fin 16) (gd ga : Fin 32) (imm : BitVec 15) : Statement (.stw q gd ga imm) := of_any _
theorem stb (q : Fin 16) (gd ga : Fin 32) (imm : BitVec 15) : Statement (.stb q gd ga imm) := of_any _
theorem ldtw (q : Fin 16) (gd ga : Fin 32) (w : BitVec 4) : Statement (.ldtw q gd ga w) := of_any _
theorem sttw (q : Fin 16) (gd ga : Fin 32) (w : BitVec 4) : Statement (.sttw q gd ga w) := of_any _
theorem bCond (q : Fin 16) (cond : BitVec 4) (off : BitVec 13) : Statement (.bCond q cond off) := of_any _
theorem call (q : Fin 16) (off : BitVec 13) : Statement (.call q off) := of_any _
theorem ret (q : Fin 16) : Statement (.ret q) := of_any _
theorem loop (q : Fin 16) (ga : Fin 32) (off : BitVec 13) : Statement (.loop q ga off) := of_any _
theorem jr (q : Fin 16) (ga : Fin 32) : Statement (.jr q ga) := of_any _
theorem halt (q : Fin 16) : Statement (.halt q) := of_any _
theorem nop (q : Fin 16) : Statement (.nop q) := of_any _
theorem dwr (q : Fin 16) (gd ga : Fin 32) (imm : BitVec 15) : Statement (.dwr q gd ga imm) := of_any _
theorem dwri (q : Fin 16) (ga : Fin 32) (imm : BitVec 15) (imm32 : W32) : Statement (.dwri q ga imm imm32) := of_any _
theorem drd (q : Fin 16) (gd ga : Fin 32) (imm : BitVec 15) : Statement (.drd q gd ga imm) := of_any _
theorem commit (q : Fin 16) (gd ga : Fin 32) (discard : Bool) : Statement (.commit q gd ga discard) := of_any _
theorem commitev (q : Fin 16) (gd ga : Fin 32) (src : BitVec 8) : Statement (.commitev q gd ga src) := of_any _
theorem cwait (q : Fin 16) (gd ga : Fin 32) : Statement (.cwait q gd ga) := of_any _
theorem synczZero (q : Fin 16) : Statement (.synczZero q) := of_any _
theorem synczOffset (q : Fin 16) (ga : Fin 32) : Statement (.synczOffset q ga) := of_any _
theorem tick (q : Fin 16) (gd : Fin 32) : Statement (.tick q gd) := of_any _
theorem wait (q : Fin 16) (gd : Fin 32) (src : BitVec 8) (gb : Fin 32) : Statement (.wait q gd src gb) := of_any _
theorem waitt (q : Fin 16) (ga : Fin 32) : Statement (.waitt q ga) := of_any _
theorem sig (q : Fin 16) (n : BitVec 4) : Statement (.sig q n) := of_any _
theorem permit (q : Fin 16) (gd ga gb : Fin 32) (kind : BitVec 4) : Statement (.permit q gd ga gb kind) := of_any _
theorem release (q : Fin 16) (kind : BitVec 4) : Statement (.release q kind) := of_any _
theorem mbxSend (q : Fin 16) (gd : Fin 32) (n : BitVec 4) (try_ : Bool) : Statement (.mbxSend q gd n try_) := of_any _
theorem mbxReceive (q : Fin 16) (gd ga : Fin 32) (try_ : Bool) : Statement (.mbxReceive q gd ga try_) := of_any _
theorem mbxMgtSend (q : Fin 16) (gd : Fin 32) (n : BitVec 4) (try_ : Bool) : Statement (.mbxMgtSend q gd n try_) := of_any _
theorem mbxMgtReceive (q : Fin 16) (gd ga : Fin 32) (try_ : Bool) : Statement (.mbxMgtReceive q gd ga try_) := of_any _
theorem semtake (q : Fin 16) (n : BitVec 4) : Statement (.semtake q n) := of_any _
theorem semtry (q : Fin 16) (n : BitVec 4) : Statement (.semtry q n) := of_any _
theorem semgive (q : Fin 16) (n : BitVec 4) : Statement (.semgive q n) := of_any _
theorem drdComplete (q : Fin 16) : Statement (.drdComplete q) := of_any _
theorem drdTimeout (q : Fin 16) : Statement (.drdTimeout q) := of_any _
theorem waitOccurrence (q : Fin 16) : Statement (.waitOccurrence q) := of_any _
theorem waitTimeout (q : Fin 16) : Statement (.waitTimeout q) := of_any _
theorem waittReached (q : Fin 16) : Statement (.waittReached q) := of_any _
theorem mbxWaitDone (q : Fin 16) : Statement (.mbxWaitDone q) := of_any _
theorem commitSlotFree (q : Fin 16) : Statement (.commitSlotFree q) := of_any _
theorem groupTransferEnd (q : Fin 16) : Statement (.groupTransferEnd q) := of_any _
theorem commitApply : Statement (.commitApply) := of_any _
theorem commitevTriggered (q : Fin 16) (ticket : W32) : Statement (.commitevTriggered q ticket) := of_any _
theorem evExpired (q : Fin 16) (ticket : W32) : Statement (.evExpired q ticket) := of_any _
theorem seqStart (q : Fin 16) (w : W32) : Statement (.seqStart q w) := of_any _
theorem seqResume (q : Fin 16) (w : W32) : Statement (.seqResume q w) := of_any _
theorem seqHaltReq (q : Fin 16) (w : W32) : Statement (.seqHaltReq q w) := of_any _
theorem seqStep (q : Fin 16) (w : W32) : Statement (.seqStep q w) := of_any _
theorem coreReset (q : Fin 16) (w : W32) : Statement (.coreReset q w) := of_any _
theorem seqHaltDone (q : Fin 16) : Statement (.seqHaltDone q) := of_any _
theorem seqGroupStart (cores : BitVec 16) : Statement (.seqGroupStart cores) := of_any _
theorem seqSemForce (sems : BitVec 16) : Statement (.seqSemForce sems) := of_any _
theorem seqCommitCancel (q : Fin 16) : Statement (.seqCommitCancel q) := of_any _
theorem seqH2cPost (q : Fin 16) (w : W32) : Statement (.seqH2cPost q w) := of_any _
theorem seqC2hAck (q : Fin 16) : Statement (.seqC2hAck q) := of_any _
theorem hostImemWrite (q : Fin 16) (off : BitVec 16) (w : W32) : Statement (.hostImemWrite q off w) := of_any _
theorem registerWrite (addr : W32) (w : W32) : Statement (.registerWrite addr w) := of_any _
theorem refLost : Statement (.refLost) := of_any _
theorem refAcquire : Statement (.refAcquire) := of_any _
theorem refLocked : Statement (.refLocked) := of_any _
theorem ksWrap : Statement (.ksWrap) := of_any _
theorem ptmNow : Statement (.ptmNow) := of_any _
theorem ptmAutoDialog : Statement (.ptmAutoDialog) := of_any _
theorem ptmDialogDone (ok : Bool) (master : W64) (ticks : W64) : Statement (.ptmDialogDone ok master ticks) := of_any _
theorem nodTrainingDone (lane : Bool) : Statement (.nodTrainingDone lane) := of_any _
theorem nodMeasureDone (lane : Bool) (roundTrip upLat : W32) (upFollower : Bool) (id hops : BitVec 3) (eighth : Bool) : Statement (.nodMeasureDone lane roundTrip upLat upFollower id hops eighth) := of_any _
theorem nodLoadSend (lane : Bool) (known : BitVec 3) (lat : W32) (b : W64) : Statement (.nodLoadSend lane known lat b) := of_any _
theorem nodLoad (ahead : W32) (count : W64) (crc : BitVec 3) : Statement (.nodLoad ahead count crc) := of_any _
theorem nodAlign : Statement (.nodAlign) := of_any _
theorem nodZero (isZero : Bool) (o : W32) (b : W64) (crc : BitVec 3) : Statement (.nodZero isZero o b crc) := of_any _
theorem nodZeroBoundary : Statement (.nodZeroBoundary) := of_any _
theorem nodArmMark (arm : Bool) (code : BitVec 8) (programs : BitVec 4) (b : W64) (crc : BitVec 3) : Statement (.nodArmMark arm code programs b crc) := of_any _
theorem nodRate (count : W64) (upUnlocked : Bool) (crc : BitVec 3) : Statement (.nodRate count upUnlocked crc) := of_any _
theorem nodRateSend : Statement (.nodRateSend) := of_any _
theorem nodTrigRx (lane : Bool) (origin hops : BitVec 3) (prog : Fin 4) (ticks : W64) (word2 : W32) (crcOk : Bool) : Statement (.nodTrigRx lane origin hops prog ticks word2 crcOk) := of_any _
theorem nodLinkDown (lane : Bool) : Statement (.nodLinkDown lane) := of_any _
theorem convOvr (n : Fin 8) (hi : Bool) (t : W64) : Statement (.convOvr n hi t) := of_any _
theorem laneError (slice : Fin 24) (t : W64) : Statement (.laneError slice t) := of_any _
theorem sliceFault (slice : Fin 24) : Statement (.sliceFault slice) := of_any _
theorem settleEnd (n : Fin 8) : Statement (.settleEnd n) := of_any _
theorem sliceRejoin (slice : Fin 24) : Statement (.sliceRejoin slice) := of_any _
theorem shadowWindowOpen (n : Fin 8) : Statement (.shadowWindowOpen n) := of_any _
theorem calRotation (n : Fin 8) (pairs : List (BitVec 12 × BitVec 12)) (bad : BitVec 24) : Statement (.calRotation n pairs bad) := of_any _
theorem skewEstimateDone (slice : Fin 24) (count : W32) (dot sq : W64) : Statement (.skewEstimateDone slice count dot sq) := of_any _
theorem refMeasureStart (slice : Fin 24) : Statement (.refMeasureStart slice) := of_any _
theorem refMeasureDone (slice : Fin 24) (off gain tone : W32) : Statement (.refMeasureDone slice off gain tone) := of_any _
theorem tableTwinCheck (slice : Fin 24) (flip prevFlip : W32) : Statement (.tableTwinCheck slice flip prevFlip) := of_any _
theorem forcedWindowOpen (n : Fin 8) : Statement (.forcedWindowOpen n) := of_any _
theorem rotateNowDenied (n : Fin 8) : Statement (.rotateNowDenied n) := of_any _
theorem fgCalStepDone (vals : List W32) (bad : BitVec 6) : Statement (.fgCalStepDone vals bad) := of_any _
theorem chSat (n : Fin 8) (t : W64) (x : Samples) : Statement (.chSat n t x) := of_any _
theorem toneBlockDeliver (n : Fin 8) (x : Samples) (mag : W64) (phase : BitVec 16) : Statement (.toneBlockDeliver n x mag phase) := of_any _
theorem tcFire (c : Fin 16) (t : W64) (x : Samples) : Statement (.tcFire c t x) := of_any _
theorem tcTimeoutExpire (c : Fin 16) (t : W64) : Statement (.tcTimeoutExpire c t) := of_any _
theorem tcWindowWaitExpire (c : Fin 16) (t : W64) : Statement (.tcWindowWaitExpire c t) := of_any _
theorem tpSeqWindowEnd (p : Fin 4) : Statement (.tpSeqWindowEnd p) := of_any _
theorem trigoutEdge (m : Fin 4) : Statement (.trigoutEdge m) := of_any _
theorem trigoutPulseEnd (m : Fin 4) : Statement (.trigoutPulseEnd m) := of_any _
theorem tiEdge (k : Fin 10) (tclk : W64) (tap : Fin 512) (falling : Bool) (held : BitVec 8) (flip prevFlip : W32) : Statement (.tiEdge k tclk tap falling held flip prevFlip) := of_any _
theorem tiBlindEnd (k : Fin 10) : Statement (.tiBlindEnd k) := of_any _
theorem tmrItemProcess (flip : W32) (held : BitVec 7) : Statement (.tmrItemProcess flip held) := of_any _
theorem tmrWindowEnd (flip : W32) : Statement (.tmrWindowEnd flip) := of_any _
theorem tmrCalCountDone (k : Fin 10) (hits : List W32) : Statement (.tmrCalCountDone k hits) := of_any _
theorem tmrCalUnitReturn (k : Fin 10) : Statement (.tmrCalUnitReturn k) := of_any _
theorem tmrCalUnitSkip (k : Fin 10) : Statement (.tmrCalUnitSkip k) := of_any _
theorem tmrFifoRead (q : Fin 16) : Statement (.tmrFifoRead q) := of_any _
theorem recChunkWrite (n : Fin 8) (full : Bool) (outs : BitVec 6) (x : Samples) : Statement (.recChunkWrite n full outs x) := of_any _
theorem recEnd (n : Fin 8) (full : Bool) (x : Samples) : Statement (.recEnd n full x) := of_any _
theorem dirInitDone (p : Fin 4) : Statement (.dirInitDone p) := of_any _
theorem dirEntryWrite (p : Fin 4) : Statement (.dirEntryWrite p) := of_any _
theorem dirSeal (p : Fin 4) : Statement (.dirSeal p) := of_any _
theorem churnFreeOffer (n : Fin 8) : Statement (.churnFreeOffer n) := of_any _
theorem churnAutoTimeout (n : Fin 8) : Statement (.churnAutoTimeout n) := of_any _
theorem churnWfmComplete (n : Fin 8) (x : Samples) : Statement (.churnWfmComplete n x) := of_any _
theorem churnEngineStart (n : Fin 8) : Statement (.churnEngineStart n) := of_any _
theorem churnOpEnd (n : Fin 8) (corrected : W32) (bad : Option (BitVec 12 × Fin 2048 × Fin 256)) : Statement (.churnOpEnd n corrected bad) := of_any _
theorem churnDecayTimer (n : Fin 8) : Statement (.churnDecayTimer n) := of_any _
theorem churnSnapPeriod (n : Fin 8) : Statement (.churnSnapPeriod n) := of_any _
theorem churnSnapEvent (n : Fin 8) : Statement (.churnSnapEvent n) := of_any _
theorem churnBandRead (n : Fin 8) : Statement (.churnBandRead n) := of_any _
theorem churnSnapPublish (n : Fin 8) : Statement (.churnSnapPublish n) := of_any _
theorem ballastStepUp : Statement (.ballastStepUp) := of_any _
theorem permitGrantDirect : Statement (.permitGrantDirect) := of_any _
theorem ballastStepDown : Statement (.ballastStepDown) := of_any _
theorem permitDenied (req : Fin 64) (kind : BitVec 4) : Statement (.permitDenied req kind) := of_any _
theorem loadFall : Statement (.loadFall) := of_any _
theorem permitForce (cores : BitVec 16) : Statement (.permitForce cores) := of_any _
theorem memLinePresent (p : Fin 19) (write : Bool) (dpa : BitVec 40) (mask : W64) (data : BitVec 512) : Statement (.memLinePresent p write dpa mask data) := of_any _
theorem memLineAccept (e : Fin 64) (write : Bool) : Statement (.memLineAccept e write) := of_any _
theorem memReadReturn (e : Fin 64) (out : Fin 4) : Statement (.memReadReturn e out) := of_any _
theorem memMapDrainDone : Statement (.memMapDrainDone) := of_any _
theorem memMapTwinCheck (w : Fin 20) (flip : W32) : Statement (.memMapTwinCheck w flip) := of_any _
theorem memXlate (aselm : Bool) (addr : W32) : Statement (.memXlate aselm addr) := of_any _
theorem memAerr (c : Fin 32) : Statement (.memAerr c) := of_any _
theorem memReplayAttemptEnd (c : Fin 32) (dur : BitVec 9) : Statement (.memReplayAttemptEnd c dur) := of_any _
theorem memUnfenceDone (c : Fin 32) (ok : Bool) : Statement (.memUnfenceDone c ok) := of_any _
theorem memDerr (e : Fin 64) (i : Fin 32) : Statement (.memDerr e i) := of_any _
theorem memRowDisturb (e : Fin 64) (sid : Fin 3) (bank : Fin 16) (row : BitVec 14) : Statement (.memRowDisturb e sid bank row) := of_any _
theorem memRdPenaltyEnd (p : Fin 19) : Statement (.memRdPenaltyEnd p) := of_any _
theorem memRdWindow (st : Fin 2) : Statement (.memRdWindow st) := of_any _
theorem memTempRead (st : Fin 2) (temp : BitVec 8) : Statement (.memTempRead st temp) := of_any _
theorem memRefreshDue (e : Fin 64) (bank : Fin 16) : Statement (.memRefreshDue e bank) := of_any _
theorem memSrEntry (c : Fin 32) : Statement (.memSrEntry c) := of_any _
theorem memSrExitDone (c : Fin 32) (dt : BitVec 16) : Statement (.memSrExitDone c dt) := of_any _
theorem memRateDone (st : Fin 2) : Statement (.memRateDone st) := of_any _
theorem memCommandIssue (e : Fin 64) (rd : Fin 4) : Statement (.memCommandIssue e rd) := of_any _
theorem perstAssert : Statement (.perstAssert) := of_any _
theorem perstRelease : Statement (.perstRelease) := of_any _
theorem configReady : Statement (.configReady) := of_any _
theorem configRequest (f : Fin 64) (r : ConfigReg) (write : Bool) (w : W32) : Statement (.configRequest f r write w) := of_any _
theorem hostLinkUp (lanes : Fin 5) (rate : Fin 6) : Statement (.hostLinkUp lanes rate) := of_any _
theorem pfFlr : Statement (.pfFlr) := of_any _
theorem vfFlr (v : Fin 64) : Statement (.vfFlr v) := of_any _
theorem flrDone (f : Fin 64) (dt : W32) : Statement (.flrDone f dt) := of_any _
theorem vfEnableClear : Statement (.vfEnableClear) := of_any _
theorem busMasterChange (f : Fin 64) (bme d3 : Bool) : Statement (.busMasterChange f bme d3) := of_any _
theorem aerError (correctable : Bool) (k : Fin 32) : Statement (.aerError correctable k) := of_any _
theorem bar2Access (off : BitVec 36) (wr : Option (List Byte)) (n : BitVec 13) (outs : List (Fin 4)) : Statement (.bar2Access off wr n outs) := of_any _
theorem tapCtxRead (f : Fin 64) : Statement (.tapCtxRead f) := of_any _
theorem tapCtxWrite (f : Fin 64) : Statement (.tapCtxWrite f) := of_any _
theorem tapEnable (f : Fin 64) : Statement (.tapEnable f) := of_any _
theorem tapDisable (f : Fin 64) : Statement (.tapDisable f) := of_any _
theorem tapAbort (f : Fin 64) : Statement (.tapAbort f) := of_any _
theorem tapStopDone (t : BitVec 12) : Statement (.tapStopDone t) := of_any _
theorem tapDoorbell (f : Fin 64) (t : BitVec 12) (w : W32) : Statement (.tapDoorbell f t w) := of_any _
theorem tapOwnerWrite (t : BitVec 12) (w : Byte) : Statement (.tapOwnerWrite t w) := of_any _
theorem tapSegmentTake (t : BitVec 12) : Statement (.tapSegmentTake t) := of_any _
theorem tapChurnTake (t : BitVec 12) : Statement (.tapChurnTake t) := of_any _
theorem tapLineReturn (t : BitVec 12) (out : Fin 4) : Statement (.tapLineReturn t out) := of_any _
theorem tapRecordDone (t : BitVec 12) : Statement (.tapRecordDone t) := of_any _
theorem tapItemDone (t : BitVec 12) : Statement (.tapItemDone t) := of_any _
theorem tapStreamFlush (t : BitVec 12) (first : W64) : Statement (.tapStreamFlush t first) := of_any _
theorem tapLineTimeout (t : BitVec 12) : Statement (.tapLineTimeout t) := of_any _
theorem tapIrqTime (t : BitVec 12) : Statement (.tapIrqTime t) := of_any _
theorem aspmL1 (enter : Bool) : Statement (.aspmL1 enter) := of_any _
theorem dmaGo (src : DmaSource) (c : Fin 32) : Statement (.dmaGo src c) := of_any _
theorem dmaResume (src : DmaSource) (c : Fin 32) : Statement (.dmaResume src c) := of_any _
theorem dmaSkip (src : DmaSource) (c : Fin 32) : Statement (.dmaSkip src c) := of_any _
theorem dmaAbort (src : DmaSource) (c : Fin 32) : Statement (.dmaAbort src c) := of_any _
theorem dmaDoorbell (c : Fin 32) (w : W32) : Statement (.dmaDoorbell c w) := of_any _
theorem dmaOwnerWrite (w : W32) : Statement (.dmaOwnerWrite w) := of_any _
theorem dmaSetLoadDone (c : Fin 32) (out : Fin 7) (words : List W32) : Statement (.dmaSetLoadDone c out words) := of_any _
theorem dmaBurstReturn (c : Fin 32) (i : Fin 16) (outs : List (Fin 7)) (data : List Byte) : Statement (.dmaBurstReturn c i outs data) := of_any _
theorem dmaBurstTimeout (c : Fin 32) (i : Fin 16) : Statement (.dmaBurstTimeout c i) := of_any _
theorem dmaSetComplete (c : Fin 32) : Statement (.dmaSetComplete c) := of_any _
theorem dmaFenceDone (c : Fin 32) : Statement (.dmaFenceDone c) := of_any _
theorem dmaStopDone (c : Fin 32) : Statement (.dmaStopDone c) := of_any _
theorem dspEnable (on : Bool) : Statement (.dspEnable on) := of_any _
theorem dspFrameStart : Statement (.dspFrameStart) := of_any _
theorem dspFlipReq (bits : BitVec 5) : Statement (.dspFlipReq bits) := of_any _
theorem dspFlipCancel (bits : BitVec 5) : Statement (.dspFlipCancel bits) := of_any _
theorem dspModeApply : Statement (.dspModeApply) := of_any _
theorem dspLineFetch (l : Fin 4) (outs : List (Fin 4)) : Statement (.dspLineFetch l outs) := of_any _
theorem dspLayerFault (l : Fin 4) (underrun : Bool) (line : BitVec 12) : Statement (.dspLayerFault l underrun line) := of_any _
theorem dspFlipDone : Statement (.dspFlipDone) := of_any _
theorem hpdConnect : Statement (.hpdConnect) := of_any _
theorem hpdDisconnect : Statement (.hpdDisconnect) := of_any _
theorem irqHpd (lostLock : Bool) : Statement (.irqHpd lostLock) := of_any _
theorem sensConvEnd (v : W32) (full : Bool) : Statement (.sensConvEnd v full) := of_any _
theorem sensResultWrite : Statement (.sensResultWrite) := of_any _
theorem sensStartEvent (full : Bool) : Statement (.sensStartEvent full) := of_any _
theorem sensPowerDown : Statement (.sensPowerDown) := of_any _
theorem sensStartupDone (full : Bool) : Statement (.sensStartupDone full) := of_any _
theorem sensMgtInject (source : BitVec 6) (gainExp : Fin 8) (samp : BitVec 11) : Statement (.sensMgtInject source gainExp samp) := of_any _
theorem sensInjResult : Statement (.sensInjResult) := of_any _
theorem sensMemWaitEnd (cycles : BitVec 16) : Statement (.sensMemWaitEnd cycles) := of_any _
theorem excRampDone (k : Fin 4) : Statement (.excRampDone k) := of_any _
theorem excLimit (k : Fin 4) : Statement (.excLimit k) := of_any _
theorem excLimitEnd (k : Fin 4) : Statement (.excLimitEnd k) := of_any _
theorem getInfo : Statement (.getInfo) := of_any _
theorem sensorRead : Statement (.sensorRead) := of_any _
theorem cairnCopy : Statement (.cairnCopy) := of_any _
theorem lifetimeCopy : Statement (.lifetimeCopy) := of_any _
theorem settingsGet : Statement (.settingsGet) := of_any _
theorem settingsSet (flash : Bool) : Statement (.settingsSet flash) := of_any _
theorem fgCal : Statement (.fgCal) := of_any _
theorem tableInstall (bad : BitVec 24) : Statement (.tableInstall bad) := of_any _
theorem tmrCal : Statement (.tmrCal) := of_any _
theorem eyeSweep : Statement (.eyeSweep) := of_any _
theorem memSelftest : Statement (.memSelftest) := of_any _
theorem seqSelftest (pass : BitVec 16) : Statement (.seqSelftest pass) := of_any _
theorem dpTrain (lanes rate : Fin 4) (pass : Bool) : Statement (.dpTrain lanes rate pass) := of_any _
theorem updBegin (flash : Bool) : Statement (.updBegin flash) := of_any _
theorem updChunk (flash : Bool) : Statement (.updChunk flash) := of_any _
theorem updVerify (kwador cosign gcm flash : Bool) : Statement (.updVerify kwador cosign gcm flash) := of_any _
theorem updActivate (flash : Bool) : Statement (.updActivate flash) := of_any _
theorem updConfirm (flash : Bool) : Statement (.updConfirm flash) := of_any _
theorem updRevert (flash : Bool) : Statement (.updRevert flash) := of_any _
theorem cosignFuse : Statement (.cosignFuse) := of_any _
theorem cosignFuseTail : Statement (.cosignFuseTail) := of_any _
theorem badCmd : Statement (.badCmd) := of_any _
theorem eyeSweepStepStart : Statement (.eyeSweepStepStart) := of_any _
theorem eyeSweepStepEnd (dt : BitVec 20) (found : List (Fin 19 × BitVec 7 × BitVec 7)) (end_ : Option (W64 × List Byte)) : Statement (.eyeSweepStepEnd dt found end_) := of_any _
theorem memSelftestDone (pass : W64) (e : Fin 64) (bank : BitVec 4) (cell : BitVec 16) (lane : Option (BitVec 8)) : Statement (.memSelftestDone pass e bank cell lane) := of_any _
theorem bootRom (a b : Option (W32 × BitVec 5 × BitVec 16)) (reads flash : Bool) : Statement (.bootRom a b reads flash) := of_any _
theorem thermSample (temps : List (BitVec 16)) : Statement (.thermSample temps) := of_any _
theorem smbSensorSelect (id pec : Byte) : Statement (.smbSensorSelect id pec) := of_any _
theorem modeHostPost (w : W32) : Statement (.modeHostPost w) := of_any _
theorem modeConverterEntry : Statement (.modeConverterEntry) := of_any _
theorem modeConverterSwitch : Statement (.modeConverterSwitch) := of_any _
theorem modeConverterExit : Statement (.modeConverterExit) := of_any _
theorem modeDenied : Statement (.modeDenied) := of_any _
theorem retainEntry : Statement (.retainEntry) := of_any _
theorem retainExit : Statement (.retainExit) := of_any _
theorem porRelease : Statement (.porRelease) := of_any _
theorem porAssert : Statement (.porAssert) := of_any _
theorem vddAonLow : Statement (.vddAonLow) := of_any _
theorem evtCoalTimeout (src : Fin 256) : Statement (.evtCoalTimeout src) := of_any _
theorem evtMsixSend : Statement (.evtMsixSend) := of_any _
theorem evtMaskWrite (k : Fin 8) (w : W32) : Statement (.evtMaskWrite k w) := of_any _
theorem wake : Statement (.wake) := of_any _
theorem jtagExtest (capture load : BitVec 127) : Statement (.jtagExtest capture load) := of_any _
theorem jtagSamplePreload (capture load : BitVec 127) : Statement (.jtagSamplePreload capture load) := of_any _
theorem jtagIdcode : Statement (.jtagIdcode) := of_any _
theorem jtagHighz : Statement (.jtagHighz) := of_any _
theorem jtagClamp : Statement (.jtagClamp) := of_any _
theorem jtagExtestPulse (capture load : BitVec 127) : Statement (.jtagExtestPulse capture load) := of_any _
theorem jtagExtestTrain (capture load : BitVec 127) : Statement (.jtagExtestTrain capture load) := of_any _
theorem jtagBypass (code : BitVec 8) : Statement (.jtagBypass code) := of_any _
theorem testLogicReset : Statement (.testLogicReset) := of_any _
theorem vddAonRestore : Statement (.vddAonRestore) := of_any _
theorem nodLinkReturn (lane : Bool) : Statement (.nodLinkReturn lane) := of_any _
theorem fgCalInstall : Statement (.fgCalInstall) := of_any _
theorem trigDecision : Statement (.trigDecision) := of_any _
theorem tmrCalGrant : Statement (.tmrCalGrant) := of_any _
theorem tmrCalDenied : Statement (.tmrCalDenied) := of_any _
theorem mgtAnsAck : Statement (.mgtAnsAck) := of_any _
theorem mgtRestartReq : Statement (.mgtRestartReq) := of_any _
theorem mgtWatchdog : Statement (.mgtWatchdog) := of_any _
theorem mgtReady : Statement (.mgtReady) := of_any _
theorem supplyCheck : Statement (.supplyCheck) := of_any _
theorem lifeSecond : Statement (.lifeSecond) := of_any _
theorem lifeSave : Statement (.lifeSave) := of_any _
theorem cairnDrain : Statement (.cairnDrain) := of_any _
theorem cairnOvf : Statement (.cairnOvf) := of_any _
theorem confirmWindowExpiry : Statement (.confirmWindowExpiry) := of_any _
theorem autoConfirm : Statement (.autoConfirm) := of_any _
theorem smbStatus : Statement (.smbStatus) := of_any _
theorem smbTemperature : Statement (.smbTemperature) := of_any _
theorem smbSensorRead : Statement (.smbSensorRead) := of_any _
theorem smbVersions : Statement (.smbVersions) := of_any _
theorem smbLife : Statement (.smbLife) := of_any _
theorem smbCairnIndex : Statement (.smbCairnIndex) := of_any _
theorem smbAlertCauses : Statement (.smbAlertCauses) := of_any _
theorem smbAlertResponse : Statement (.smbAlertResponse) := of_any _
theorem fgCalPermitDenied : Statement (.fgCalPermitDenied) := of_any _

end Sys2Proof.Laws.WellFormedCore
end

