-- ==== Sys2Proof/Tests/Slice0.lean ====
section
/-! SUPPORT. Tests: ill-formed commands that `WellFormed.lean` refuses, instruction words and command words written out from the
spec's encodings, worked examples of the spec, and for each statement with hypotheses a state that meets them. -/

set_option Elab.async false

namespace Sys2Proof.Tests

open Sys2Proof.Machine

/-! ### Small states -/

/-- A device in IDLE under a running Aselm, 1,000 ticks after the start. -/
def plain : State := { State.reset with
  now := 1000
  ks := { base := 0x10000000000, held := false }
  mode := { ModeCtl.reset with mode := 1, booting := false, memReady := true }
  mgt := { Mgt.reset with state := 1 } }
/-- Core 3 runs. -/
def coreRuns (f : Core → Core) : State := plain.modCore 3 (fun c => f { c with
  run := .running, pc := 10, edge := 1088, fc := true
  g := Vector.ofFn (fun i : Fin 32 => BitVec.ofNat 32 (i.val * 0x11111111 + 0x20)) })
def withG (l : List (Nat × W32)) (c : Core) : Core := l.foldl (fun c e => c.wr e.1 e.2) c
/-- The state with registers. -/
def withRegs (l : List (Nat × W32)) (s : State) : State := l.foldl (fun s e => s.setReg e.1 e.2) s
def groupOf (k : Nat) (c : GroupCond) : Group :=
  { ticket := BitVec.ofNat 32 k, writes := [.reg 0x40 7], cond := c, tEnd := 1100, bMin := 1408, due := none, expire := none, late := false, seen := none, armed := false }
def eraOf : Era := { since := 0, brk := true, period := 4, slots := [some (0, 0x40000, 0), some (0, 0x40000, 0)], corr := 0, gain := 0x10000, coefs := [1], centre := 0, shift := 0, decim := false, tap := false, mode := 0, ratio := 1, anchor := 0, thrHi := 1000, thrLo := 500 }
/-- Input n runs as a SPAN1 signal with every slice of it powered. -/
def converting (n : Nat) (s : State) : State :=
  ({ s with mode := { s.mode with mode := 2 } }.setReg (R.convCtrl n) 1).modInput n (fun x => { x with running := true, slots := [some (3 * n), some (3 * n + 1)], next := 70000, eras := [eraOf] })
    |>.modSlice (3 * n) (fun x => { x with powered := true, since := 5 })
    |>.modSlice (3 * n + 1) (fun x => { x with powered := true, since := 6 })
    |>.modSlice (3 * n + 2) (fun x => { x with powered := true, since := 7 })
def ktsAt (t : Nat) : Kts := { at_ := t * 65536, ticks := BitVec.ofNat 64 (t + 0x10000000000), word2 := 0x20000 }
def recRunOf : RecRun := { a0 := 0x40000, cb := 64, q := 2, label0 := 100, ratio := 1, ts := 4, mode := 0, resumed := [], stop := none }
def segOf : Seg := { seq := 5, kts := [1, 2, 3], run := recRunOf, inputs := 4, kRef := 10, pre := 4, post := 6, preShort := false, postShort := false, isFrame := false, frameValid := false, frame := 0, aS := 0x40000, written := false, sealed := false, lost := false, held := false }
def wfmOf : Wfm := { ref := 100, ratio := 1, ts := 4, mode := 0, phi := 0, len := 2, pre := 0, ymap := 0, due := 5000, complete := false, outs := [], ovr := false }
def snapOf : Snap := { slot := 1, seq := 6, base := 0x1000000, kts := [1, 2, 3], wfmAtS := 0, wfmLast := 0, avgCount := 4, avg := [], env := [], band := 0, raw := true, render := false, fmt := false, torn := false, poison := false }
def memLine (p a : Nat) (w : Bool) : MLine := { port := p, dpa := a, write := w, mask := 2 ^ 64 - 1, data := List.replicate 64 0x5A, hint := 0, at_ := 900, tries := 0, waits := false }
/-- Tap 77 works with this context. -/
def tapWorks (ctx : List W32) (f : Tap → Tap) : State :=
  (({ plain with link := { plain.link with up := true } }).modFn 0 (fun g => { g with bme := true })).modTap 77 (fun x => f { x with state := 1, ctx := (ctx ++ List.replicate 16 0).take 16 })
def tapItem : TapItem := { spans := [], buf := [], off := 0, total := 64, typ := 3, words := List.replicate 12 6, poison := false, addrErr := false, spill := (false, false), holds := false, next := 9, since := 900 }
/-- A request in slot k. -/
def asking (k : Nat) (l : List W32) (s : State) : State := s.modSlot k (fun x => { x with full := true, req := (l ++ List.replicate 8 0).take 8 })
/-- A request that Aselm works on. -/
def serving (k : Nat) (l : List W32) (s : State) : State := s.modSlot k (fun x => { x with full := true, running := true, req := (l ++ List.replicate 8 0).take 8 })
/-- Aselm has an image of the update format in the staging slot. -/
def staged (u : Nat) (s : State) : State :=
  ((s.modMgt (fun m => { m with upd := u, pkgLen := 1000 })).flashWords 0x2000000
    [0x4F524C54, 0x00030001, 9, 488, 3, 0, 0, 0, 0, 0, 0, 0, 0, 0, 77])
/-- The registers of a timing from `b` on: 640 by 480 in 800 by 525, a pixel rate of m/n. -/
def timRegs (b : Nat) (m n : Nat) : List (Nat × W32) := [(b, 640 + 800 * 65536), (b + 4, 16 + 96 * 65536), (b + 8, 480 + 525 * 65536), (b + 12, 10 + 2 * 65536), (b + 16, BitVec.ofNat 32 (m + n * 65536))]
/-- The display runs frames; its layer 1 shows lines of 64 samples of format f. -/
def showing (f : Nat) (lay : DspLayer → DspLayer) : State :=
  ((withRegs (timRegs (R.dspTimM 0) 25 100 ++ timRegs (R.dspTim 0) 25 100 ++
    [(R.dspCtrl, 1), (R.dspLayerM 1 0, BitVec.ofNat 32 (1 + f * 2 + 255 * 16)), (R.dspLayerM 1 8, 512 + 512 * 65536), (R.dspLayerM 1 16, 64 + 32 * 65536), (R.dspLayerM 1 20, 128), (R.dspLayerM 1 24, 0x100000), (R.dspLayerM 1 32, 0x200000)]) plain).modDsp (fun d => { d with running := true, first := false, startNum := 12800, startDen := 1 })).modLayer 1 lay
def excOf0 : Exc := { on := true, ramping := true, limit := false, mvAt := 3, target := 10, since := 900 }
def withExc (k : Nat) (e : Exc) (s : State) : State := { s with sens := { s.sens with exc := vmod s.sens.exc k (fun _ => e) } }
def convOf0 : SConv := { injected := false, source := 5, gainExp := 1, avg := 4, toMem := false, start := 2000, hold := 8000, stop := 44000 }
def withSens (f : Sens → Sens) (s : State) : State := { s with sens := f s.sens }
def withMode (f : ModeCtl → ModeCtl) (s : State) : State := { s with mode := f s.mode }
def codesAt (t : Nat) (l : List Nat) : Samples := { first := BitVec.ofNat 64 (t + 0x10000000000), codes := l.map (BitVec.ofNat 12) }
def toneOf : ToneRun := { anchor := 1024, block := 0, stop := none, len := 64, pre := 1, period := 4, freq := 0x10000000, ctrl := 0x40, above := false }
def booting : State := { plain with mode := ModeCtl.reset, mgt := Mgt.reset }

def turnJob (r lo hi : Nat) (st : Bool) (e w l : Nat) : SmemJob := { req := r, lo := lo, hi := hi, store := st, start := e, words := w, left := l, waited := 0, data := if st then List.replicate (hi - lo) 0x11 else [], under := if st then List.replicate (hi - lo) 0x22 else [], gd := 2, regs := 0 }

/-! ### Ill-formed commands, one for each check of `WellFormed.lean` -/

/-- 12 R314: reserved values, and pairs that name an odd register. -/
theorem test_wf_instructions :
    Instr.wf (.shli 0 1 2 32) = false ∧ Instr.wf (.shri 0 1 2 32) = false ∧ Instr.wf (.sari 0 1 2 0x4000) = false ∧
    Instr.wf (.ldtw 0 1 2 0) = false ∧ Instr.wf (.ldtw 0 1 2 4) = false ∧ Instr.wf (.ldtw 0 30 2 3) = false ∧
    Instr.wf (.sttw 0 1 2 0) = false ∧ Instr.wf (.sttw 0 31 2 2) = false ∧ Instr.wf (.bCond 0 15 1) = false ∧
    Instr.wf (.commit 0 1 3 false) = false ∧ Instr.wf (.commitev 0 1 5 9) = false ∧ Instr.wf (.tick 0 7) = false ∧
    Instr.wf (.waitt 0 9) = false ∧ Instr.wf (.sig 0 8) = false ∧ Instr.wf (.permit 0 1 3 4 2) = false ∧
    Instr.wf (.mbxSend 0 1 0 false) = false ∧ Instr.wf (.mbxSend 0 1 9 true) = false ∧ Instr.wf (.mbxSend 0 25 8 false) = false ∧
    Instr.wf (.mbxReceive 0 25 1 false) = false ∧ Instr.wf (.mbxMgtSend 0 31 2 true) = false ∧ Instr.wf (.mbxMgtReceive 0 31 1 true) = false := by
  decide +kernel

/-- Writes of control words that do not name their command's bit, and operands out of their sizes and ranges. -/
theorem test_wf_commands :
    Instr.wf (.seqStart 0 2) = false ∧ Instr.wf (.seqResume 0 1) = false ∧ Instr.wf (.seqHaltReq 0 1) = false ∧
    Instr.wf (.seqStep 0 1) = false ∧ Instr.wf (.coreReset 0 1) = false ∧ Instr.wf (.seqH2cPost 0 1) = false ∧
    Instr.wf (.hostImemWrite 0 2 1) = false ∧ Instr.wf (.registerWrite 0x301 1) = false ∧ Instr.wf (.tmrCalCountDone 0 [1]) = false ∧
    Instr.wf (.vfFlr 0) = false ∧ Instr.wf (.bar2Access 0 (some []) 4 []) = false ∧ Instr.wf (.bar2Access 0 none 0 []) = false ∧
    Instr.wf (.dmaSetLoadDone 0 0 [1]) = false ∧ Instr.wf (.thermSample []) = false := by
  decide +kernel

/-- Well-formed neighbours of the same. -/
theorem test_wf_accepts :
    Instr.wf (.shli 0 1 2 31) = true ∧ Instr.wf (.ldtw 0 29 2 3) = true ∧ Instr.wf (.bCond 0 14 1) = true ∧ Instr.wf (.tick 0 30) = true ∧
    Instr.wf (.mbxSend 0 24 8 false) = true ∧ Instr.wf (.mbxReceive 0 24 1 false) = true ∧ Instr.wf (.seqStart 0 1) = true ∧
    Instr.wf (.vfFlr 63) = true := by
  decide +kernel

/-! ### Instruction words, from the formats of 12 R313 and the rows of the chapter -/

/-- The words of 12's worked example, as it prints them. -/
theorem test_words_example :
    decodeOp 0x0000054B 0 = some (.tick 10) ∧ decodeOp 0x00000618 0x00002000 = some (.li 12 8192) ∧
    decodeOp 0x0018A501 0 = some (.add 10 10 12) ∧ decodeOp 0x0000B582 0 = some (.addc 11 11 0) ∧
    decodeOp 0x00003041 1000 = some (.dwri 3 0 1000) ∧ decodeOp 0x00083041 600 = some (.dwri 3 4 600) ∧
    decodeOp 0x4000A743 0 = some (.commit 14 10 true) ∧ decodeOp 0x0000E7C5 0 = some (.cwait 15 14) := by
  decide +kernel

/-- The encodings that 13 (PERMIT) and 17 (DSTART) print. -/
theorem test_words_printed :
    decodeOp 0x0098A2D0 0 = some (.permit 5 10 12 2) ∧ decodeOp 0x000002D2 0 = some (.dstart 5 0 0 0) := by
  decide +kernel

/-- One word for each of the other families: F1 `b a d op`, F2 `imm15 a d op`, F3 `0 off13 cond a op`, F5 `0 p imm8 b a d op`,
F6 `0 m n a d op`. -/
theorem test_words_families :
    decodeOp 0b00000000001000000100000010000001 0 = some (.add 1 4 16) ∧
    decodeOp 0b11111111111111110000000010010000 0 = some (.addi 1 16 0x7FFF) ∧
    decodeOp 0b00000000000010100001111110100000 0 = some (.ldw 31 1 5) ∧
    decodeOp 0b00000000000001101111000010101001 0 = some (.sttw 1 15 3) ∧
    decodeOp 0b00011111111111110010000000110000 0 = some (.branch 2 0x1FFF) ∧
    decodeOp 0b00010000000000000000010010110011 0 = some (.loop 9 0x1000) ∧
    decodeOp 0b00000000000000000000000000110101 0 = some .halt ∧
    decodeOp 0b00101011010000000010001001000100 0 = some (.commitev 4 2 0xAD) ∧
    decodeOp 0b00010011011000100000001011001000 0 = some (.wait 5 0x4D 17) ∧
    decodeOp 0b00000000000001000000000001010001 0 = some (.release 2) ∧
    decodeOp 0b00000000011001000111110001010011 0 = none ∧
    decodeOp 0b00000000001000000111110001010011 0 = some (.mbx 24 7 0 1) ∧
    decodeOp 0b00000000000111100000000001010110 0 = some (.semgive 15) := by
  decide +kernel

/-- 12 R314: reserved encodings: no row, a field that its row marks 0, an odd pair, a reserved value. -/
theorem test_words_reserved :
    decodeOp 0 0 = none ∧ decodeOp 0x7F 0 = none ∧ decodeOp 0x0F 0 = none ∧ decodeOp 0xB5 0 = none ∧ decodeOp 0x00400081 0 = none ∧
    decodeOp 0x000000CB 0 = none ∧ decodeOp 0x00400046 0 = none ∧ decodeOp 0x0010004A 0 = none := by
  decide +kernel

/-! ### Worked examples of the spec -/

/-- 01: the path of `die1.bay0.ch2.slice1.macro17`, and of lane 17 of the same slice on die 0. -/
theorem test_path : pathCode 2 1 1 0 1 2 1 1 2 17 0 = 0x4904210120110000 ∧ pathCode 2 0 1 0 1 2 1 1 1 17 0 = 0x4104210110110000 := by decide +kernel

/-- 02: a COMMIT of 20 writes that retires at 5,000,000 transfers up to 5,000,384 and applies from 5,000,704 on. -/
theorem test_commit :
    let g := (coreRuns (fun c => { c with openGrp := List.replicate 20 .zero })).newGroup 3 (.tick 5000200 true) 5000000
    g.tEnd = 5000384 ∧ g.bMin = 5000704 := by
  decide +kernel

/-- 04: the slot map of SPAN4 on IN0 with the initial map. -/
theorem test_slot_map :
    let s := (withRegs [(R.spanCtrl, 2), (R.convCtrl 0, 1)] { plain with mode := { plain.mode with mode := 2 } }).setMap 0 0
    let t := s.modInput 0 (fun x => { x with running := true })
    t.slotMapWord 0 0 = 0x09030600 ∧ t.slotMapWord 0 1 = 0x0A040701 ∧ t.slotMapWord 0 2 = 0x0B080502 := by
  decide +kernel

/-- 05 R124: a raw code of 500 under OFFSET 410 and GAIN 263,325. -/
theorem test_slice_word : sliceWord 500 410 263325 = 8010 := by decide +kernel

/-- 05 R138: the offset moves by 26 units of a step of 25.6, and the gain by 132 of 131.6. -/
theorem test_estimates :
    calMove 384 (4352, 10) 1 64 (-32768) 32767 = (410, false) ∧ (calMove 263193 (2634562, 10) 1 1310 0 524287).1 = 263325 := by
  decide +kernel

/-- 06: per-input correction, the three-tap FIR, a HIRES block and its P12 code. -/
theorem test_channel :
    inputWord 8010 (-64) 66560 false = (8139, false) ∧ firWord [16384, 32768, 16384] [8300, 8139, 8000] 16 = (8145, false) ∧
    decBlock 2 [8145, 8150, 8141, 8139, 8147] = [8144] ∧ p12Code 8144 = 509 := by
  decide +kernel

/-- 07: the straight line through 0 and 1,600 meets 1,000 after 2.5 ticks of four. -/
theorem test_line : crossDelta 4 1000 0 1600 none = 163840 := by decide +kernel

/-- 07 R194: the cubic through -48, -1, 4 and 75 touches 0 a third of the way and crosses it half way: the smaller root counts. -/
theorem test_cubic : crossDelta 4 0 (-1) 4 (some (-48, 75)) = 87381 := by decide +kernel

/-- 20 R500: the code of the nine digits under SMBus's polynomial. -/
theorem test_pec : pec [0x31, 0x32, 0x33, 0x34, 0x35, 0x36, 0x37, 0x38, 0x39] = 0xF4 := by decide +kernel

/-- 14: the mapping of DPA 0x05_8765_4A40 under the reset masks. -/
theorem test_xlate : plain.xlate 0x0587654A40 = 0x2B0ECA79 := by decide +kernel

/-- 16: the first words of the SEGMENT record of tap 37. -/
theorem test_tap_header : (recHeader 37 1 true false false false 0x4040 211 []) = [0x00250101, 0x4040, 211, 0] := by decide +kernel

/-- 18: a pixel of L1 over L0, and its colours under the reset matrix. -/
theorem test_pixel :
    (blend 193 700 300, blend 193 400 512, blend 193 700 512) = (602, 428, 654) ∧
    cscConvert (fun i => plain.reg (R.dspGlobM (i + 1))) (602, 428, 654) = (826, 551, 446) := by
  decide +kernel

/-- 18: the frame after one that starts at tick 2,000,000,000, of 4,400 by 2,250 pixels at 594 MHz. -/
theorem test_frame :
    let s := (withRegs [(R.dspTimM 0, 4400 * 65536), (R.dspTimM 2, 2250 * 65536), (R.dspTimM 4, 297 + 50 * 65536)] plain).modDsp
      (fun d => { d with running := true, first := false, startNum := 2000000000, startDen := 1 })
    boundaryOf s.nextFrame = 3333333376 := by
  decide +kernel

/-- 21: the STANDING units of eight SPAN1 signals. -/
theorem test_standing : plain.standingUnits 255 = { core := 152, conv := 96, hbm0 := 0, hbm1 := 0 } := by decide +kernel

/-! ### Single steps -/

/-- Register g of core 3 after an instruction, and its flags Z, N, C, V. -/
def after (o : Host.Outcome State Fault Refusal) (g : Nat) : Option (W32 × Bool × Bool × Bool × Bool) :=
  match o with
  | .next t => let c := t.core 3; some (c.rd g, c.fz, c.fn, c.fc, c.fv)
  | _ => none

/-- 12 R317: a sum that wraps sets carry, and one of two negative numbers that is not negative sets overflow. -/
theorem test_add : after (exec (.add 3 4 5 6) (coreRuns (withG [(5, 0x80000000), (6, 0x80000000)]))) 4 = some (0, true, false, true, true) := by
  decide +kernel

/-- 12 R317: C of a difference is set when nothing is borrowed. -/
theorem test_sub : after (exec (.sub 3 4 5 5) (coreRuns (withG [(5, 7)]))) 4 = some (0, true, false, true, false) ∧
    after (exec (.cmpi 3 5 8) (coreRuns (withG [(5, 7)]))) 5 = some (7, false, true, false, false) := by
  decide +kernel

/-- 12 R318: an arithmetic shift fills with the sign; the upper half of an unsigned product. -/
theorem test_shift : after (exec (.sari 3 4 5 4) (coreRuns (withG [(5, 0x80000018)]))) 4 = some (0xF8000001, false, true, true, false) ∧
    after (exec (.mulhu 3 4 5 5) (coreRuns (withG [(5, 0xFFFFFFFF)]))) 4 = some (0xFFFFFFFE, false, true, true, false) := by
  decide +kernel

/-- 12 R320: a word loaded from DMEM, least significant byte first. -/
theorem test_load :
    after (exec (.ldw 3 4 5 0x7FFC) (coreRuns (fun c => { withG [(5, 0x104)] c with dmem := Mem.write [] 0x100 [0x78, 0x56, 0x34, 0x12] }))) 4 =
      some (0x12345678, false, false, true, false) := by
  decide +kernel

/-- 00 R7, 12 R320: a word stored reads back byte by byte. -/
theorem test_store :
    (match exec (.stw 3 4 5 0) (coreRuns (withG [(4, 0x12345678), (5, 0x100)])) with
     | .next t => (List.range 6).map (fun i => Mem.byte (t.core 3).dmem (0xFF + i))
     | _ => []) = [0, 0x78, 0x56, 0x34, 0x12, 0] := by
  decide +kernel

/-- 12 R321, 02 R66: a pair of words that are not complements faults the core with TWIN, at the address of the first. -/
theorem test_twin :
    (match exec (.ldtw 3 4 5 2) (coreRuns (fun c => { withG [(5, 0x100)] c with dmem := Mem.setWords [] 0x100 [1, 2, 0xFFFFFFFE, 2] })) with
     | .next t => some ((t.core 3).run, fld (t.core 3).cause 0 8, (t.core 3).info)
     | _ => none) = some (.faulted, 5, 0x104) := by
  decide +kernel

/-- 23 R575: the IDCODE instruction stands, and the port shifts out the identity with the stepping on top. -/
theorem test_idcode :
    (match exec .jtagIdcode plain with
     | .next t => some t.jtag.ir
     | _ => none) = some 0x02 := by
  decide +kernel

/-- Every mapping mask of the small state is stored with its complement. -/
theorem plain_masks : ∀ m ∈ plain.mem.masks, m.2 = ~~~ m.1 := fun m hm =>
  eq_of_beq (List.all_eq_true.1 (by decide +kernel : plain.mem.masks.all (fun m => m.2 == ~~~ m.1) = true) m hm)


/-! ### Hypotheses that are met: for each statement with hypotheses, a state and operands that meet those of each of its clauses -/

theorem witness_AddAndSubtractSetResultAndFlags :
    (∃ (s : State) (q : Fin 16) (gd : Fin 32) (ga : Fin 32) (gb : Fin 32), s.ready q (.add gd ga gb)) ∧
    (∃ (s : State) (q : Fin 16) (gd : Fin 32) (ga : Fin 32) (gb : Fin 32), s.ready q (.addc gd ga gb)) ∧
    (∃ (s : State) (q : Fin 16) (gd : Fin 32) (ga : Fin 32) (gb : Fin 32), s.ready q (.sub gd ga gb)) ∧
    (∃ (s : State) (q : Fin 16) (gd : Fin 32) (ga : Fin 32) (gb : Fin 32), s.ready q (.subc gd ga gb)) ∧
    (∃ (s : State) (q : Fin 16) (gd : Fin 32) (ga : Fin 32) (imm : BitVec 15), s.ready q (.addi gd ga imm)) ∧
    (∃ (s : State) (q : Fin 16) (ga : Fin 32) (gb : Fin 32), s.ready q (.cmp ga gb)) ∧
    (∃ (s : State) (q : Fin 16) (ga : Fin 32) (imm : BitVec 15), s.ready q (.cmpi ga imm)) := by
  refine ⟨⟨coreRuns id, 3, 31, 9, 20, by decide +kernel⟩,
    ⟨coreRuns id, 3, 31, 9, 20, by decide +kernel⟩,
    ⟨coreRuns id, 3, 31, 9, 20, by decide +kernel⟩,
    ⟨coreRuns id, 3, 31, 9, 20, by decide +kernel⟩,
    ⟨coreRuns id, 3, 31, 9, 0x4000, by decide +kernel⟩,
    ⟨coreRuns id, 3, 9, 20, by decide +kernel⟩,
    ⟨coreRuns id, 3, 9, 0x4000, by decide +kernel⟩⟩

theorem witness_LogicProductsAndShiftsSetFlags :
    (∃ (s : State) (q : Fin 16) (gd : Fin 32) (ga : Fin 32) (gb : Fin 32), s.ready q (.and gd ga gb)) ∧
    (∃ (s : State) (q : Fin 16) (gd : Fin 32) (ga : Fin 32) (gb : Fin 32), s.ready q (.or gd ga gb)) ∧
    (∃ (s : State) (q : Fin 16) (gd : Fin 32) (ga : Fin 32) (gb : Fin 32), s.ready q (.xor gd ga gb)) ∧
    (∃ (s : State) (q : Fin 16) (ga : Fin 32) (gb : Fin 32), s.ready q (.tst ga gb)) ∧
    (∃ (s : State) (q : Fin 16) (gd : Fin 32) (ga : Fin 32) (imm : BitVec 15), s.ready q (.andi gd ga imm)) ∧
    (∃ (s : State) (q : Fin 16) (gd : Fin 32) (ga : Fin 32) (imm : BitVec 15), s.ready q (.ori gd ga imm)) ∧
    (∃ (s : State) (q : Fin 16) (gd : Fin 32) (ga : Fin 32) (imm : BitVec 15), s.ready q (.xori gd ga imm)) ∧
    (∃ (s : State) (q : Fin 16) (gd : Fin 32) (ga : Fin 32) (gb : Fin 32), s.ready q (.mul gd ga gb)) ∧
    (∃ (s : State) (q : Fin 16) (gd : Fin 32) (ga : Fin 32) (gb : Fin 32), s.ready q (.mulhu gd ga gb)) ∧
    (∃ (s : State) (q : Fin 16) (gd : Fin 32) (w : W32), s.ready q (.li gd w)) ∧
    (∃ (s : State) (q : Fin 16) (gd : Fin 32) (ga : Fin 32) (gb : Fin 32), s.ready q (.shl gd ga gb)) ∧
    (∃ (s : State) (q : Fin 16) (gd : Fin 32) (ga : Fin 32) (gb : Fin 32), s.ready q (.shr gd ga gb)) ∧
    (∃ (s : State) (q : Fin 16) (gd : Fin 32) (ga : Fin 32) (gb : Fin 32), s.ready q (.sar gd ga gb)) ∧
    (∃ (s : State) (q : Fin 16) (gd : Fin 32) (ga : Fin 32) (imm : BitVec 15), s.ready q (.shli gd ga imm)) ∧
    (∃ (s : State) (q : Fin 16) (gd : Fin 32) (ga : Fin 32) (imm : BitVec 15), s.ready q (.shri gd ga imm)) ∧
    (∃ (s : State) (q : Fin 16) (gd : Fin 32) (ga : Fin 32) (imm : BitVec 15), s.ready q (.sari gd ga imm)) := by
  refine ⟨⟨coreRuns id, 3, 31, 9, 20, by decide +kernel⟩,
    ⟨coreRuns id, 3, 31, 9, 20, by decide +kernel⟩,
    ⟨coreRuns id, 3, 31, 9, 20, by decide +kernel⟩,
    ⟨coreRuns id, 3, 9, 20, by decide +kernel⟩,
    ⟨coreRuns id, 3, 31, 9, 31, by decide +kernel⟩,
    ⟨coreRuns id, 3, 31, 9, 31, by decide +kernel⟩,
    ⟨coreRuns id, 3, 31, 9, 31, by decide +kernel⟩,
    ⟨coreRuns id, 3, 31, 9, 20, by decide +kernel⟩,
    ⟨coreRuns id, 3, 31, 9, 20, by decide +kernel⟩,
    ⟨coreRuns id, 3, 31, 0xFFFFFFFF, by decide +kernel⟩,
    ⟨coreRuns id, 3, 31, 9, 20, by decide +kernel⟩,
    ⟨coreRuns id, 3, 31, 9, 20, by decide +kernel⟩,
    ⟨coreRuns id, 3, 31, 9, 20, by decide +kernel⟩,
    ⟨coreRuns id, 3, 31, 9, 31, by decide +kernel⟩,
    ⟨coreRuns id, 3, 31, 9, 31, by decide +kernel⟩,
    ⟨coreRuns id, 3, 31, 9, 31, by decide +kernel⟩⟩

theorem witness_LoadsReadAndStoresChangeTheirBytes :
    (∃ (s : State) (q : Fin 16) (gd : Fin 32) (ga : Fin 32) (imm : BitVec 15) (m : Bool),
      let c := s.core q
      let a := (c.rd ga + imm.signExtend 32).toNat
      s.ready q (.ldw gd ga imm) ∧ access a 4 4 = some m) ∧
    (∃ (s : State) (q : Fin 16) (gd : Fin 32) (ga : Fin 32) (imm : BitVec 15) (m : Bool),
      let c := s.core q
      let a := (c.rd ga + imm.signExtend 32).toNat
      s.ready q (.ldb gd ga imm) ∧ access a 1 1 = some m) ∧
    (∃ (s : State) (q : Fin 16) (gd : Fin 32) (ga : Fin 32) (n : BitVec 4) (m : Bool),
      let c := s.core q
      let b := (c.rd ga).toNat
      let w := n.toNat
      let all := s.afterTurn q m b (8 * w) (2 * w) false [] gd w
      let ws := wordsOf (s.loaded all.2 q m b (8 * w))
      s.ready q (.ldtw gd ga n) ∧ access b 4 (8 * w) = some m ∧ (∀ j < w, ws.getD (w + j) 0 = ~~~ (ws.getD j 0))) ∧
    (∃ (s : State) (q : Fin 16) (gd : Fin 32) (ga : Fin 32) (imm : BitVec 15) (m : Bool),
      let c := s.core q
      let a := (c.rd ga + imm.signExtend 32).toNat
      s.ready q (.stw gd ga imm) ∧ access a 4 4 = some m) ∧
    (∃ (s : State) (q : Fin 16) (gd : Fin 32) (ga : Fin 32) (imm : BitVec 15) (m : Bool),
      let c := s.core q
      let a := (c.rd ga + imm.signExtend 32).toNat
      s.ready q (.stb gd ga imm) ∧ access a 1 1 = some m) ∧
    (∃ (s : State) (q : Fin 16) (gd : Fin 32) (ga : Fin 32) (n : BitVec 4) (m : Bool),
      let c := s.core q
      let b := (c.rd ga).toNat
      let w := n.toNat
      s.ready q (.sttw gd ga n) ∧ access b 4 (8 * w) = some m) ∧
    (∃ (s : State), s.smemJobs = []) ∧
    (∃ (s : State) (store : Bool), s.smemJobs = [] ∧ store = false) ∧
    (∃ (s : State) (q : Fin 16), (∀ j ∈ s.smemJobs, j.req ≠ q)) ∧
    (∃ (s : State) (q : Fin 16) (p : Fin 16) (e : Nat) (j : SmemJob),
      let place := fun (r : Fin 16) => (r.val + 16 - s.smemLast) % 17
      let meet := s.smemJobs = [j] ∧ s.smemNext = e ∧ s.smemLast ≤ 16 ∧ j.req = p ∧ j.start = e ∧ j.words = 1 ∧ j.left = 1 ∧ j.waited = 0
      meet ∧ place q < place p) ∧
    (∃ (s : State) (q : Fin 16) (p : Fin 16) (e : Nat) (j : SmemJob),
      let place := fun (r : Fin 16) => (r.val + 16 - s.smemLast) % 17
      let meet := s.smemJobs = [j] ∧ s.smemNext = e ∧ s.smemLast ≤ 16 ∧ j.req = p ∧ j.start = e ∧ j.words = 1 ∧ j.left = 1 ∧ j.waited = 0
      meet ∧ place p < place q) ∧
    (∃ (s : State) (q : Fin 16) (p : Fin 16) (e : Nat) (lo : Nat) (hi : Nat) (store : Bool) (j : SmemJob),
      let place := fun (r : Fin 16) => (r.val + 16 - s.smemLast) % 17
      let meet := s.smemJobs = [j] ∧ s.smemNext = e ∧ s.smemLast ≤ 16 ∧ j.req = p ∧ j.start = e ∧ j.words = 1 ∧ j.left = 1 ∧ j.waited = 0
      let same := store = false ∧ j.store = true ∧ j.lo = lo ∧ j.hi = lo + 4 ∧ hi = lo + 4
      meet ∧ same ∧ place q < place p) ∧
    (∃ (s : State) (q : Fin 16) (p : Fin 16) (e : Nat) (lo : Nat) (hi : Nat) (store : Bool) (j : SmemJob),
      let place := fun (r : Fin 16) => (r.val + 16 - s.smemLast) % 17
      let meet := s.smemJobs = [j] ∧ s.smemNext = e ∧ s.smemLast ≤ 16 ∧ j.req = p ∧ j.start = e ∧ j.words = 1 ∧ j.left = 1 ∧ j.waited = 0
      let same := store = false ∧ j.store = true ∧ j.lo = lo ∧ j.hi = lo + 4 ∧ hi = lo + 4
      meet ∧ same ∧ place p < place q) := by
  refine ⟨⟨coreRuns (fun c => { withG [(9, 0x1FF0)] c with dmem := Mem.setWord [] 0x1FFC 0x89ABCDEF }), 3, 9, 9, 12, false, by decide +kernel⟩,
    ⟨coreRuns (fun c => { withG [(9, 0x1FF0)] c with dmem := Mem.setWord [] 0x1FFC 0x89ABCDEF }), 3, 9, 9, 12, false, by decide +kernel⟩,
    ⟨coreRuns (fun c => { withG [(9, 0x100)] c with dmem := Mem.setWords [] 0x100 [1, 2, 3, ~~~ 1, ~~~ 2, ~~~ 3] }), 3, 29, 9, 3, false,
        by decide +kernel⟩,
    ⟨coreRuns (fun c => { withG [(9, 0x1FF0)] c with dmem := Mem.setWord [] 0x1FFC 0x89ABCDEF }), 3, 9, 9, 12, false, by decide +kernel⟩,
    ⟨coreRuns (fun c => { withG [(9, 0x1FF0)] c with dmem := Mem.setWord [] 0x1FFC 0x89ABCDEF }), 3, 9, 9, 12, false, by decide +kernel⟩,
    ⟨coreRuns (fun c => { withG [(9, 0x100)] c with dmem := Mem.setWords [] 0x100 [1, 2, 3, ~~~ 1, ~~~ 2, ~~~ 3] }), 3, 29, 9, 3, false,
        by decide +kernel⟩,
    ⟨{ plain with smem := Mem.setWord [] 12 0x89ABCDEF }, by decide +kernel⟩,
    ⟨{ plain with smem := Mem.setWord [] 12 0x89ABCDEF }, false, by decide +kernel⟩,
    ⟨{ plain with smemNext := 640, smemLast := 16, smemJobs := [turnJob 5 12 16 true 640 1 1] }, 3, by decide +kernel⟩,
    ⟨{ plain with smemNext := 640, smemLast := 16, smemJobs := [turnJob 5 12 16 true 640 1 1] }, 3, 5, 640, turnJob 5 12 16 true 640 1 1,
        by decide +kernel⟩,
    ⟨{ plain with smemNext := 640, smemLast := 4, smemJobs := [turnJob 5 12 16 true 640 1 1] }, 3, 5, 640, turnJob 5 12 16 true 640 1 1,
        by decide +kernel⟩,
    ⟨{ plain with smemNext := 640, smemLast := 16, smemJobs := [turnJob 5 12 16 true 640 1 1] }, 3, 5, 640, 12, 16, false,
        turnJob 5 12 16 true 640 1 1, by decide +kernel⟩,
    ⟨{ plain with smemNext := 640, smemLast := 4, smemJobs := [turnJob 5 12 16 true 640 1 1] }, 3, 5, 640, 12, 16, false,
        turnJob 5 12 16 true 640 1 1, by decide +kernel⟩⟩

theorem witness_FlowOfControl :
    (∃ (s : State) (q : Fin 16) (cond : BitVec 4) (off : BitVec 13), s.ready q (.branch cond off)) ∧
    (∃ (s : State) (q : Fin 16) (off : BitVec 13),
      let c := s.core q
      s.ready q (.call off) ∧ c.stack.length < 16) ∧
    (∃ (s : State) (q : Fin 16) (top : W32) (rest : List W32),
      let c := s.core q
      s.ready q .ret ∧ c.stack = top :: rest) ∧
    (∃ (s : State) (q : Fin 16) (ga : Fin 32) (off : BitVec 13), s.ready q (.loop ga off)) ∧
    (∃ (s : State) (q : Fin 16) (ga : Fin 32), s.ready q (.jr ga)) ∧
    (∃ (s : State) (q : Fin 16),
      let c := s.core q
      s.ready q .halt ∧ c.pc.toNat < 4095) ∧
    (∃ (s : State) (q : Fin 16), s.ready q .nop) := by
  refine ⟨⟨coreRuns id, 3, 3, 0x1FFF, by decide +kernel⟩,
    ⟨coreRuns id, 3, 0x1FFF, by decide +kernel⟩,
    ⟨coreRuns (fun c => { c with stack := [9, 8] }), 3, 9, [8], by decide +kernel⟩,
    ⟨coreRuns id, 3, 9, 0x1FFF, by decide +kernel⟩,
    ⟨coreRuns id, 3, 9, by decide +kernel⟩,
    ⟨coreRuns id, 3, by decide +kernel⟩,
    ⟨coreRuns id, 3, by decide +kernel⟩⟩

theorem witness_StagingAndReadsJoinTheCore :
    (∃ (s : State) (q : Fin 16) (gd : Fin 32) (ga : Fin 32) (imm : BitVec 15),
      let c := s.core q
      let a := ((c.rd ga + imm.signExtend 32) &&& 0xFFFFFF).toNat
      let mapped := a % 4 = 0 ∧ a < 0x800000
      s.ready q (.dwr gd ga imm) ∧ mapped ∧ c.openGrp.length < 256) ∧
    (∃ (s : State) (q : Fin 16) (ga : Fin 32) (imm : BitVec 15) (w : W32),
      let c := s.core q
      let a := ((c.rd ga + imm.signExtend 32) &&& 0xFFFFFF).toNat
      let mapped := a % 4 = 0 ∧ a < 0x800000
      s.ready q (.dwri ga imm w) ∧ mapped ∧ c.openGrp.length < 256) ∧
    (∃ (s : State) (q : Fin 16),
      let c := s.core q
      s.ready q (.syncz 0 0) ∧ c.openGrp.length < 256) ∧
    (∃ (s : State) (q : Fin 16) (ga : Fin 32),
      let c := s.core q
      s.ready q (.syncz ga 1) ∧ c.openGrp.length < 256) ∧
    (∃ (s : State) (q : Fin 16) (gd : Fin 32) (ga : Fin 32) (imm : BitVec 15),
      let c := s.core q
      let a := ((c.rd ga + imm.signExtend 32) &&& 0xFFFFFF).toNat
      let mapped := a % 4 = 0 ∧ a < 0x800000
      s.ready q (.drd gd ga imm) ∧ mapped ∧ c.drds.length < 4) := by
  refine ⟨⟨coreRuns (withG [(9, 0x7FFFF0)]), 3, 8, 9, 12, by decide +kernel⟩,
    ⟨coreRuns (withG [(9, 0x7FFFF0)]), 3, 9, 12, 0x55, by decide +kernel⟩,
    ⟨coreRuns (fun c => { c with openGrp := List.replicate 255 .zero }), 3, by decide +kernel⟩,
    ⟨coreRuns (fun c => { c with openGrp := List.replicate 255 .zero }), 3, 9, by decide +kernel⟩,
    ⟨coreRuns (withG [(9, 0x7FFFF0)]), 3, 8, 9, 12, by decide +kernel⟩⟩

theorem witness_CommitClosesTheOpenGroup :
    (∃ (s : State) (q : Fin 16) (gd : Fin 32) (ga : Fin 32) (discard : Bool),
      let c := s.core q
      s.ready q (.commit gd ga discard) ∧ c.groups.length < 8) ∧
    (∃ (s : State) (q : Fin 16) (gd : Fin 32) (ga : Fin 32) (src : BitVec 8),
      let c := s.core q
      s.ready q (.commitev gd ga src) ∧ c.groups.length < 8) ∧
    (∃ (s : State) (q : Fin 16) (gd : Fin 32) (ga : Fin 32) (st : W32 × W32),
      let c := s.core q
      s.ready q (.cwait gd ga) ∧ (c.rd ga).toNat < c.ticket.toNat ∧ c.groups.any (fun g => g.ticket == c.rd ga) = false ∧
          c.done.find? (fun x => x.1 == c.rd ga) = some st) := by
  refine ⟨⟨coreRuns (fun c => { withG [(8, 0x500), (9, 0)] c with openGrp := [.zero, .reg 0x40 7] }), 3, 4, 8, true, by decide +kernel⟩,
    ⟨coreRuns (fun c => { withG [(8, 0x500), (9, 0)] c with openGrp := [.zero, .reg 0x40 7] }), 3, 4, 8, 9, by decide +kernel⟩,
    ⟨coreRuns (fun c => { withG [(8, 5)] c with ticket := 6, done := [(5, 0x17, ), (4, 0x9)] }), 3, 4, 8, (5, 0x17), by decide +kernel⟩⟩

theorem witness_TimeAndEventInstructions :
    (∃ (s : State) (q : Fin 16) (gd : Fin 32), s.ready q (.tick gd)) ∧
    (∃ (s : State) (q : Fin 16) (gd : Fin 32) (gb : Fin 32) (src : BitVec 8), s.ready q (.wait gd src gb)) ∧
    (∃ (s : State) (q : Fin 16) (ga : Fin 32),
      let c := s.core q
      let e := s.startEdge q
      let now := s.countAt e
      let k := c.pair ga
      s.ready q (.waitt ga) ∧ now < k) ∧
    (∃ (s : State) (q : Fin 16) (ga : Fin 32),
      let c := s.core q
      let e := s.startEdge q
      let now := s.countAt e
      let k := c.pair ga
      s.ready q (.waitt ga) ∧ k ≤ now ∧ now < k + 64) ∧
    (∃ (s : State) (q : Fin 16) (ga : Fin 32),
      let c := s.core q
      let e := s.startEdge q
      let now := s.countAt e
      let k := c.pair ga
      s.ready q (.waitt ga) ∧ k + 64 ≤ now ∧ c.waitTrap = false) ∧
    (∃ (s : State) (q : Fin 16) (n : BitVec 4),
      let e := s.startEdge q
      let b := (s.begun q).boundaryFrom (e + 64)
      s.ready q (.sig n) ∧ s.fresh b (248 + n.toNat)) := by
  refine ⟨⟨coreRuns id, 3, 6, by decide +kernel⟩,
    ⟨coreRuns id, 3, 6, 9, 77, by decide +kernel⟩,
    ⟨coreRuns (withG [(8, 0xFFFF), (9, 0x100)]), 3, 8, by decide +kernel⟩,
    ⟨coreRuns (withG [(8, 1088), (9, 0x100)]), 3, 8, by decide +kernel⟩,
    ⟨coreRuns (withG [(8, 1024), (9, 0x100)]), 3, 8, by decide +kernel⟩,
    ⟨coreRuns id, 3, 7, by decide +kernel⟩⟩

theorem witness_PermitAndMailboxInstructions :
    (∃ (s : State) (q : Fin 16) (gd : Fin 32) (ga : Fin 32) (gb : Fin 32) (kind : BitVec 4),
      let c := s.core q
      let v := c.pair ga
      let u := permitUnits v
      s.ready q (.permit gd ga gb kind) ∧ v < 2 ^ 34 ∧ coreKind kind.toNat = true ∧ u.le s.limits = true ∧ s.findEntry q kind.toNat = none) ∧
    (∃ (s : State) (q : Fin 16) (gd : Fin 32) (ga : Fin 32) (gb : Fin 32) (kind : BitVec 4) (e0 : Nat),
      let c := s.core q
      let v := c.pair ga
      let u := permitUnits v
      s.ready q (.permit gd ga gb kind) ∧ v < 2 ^ 34 ∧ coreKind kind.toNat = true ∧ u.le s.limits = true ∧ s.granted q kind.toNat = some e0) ∧
    (∃ (s : State) (q : Fin 16) (kind : BitVec 4) (e0 : Nat), s.ready q (.release kind) ∧ s.findEntry q kind.toNat = some e0) ∧
    (∃ (s : State) (q : Fin 16) (gd : Fin 32) (n : BitVec 4) (try_ : Bool),
      let c := s.core q
      s.ready q (.mbx gd 0 n (if try_ then 2 else 0)) ∧ c.c2hFull = false) ∧
    (∃ (s : State) (q : Fin 16) (gd : Fin 32) (ga : Fin 32) (try_ : Bool),
      let c := s.core q
      s.ready q (.mbx gd ga 0 (if try_ then 3 else 1)) ∧ c.h2cFull = true ∧ gd.val + c.h2cCount ≤ 32 ∧ c.h2cCount ≤ 8) ∧
    (∃ (s : State) (q : Fin 16) (gd : Fin 32) (n : BitVec 4) (try_ : Bool), s.ready q (.mbx gd 0 n (if try_ then 6 else 4)) ∧ (s.mslot (q +
        1)).full = false ∧ s.mgtServes = true) ∧
    (∃ (s : State) (q : Fin 16) (gd : Fin 32) (ga : Fin 32) (try_ : Bool), s.ready q (.mbx gd ga 0 (if try_ then 7 else 5)) ∧ (s.mslot (q +
        1)).valid = true ∧ (s.mslot (q + 1)).ans.length = 8 ∧ gd.val ≤ 24) := by
  refine ⟨⟨coreRuns (withG [(8, 0x201), (9, 0)]), 3, 4, 8, 2, 1, by decide +kernel⟩,
    ⟨(coreRuns (withG [(8, 0x201), (9, 0)])).setEntry 5 (entryVal 1 3 3 { core := 1, conv := 2, hbm0 := 3, hbm1 := 0 }), 3, 4, 8, 5, 1, 5,
        by decide +kernel⟩,
    ⟨(coreRuns id).setEntry 5 (entryVal 1 3 3 { core := 1, conv := 2, hbm0 := 3, hbm1 := 0 }), 3, 1, 5, by decide +kernel⟩,
    ⟨coreRuns id, 3, 24, 8, false, by decide +kernel⟩,
    ⟨coreRuns (fun c => { c with h2cFull := true, h2cCount := 8, h2c := Vector.ofFn (fun i : Fin 8 => BitVec.ofNat 32 (i.val + 100)) }), 3, 24,
        25, false, by decide +kernel⟩,
    ⟨coreRuns id, 3, 24, 8, false, by decide +kernel⟩,
    ⟨(coreRuns id).modSlot 4 (fun x => { x with valid := true, ans := [1, 2, 3, 4, 5, 6, 7, 8] }), 3, 24, 26, false, by decide +kernel⟩⟩

theorem witness_SemaphoreInstructions :
    (∃ (s : State) (q : Fin 16) (n : BitVec 4),
      let x := s.sem n.toNat
      s.ready q (.semtake n) ∧ x.owner = none) ∧
    (∃ (s : State) (q : Fin 16) (n : BitVec 4),
      let x := s.sem n.toNat
      s.ready q (.semtry n) ∧ x.owner = none) ∧
    (∃ (s : State) (q : Fin 16) (n : BitVec 4) (w : Fin 16),
      let e := s.startEdge q
      let x := s.sem n.toNat
      s.ready q (.semtake n) ∧ x.owner = some w.val ∧ w ≠ q ∧ s.semRival n.toNat q e = none) ∧
    (∃ (s : State) (q : Fin 16) (n : BitVec 4) (w : Fin 16),
      let e := s.startEdge q
      s.ready q (.semtake n) ∧ s.semRival n.toNat q e = some w) ∧
    (∃ (s : State) (q : Fin 16) (n : BitVec 4) (w : Fin 16),
      let e := s.startEdge q
      s.ready q (.semtry n) ∧ s.semRival n.toNat q e = some w) ∧
    (∃ (s : State) (q : Fin 16) (n : BitVec 4) (w : Fin 16),
      let e := s.startEdge q
      let x := s.sem n.toNat
      s.ready q (.semtry n) ∧ x.owner = some w.val ∧ w ≠ q ∧ s.semRival n.toNat q e = none) ∧
    (∃ (s : State) (q : Fin 16) (n : BitVec 4),
      let x := s.sem n.toNat
      s.ready q (.semgive n) ∧ x.owner = some q.val ∧ x.nextWaiter = none) ∧
    (∃ (s : State) (q : Fin 16) (n : BitVec 4) (w : Fin 16),
      let x := s.sem n.toNat
      s.ready q (.semgive n) ∧ x.owner = some q.val ∧ x.nextWaiter = some w.val ∧ w ≠ q) := by
  refine ⟨⟨coreRuns id, 3, 15, by decide +kernel⟩,
    ⟨coreRuns id, 3, 15, by decide +kernel⟩,
    ⟨(coreRuns id).modSem 2 (fun x => { x with owner := some 7 }), 3, 2, 7, by decide +kernel⟩,
    ⟨((coreRuns id).modCore 7 (fun c => { c with run := .running, edge := 1152 })).modSem 2 (fun x => { x with owner := some 7, last := 7, prev := 2, took := some 1088 }), 3, 2, 7, by decide +kernel⟩,
    ⟨((coreRuns id).modCore 7 (fun c => { c with run := .running, edge := 1152 })).modSem 2 (fun x => { x with owner := some 7, last := 7, prev := 2, took := some 1088 }), 3, 2, 7, by decide +kernel⟩,
    ⟨(coreRuns id).modSem 2 (fun x => { x with owner := some 7 }), 3, 2, 7, by decide +kernel⟩,
    ⟨(coreRuns id).modSem 2 (fun x => { x with owner := some 3 }), 3, 2, by decide +kernel⟩,
    ⟨((coreRuns id).modCore 7 (fun c => { c with run := .blocked, waiting := some (.semtake 2) })).modSem 2 (fun x => { x with owner := some 3, last := 3, waiters := [7, 2] }), 3, 2, 7, by decide +kernel⟩⟩

theorem witness_FaultingInstructionsHaltTheCore :
    (∃ (s : State) (q : Fin 16) (gd : Fin 32) (ga : Fin 32) (imm : BitVec 15),
      let c := s.core q
      let a := c.rd ga + imm.signExtend 32
      s.ready q (.ldw gd ga imm) ∧ access a.toNat 4 4 = none) ∧
    (∃ (s : State) (q : Fin 16) (gd : Fin 32) (ga : Fin 32) (imm : BitVec 15),
      let c := s.core q
      let a := c.rd ga + imm.signExtend 32
      s.ready q (.stw gd ga imm) ∧ access a.toNat 4 4 = none) ∧
    (∃ (s : State) (q : Fin 16) (gd : Fin 32) (ga : Fin 32) (n : BitVec 4) (j : Nat),
      let c := s.core q
      s.ready q (.ldtw gd ga n) ∧ access (c.rd ga).toNat 4 (8 * n.toNat) = some false ∧ j < n.toNat ∧ (∀ k < j, Mem.word c.dmem ((c.rd ga).toNat +
          4 * (n.toNat + k)) = ~~~ Mem.word c.dmem ((c.rd ga).toNat + 4 * k)) ∧ Mem.word c.dmem ((c.rd ga).toNat + 4 * (n.toNat +
          j)) ≠ ~~~ Mem.word c.dmem ((c.rd ga).toNat + 4 * j)) ∧
    (∃ (s : State) (q : Fin 16) (gd : Fin 32) (ga : Fin 32) (imm : BitVec 15),
      let c := s.core q
      let a := c.rd ga + imm.signExtend 32
      let dcs := a &&& 0xFFFFFF
      s.ready q (.dwr gd ga imm) ∧ (dcs.toNat % 4 ≠ 0 ∨ 0x800000 ≤ dcs.toNat)) ∧
    (∃ (s : State) (q : Fin 16) (gd : Fin 32) (ga : Fin 32) (imm : BitVec 15),
      let c := s.core q
      let a := c.rd ga + imm.signExtend 32
      let dcs := a &&& 0xFFFFFF
      s.ready q (.dwr gd ga imm) ∧ dcs.toNat % 4 = 0 ∧ dcs.toNat < 0x800000 ∧ 256 ≤ c.openGrp.length) ∧
    (∃ (s : State) (q : Fin 16) (gd : Fin 32) (ga : Fin 32) (imm : BitVec 15),
      let c := s.core q
      let a := c.rd ga + imm.signExtend 32
      let dcs := a &&& 0xFFFFFF
      s.ready q (.drd gd ga imm) ∧ (dcs.toNat % 4 ≠ 0 ∨ 0x800000 ≤ dcs.toNat)) ∧
    (∃ (s : State) (q : Fin 16) (off : BitVec 13),
      let c := s.core q
      s.ready q (.call off) ∧ c.stack.length = 16) ∧
    (∃ (s : State) (q : Fin 16),
      let c := s.core q
      s.ready q .ret ∧ c.stack = []) ∧
    (∃ (s : State) (q : Fin 16) (kind : BitVec 4), s.ready q (.release kind) ∧ s.findEntry q kind.toNat = none) ∧
    (∃ (s : State) (q : Fin 16) (n : BitVec 4), s.ready q (.semgive n) ∧ (s.sem n.toNat).owner ≠ some q.val) ∧
    (∃ (s : State) (q : Fin 16) (op : Op) (i : Instr),
      let c := s.core q
      s.up ∧ c.run = .running ∧ i.op = some (q, op) ∧ op.ok = false ∧ c.pc.toNat + op.size ≤ 4096) ∧
    (∃ (s : State) (q : Fin 16) (op : Op) (i : Instr),
      let c := s.core q
      s.up ∧ c.run = .running ∧ i.op = some (q, op) ∧ 4096 ≤ c.pc.toNat) := by
  refine ⟨⟨coreRuns (withG [(9, 0x8000)]), 3, 2, 9, 0, by decide +kernel⟩,
    ⟨coreRuns (withG [(9, 0x8000)]), 3, 2, 9, 0, by decide +kernel⟩,
    ⟨coreRuns (fun c => { withG [(9, 0x100)] c with dmem := Mem.setWords [] 0x100 [1, 2, 3, ~~~ 1, 7, ~~~ 3] }), 3, 29, 9, 3, 1, by decide +kernel⟩,
    ⟨coreRuns (withG [(9, 0x800000)]), 3, 2, 9, 0, by decide +kernel⟩,
    ⟨coreRuns (fun c => { withG [(9, 0x100)] c with openGrp := List.replicate 256 .zero }), 3, 2, 9, 0, by decide +kernel⟩,
    ⟨coreRuns (withG [(9, 0x800000)]), 3, 2, 9, 0, by decide +kernel⟩,
    ⟨coreRuns (fun c => { c with stack := List.replicate 16 9 }), 3, 9, by decide +kernel⟩,
    ⟨coreRuns id, 3, by decide +kernel⟩,
    ⟨coreRuns id, 3, 2, by decide +kernel⟩,
    ⟨coreRuns id, 3, 2, by decide +kernel⟩,
    ⟨coreRuns id, 3, .ldtw 4 9 0, .ldtw 3 4 9 0, by decide +kernel⟩,
    ⟨coreRuns (fun c => { c with pc := 4096 }), 3, .add 1 2 3, .add 3 1 2 3, by decide +kernel⟩⟩

theorem witness_OutstandingReadsAndWaitsEnd :
    (∃ (s : State) (q : Fin 16) (d : Drd),
      let c := s.core q
      s.up ∧ c.drds = [d] ∧ s.drdExpiry q d = none ∧ d.val = none ∧ 0 < d.gd ∧ d.gd < 32 ∧ c.waiting = none) ∧
    (∃ (s : State) (q : Fin 16) (d : Drd) (i : Nat) (x : Nat) (y : Nat), s.up ∧ s.drdNext q = some (i, d, x) ∧ s.drdExpiry q d = some y) ∧
    (∃ (s : State) (q : Fin 16) (gd : Nat) (src : Nat) (start : Nat) (tmo : Nat) (x : Nat) (low : W32),
      let c := s.core q
      s.up ∧ c.waiting = some (.wait gd src start tmo (some (x, low))) ∧ (tmo = 0 ∨ x < start + 64 * tmo) ∧ gd < 32) ∧
    (∃ (s : State) (q : Fin 16) (gd : Nat) (src : Nat) (start : Nat) (tmo : Nat),
      let c := s.core q
      s.up ∧ c.waiting = some (.wait gd src start tmo none) ∧ tmo ≠ 0 ∧ c.waitTrap = false) ∧
    (∃ (s : State) (q : Fin 16) (gd : Nat) (src : Nat) (start : Nat) (tmo : Nat),
      let c := s.core q
      s.up ∧ c.waiting = some (.wait gd src start tmo none) ∧ tmo ≠ 0 ∧ c.waitTrap = true) ∧
    (∃ (s : State) (q : Fin 16) (x : Nat) (k : Nat) (missed : Bool),
      let c := s.core q
      s.up ∧ c.waiting = some (.waitt k x missed) ∧ c.waitTrap = false) ∧
    (∃ (s : State) (q : Fin 16) (gd : Nat) (w : Nat) (n : Nat),
      let c := s.core q
      s.up ∧ c.waiting = some (.mbxSend gd n) ∧ c.met = some w ∧ c.c2hFull = false) ∧
    (∃ (s : State) (q : Fin 16) (gd : Nat) (ga : Nat) (w : Nat),
      let c := s.core q
      s.up ∧ c.waiting = some (.mbxRecv gd ga) ∧ c.met = some w ∧ c.h2cFull = true ∧ ga < 32) := by
  refine ⟨⟨coreRuns (fun c => { c with drds := [{ gd := 8, addr := 0x10, issued := 1088, due := 1600, pc := 9, val := none }] }),
      3, { gd := 8, addr := 0x10, issued := 1088, due := 1600, pc := 9, val := none }, by decide +kernel⟩,
    ⟨coreRuns (fun c => { c with drdTimeout := 2, drds := [{ gd := 8, addr := 0x10, issued := 1088, due := 1600, pc := 9, val := none }] }),
        3, { gd := 8, addr := 0x10, issued := 1088, due := 1600, pc := 9, val := none }, 0, 1216, 1216, by decide +kernel⟩,
    ⟨coreRuns (fun c => { c with run := .blocked, waiting := some (.wait 31 77 900 5 (some (1152, 99))) }), 3, 31, 77, 900, 5, 1152, 99,
        by decide +kernel⟩,
    ⟨coreRuns (fun c => { c with run := .blocked, waiting := some (.wait 31 77 1088 5 none) }), 3, 31, 77, 1088, 5, by decide +kernel⟩,
    ⟨coreRuns (fun c => { c with run := .blocked, waitTrap := true, waiting := some (.wait 31 77 1088 5 none) }), 3, 31, 77, 1088, 5,
        by decide +kernel⟩,
    ⟨coreRuns (fun c => { c with run := .blocked, waiting := some (.waitt 0x10000001000 4096 true) }), 3, 4096, 0x10000001000, true,
        by decide +kernel⟩,
    ⟨coreRuns (fun c => { c with run := .blocked, waiting := some (.mbxSend 4 7), met := some 1111 }), 3, 4, 1111, 7, by decide +kernel⟩,
    ⟨coreRuns (fun c => { c with run := .blocked, waiting := some (.mbxRecv 4 31), met := some 1111, h2cFull := true, h2cCount := 5 }), 3, 4, 31,
        1111, by decide +kernel⟩⟩

theorem witness_GroupsLiveAndComplete :
    (∃ (s : State) (q : Fin 16) (gd : Nat) (w : Nat) (cond : GroupCond),
      let c := s.core q
      s.up ∧ c.waiting = some (.slot gd cond) ∧ c.met = some w ∧ c.groups.length < 8 ∧ gd < 32) ∧
    (∃ (s : State) (q : Fin 16) (g : Group),
      let c := s.core q
      s.up ∧ c.groups.find? (fun y => !y.armed) = some g) ∧
    (∃ (s : State) (q : Fin 16) (b : Nat) (g : Group) (ticket : W32),
      let c := s.core q
      s.up ∧ c.groups.find? (fun y => y.ticket == ticket) = some g ∧ g.armed = true ∧ g.seen = some b ∧ g.due = none) ∧
    (∃ (s : State) (q : Fin 16) (x : Nat) (g : Group) (ticket : W32),
      let c := s.core q
      s.up ∧ c.groups.find? (fun y => y.ticket == ticket) = some g ∧ g.expire = some x ∧ g.seen = none) ∧
    (∃ (s : State) (q : Fin 16) (b : Nat) (g : Group),
      let c := s.core q
      s.up ∧ s.nextDue = some b ∧ g ∈ c.groups ∧ g.due = some b) ∧
    (∃ (s : State) (q : Fin 16) (b : Nat) (g : Group) (v : W32), s.up ∧ s.nextDue = some b ∧ s.dueAt b = [(q, g)] ∧ g.writes = [.reg R.nodLead v] ∧
        g.late = false ∧ s.twinFails g = false) := by
  refine ⟨⟨coreRuns (fun c => { c with run := .blocked, waiting := some (.slot 8 (.tick 0x10000000900 true)), met := some 1200, openGrp := [.zero], ticket := 9, groups := (List.range 7).map (fun i => groupOf i (.event 9 0)) }), 3, 8, 1200, .tick 0x10000000900 true, by decide +kernel⟩,
    ⟨coreRuns (fun c => { c with groups := [{ groupOf 1 (.event 9 0) with armed := true }, groupOf 2 (.tick 0x10000000900 true)] }), 3,
        groupOf 2 (.tick 0x10000000900 true), by decide +kernel⟩,
    ⟨coreRuns (fun c => { c with groups := [{ groupOf 1 (.event 9 0) with armed := true, seen := some 1408 }, groupOf 2 (.event 9 0)] }), 3,
        1408, { groupOf 1 (.event 9 0) with armed := true, seen := some 1408 }, 1, by decide +kernel⟩,
    ⟨coreRuns (fun c => { c with groups := [groupOf 2 (.event 9 0), { groupOf 1 (.event 9 7) with armed := true, expire := some 2048 }] }), 3,
        2048, { groupOf 1 (.event 9 7) with armed := true, expire := some 2048 }, 1, by decide +kernel⟩,
    ⟨coreRuns (fun c => { c with groups := [groupOf 2 (.event 9 0), { groupOf 1 (.event 9 7) with armed := true, due := some 2048 }] }), 3,
        2048, { groupOf 1 (.event 9 7) with armed := true, due := some 2048 }, by decide +kernel⟩,
    ⟨coreRuns (fun c => { c with groups := [groupOf 2 (.event 9 0), { groupOf 1 (.event 9 7) with armed := true, writes := [.reg R.nodLead 0x1234567], due := some 2048 }] }), 3, 2048, { groupOf 1 (.event 9 7) with armed := true, writes := [.reg R.nodLead 0x1234567], due := some 2048 }, 0x1234567, by decide +kernel⟩⟩

theorem witness_HostControlsTheCores :
    (∃ (s : State) (q : Fin 16) (w : W32),
      let c := s.core q
      s.up ∧ seqAction w = 0 ∧ (c.run = .halted ∨ c.run = .faulted)) ∧
    (∃ (s : State) (q : Fin 16) (w : W32),
      let c := s.core q
      s.up ∧ seqAction w = 1 ∧ c.run = .halted) ∧
    (∃ (s : State) (q : Fin 16) (w : W32),
      let c := s.core q
      s.up ∧ seqAction w = 2 ∧ c.run = .running) ∧
    (∃ (s : State) (q : Fin 16) (w : W32),
      let c := s.core q
      s.up ∧ seqAction w = 3 ∧ c.run = .halted ∧ c.drds = [] ∧ c.pc.toNat < 4095 ∧ decodeOp (c.imemWord c.pc.toNat) (c.imemWord (c.pc.toNat +
          1)) = some .nop) ∧
    (∃ (s : State) (q : Fin 16) (w : W32),
      let c := s.core q
      s.up ∧ seqAction w = 4 ∧ c.run = .running ∧ (∀ n < 16, (s.sem n).waiters.contains q.val = false)) ∧
    (∃ (s : State) (q : Fin 16),
      let c := s.core q
      s.up ∧ c.run = .halting ∧ c.drds = []) ∧
    (∃ (s : State), s.up) ∧
    (∃ (s : State), s.up ∧ (∀ n < 16, (s.sem n).waiters = [])) ∧
    (∃ (s : State), s.up) := by
  refine ⟨⟨coreRuns (fun c => { c with run := .faulted, openGrp := [.zero], groups := [groupOf 1 (.event 9 7)] }), 3, 0xFFF21, by decide +kernel⟩,
    ⟨coreRuns (fun c => { c with run := .halted }), 3, 0x02, by decide +kernel⟩,
    ⟨coreRuns (fun c => { c with openGrp := [.zero], drds := [{ gd := 8, addr := 0x10, issued := 1088, due := 1600, pc := 9, val := none }] }), 3,
        0x04, by decide +kernel⟩,
    ⟨coreRuns (fun c => { c with run := .halted, imem := Mem.setWords [] 40 Op.nop.words }), 3, 0x08, by decide +kernel⟩,
    ⟨(coreRuns (fun c => { c with stack := [3], openGrp := [.zero], groups := [groupOf 1 (.event 9 7)] })).modSem 4 (fun x => { x with owner := some 3 }), 3, 0x510, by decide +kernel⟩,
    ⟨coreRuns (fun c => { c with run := .halting }), 3, by decide +kernel⟩,
    ⟨coreRuns (fun c => { c with startPc := 77, run := .faulted }), by decide +kernel⟩,
    ⟨(plain.modSem 4 (fun x => { x with owner := some 3 })).modSem 5 (fun x => { x with owner := some 9 }), by decide +kernel⟩,
    ⟨coreRuns (fun c => { c with openGrp := [.zero], groups := [groupOf 1 (.event 9 7), { groupOf 2 (.event 9 7) with due := some 4096 }] }),
        by decide +kernel⟩⟩

theorem witness_HostWindowsAndRegisters :
    (∃ (s : State) (q : Fin 16) (w : W32),
      let c := s.core q
      s.up ∧ w.getLsbD 8 = true ∧ c.h2cFull = false ∧ 1 ≤ w.toNat % 16 ∧ w.toNat % 16 ≤ 8) ∧
    (∃ (s : State), s.up) ∧
    (∃ (s : State) (q : Fin 16) (off : BitVec 16),
      let c := s.core q
      s.up ∧ (c.run = .halted ∨ c.run = .faulted) ∧ off.toNat < 0x4000 ∧ off.toNat % 4 = 0) ∧
    (∃ (s : State), s.up) := by
  refine ⟨⟨coreRuns (fun c => { c with h2c := Vector.ofFn (fun i : Fin 8 => BitVec.ofNat 32 (i.val + 100)) }), 3, 0x108, by decide +kernel⟩,
    ⟨coreRuns (fun c => { c with c2hFull := true, c2hCount := 3 }), by decide +kernel⟩,
    ⟨coreRuns (fun c => { c with run := .halted, imem := [(0x3FFB, 1), (0x3FFC, 9), (0x3FFF, 3)] }), 3, 0x3FFC, by decide +kernel⟩,
    ⟨withRegs [(R.evtStatus 7, 0xFFFF0000), (R.evtStatus 6, 0x5)] plain, by decide +kernel⟩⟩

theorem witness_ReferencePathAndCountWrap :
    (∃ (s : State), s.up ∧ (s.ref.state = .locked ∨ s.ref.state = .acquiring) ∧ s.fresh s.boundary 0) ∧
    (∃ (s : State), s.up ∧ (s.ref.state = .free ∨ s.ref.state = .holdover) ∧ s.refSel ≠ 3) ∧
    (∃ (s : State), s.up ∧ s.ref.state = .acquiring ∧ s.fresh s.boundary 1) ∧
    (∃ (s : State), s.up ∧ s.nodRole = 2 ∧ s.nod.state ≠ 0 ∧ s.ref.state = .locked ∧ s.fresh s.boundary 0 ∧ s.fresh s.boundary 4) ∧
    (∃ (s : State), s.up ∧ s.ks.held = false ∧ (s.now + (2 ^ 64 - s.count)) % 128 = 0 ∧ s.fresh (s.now + (2 ^ 64 - s.count)) 3) := by
  refine ⟨⟨{ plain with ref := { plain.ref with state := .locked, present := true, slip := true, losses := 0xFFFF } }, by decide +kernel⟩,
    ⟨{ plain with ref := { plain.ref with state := .holdover, losses := 3, holdStart := 5 }, now := 16000000006 }, by decide +kernel⟩,
    ⟨{ plain with ref := { plain.ref with state := .acquiring, losses := 3 }, nod := { plain.nod with waitRef := true, state := 1 } },
        by decide +kernel⟩,
    ⟨withRegs [(R.nodCtrl, 2)] { plain with ref := { plain.ref with state := .locked }, nod := { plain.nod with state := 4, pendingLoad := some (5, 6), followers := [(1, 2)], pendingZero := [{ isZero := true, o := 0, b := 1, at_ := 2, due := 2, late := false }] } }, by decide +kernel⟩,
    ⟨withRegs [(R.ksEpoch, 15)] { plain with ks := { base := 2 ^ 64 - 1024, held := false } }, by decide +kernel⟩⟩

theorem witness_PtmDialogs :
    (∃ (s : State), s.ticking ∧ bit (s.reg R.ptmCtrl) 0 = true ∧ s.ptm.cfgEnable = true) ∧
    (∃ (s : State), s.ticking ∧ bit (s.reg R.ptmCtrl) 0 = true ∧ s.ptm.cfgEnable = false) ∧
    (∃ (s : State), s.up ∧ s.ks.held = false ∧ bit (s.reg R.ptmCtrl) 0 = true ∧ bit (s.reg R.ptmCtrl) 2 = true ∧ s.ptm.cfgEnable = true) ∧
    (∃ (s : State), s.up ∧ s.ptm.dialog = true) := by
  refine ⟨⟨withRegs [(R.ptmCtrl, 1)] { plain with ptm := { plain.ptm with cfgEnable := true } }, by decide +kernel⟩,
    ⟨withRegs [(R.ptmCtrl, 1)] plain, by decide +kernel⟩,
    ⟨withRegs [(R.ptmCtrl, 0x35)] { plain with ptm := { plain.ptm with cfgEnable := true, lastAuto := 900 } }, by decide +kernel⟩,
    ⟨withRegs [(R.ptmCtrl, 0x5), (R.ptmStatus, 0xFFFF)] { plain with ptm := { plain.ptm with dialog := true } }, by decide +kernel⟩⟩

theorem witness_NodricAlignment :
    (∃ (s : State) (lane : Bool),
      let l := b2n lane
      s.up ∧ s.nodRole = 1 ∧ s.nodLink l = 1) ∧
    (∃ (s : State), s.up ∧ s.nodRole = 2 ∧ s.nod.link0 = 1 ∧ s.refSel = 2 ∧ s.ref.state ≠ .locked) ∧
    (∃ (s : State), s.up ∧ s.nodRole = 2 ∧ s.nod.link0 = 1 ∧ s.ref.state = .locked) ∧
    (∃ (s : State) (lane : Bool),
      let l := b2n lane
      s.up ∧ s.nodRole = 1 ∧ s.nodLink l = 2) ∧
    (∃ (s : State), s.up ∧ s.nodRole = 2 ∧ s.nod.link0 = 2) ∧
    (∃ (s : State) (lane : Bool),
      let l := b2n lane
      let nth := s.nod.ids.length + 1
      s.up ∧ s.nodRole = 1 ∧ s.nodDown.contains l = true ∧ s.actionHeld = false ∧ nth ≤ 7) ∧
    (∃ (s : State), s.up ∧ s.nodRole = 2 ∧ s.nod.state = 3) ∧
    (∃ (s : State), s.up ∧ s.nodRole = 2 ∧ s.nod.state = 4) ∧
    (∃ (s : State) (x : Nat) (k : Nat), s.up ∧ s.nod.pendingLoad = some (x, k) ∧ s.now ≤ x ∧ x % 128 = 0 ∧ k < 2 ^ 64 ∧ s.ks.held = false ∧
        s.fresh x 2 ∧ s.countAt x ≠ k) ∧
    (∃ (s : State) (x : Nat) (k : Nat), s.up ∧ s.nod.pendingLoad = some (x, k) ∧ s.now ≤ x ∧ x % 128 = 0 ∧ s.ks.held = false ∧ s.countAt x = k) ∧
    (∃ (s : State), s.up ∧ s.nodRole = 2 ∧ s.nod.link0 = 0) ∧
    (∃ (s : State) (lane : Bool),
      let l := b2n lane
      s.up ∧ s.nodRole = 1 ∧ s.nodArms.contains l = true ∧ s.nodLink l = 0) := by
  refine ⟨⟨withRegs [(R.nodCtrl, 5)] { plain with nod := { plain.nod with state := 1, link0 := 1 } }, false, by decide +kernel⟩,
    ⟨withRegs [(R.nodCtrl, 2), (R.refCtrl, 2)] { plain with nod := { plain.nod with state := 1, link0 := 1 } }, by decide +kernel⟩,
    ⟨withRegs [(R.nodCtrl, 2)] { plain with nod := { plain.nod with state := 1, link0 := 1, link1 := 3 }, ref := { plain.ref with state := .locked } }, by decide +kernel⟩,
    ⟨withRegs [(R.nodCtrl, 5)] { plain with nod := { plain.nod with state := 3, link0 := 2, link1 := 3 } }, false, by decide +kernel⟩,
    ⟨withRegs [(R.nodCtrl, 2), (R.nodAsymAdj, 0xFFF3)] { plain with nod := { plain.nod with state := 2, link0 := 2 } }, by decide +kernel⟩,
    ⟨withRegs [(R.nodCtrl, 5)] { plain with nod := { plain.nod with state := 3, link0 := 3, link1 := 3, ids := [true, false], followers := [(2, 88)] } }, false, by decide +kernel⟩,
    ⟨withRegs [(R.nodCtrl, 2)] { plain with nod := { plain.nod with state := 3, link0 := 3, link1 := 3 } }, by decide +kernel⟩,
    ⟨withRegs [(R.nodCtrl, 2)] { plain with nod := { plain.nod with state := 4, link0 := 3, link1 := 3 } }, by decide +kernel⟩,
    ⟨withRegs [(R.nodCtrl, 2)] { plain with nod := { plain.nod with state := 3, pendingLoad := some (1152, 0x80) } }, 1152, 0x80,
        by decide +kernel⟩,
    ⟨withRegs [(R.nodCtrl, 2)] { plain with nod := { plain.nod with state := 3, pendingLoad := some (1152, 0x10000000480) } }, 1152,
        0x10000000480, by decide +kernel⟩,
    ⟨withRegs [(R.nodCtrl, 2)] plain, by decide +kernel⟩,
    ⟨withRegs [(R.nodCtrl, 5)] { plain with nod := { plain.nod with state := 4, link1 := 3, followers := [(2, 88)] } }, false, by decide +kernel⟩⟩

theorem witness_NodricMarks :
    (∃ (s : State) (b : W64), s.up ∧ s.nodRole = 2 ∧ s.nod.state = 4 ∧ s.count + 256 ≤ b.toNat) ∧
    (∃ (s : State) (b : W64), s.up ∧ s.nodRole = 2 ∧ s.nod.state = 4 ∧ b.toNat < s.count + 256) ∧
    (∃ (s : State), s.up ∧ s.nodRole = 2 ∧ s.nod.state = 4 ∧ s.fresh s.boundary 5) ∧
    (∃ (s : State) (d : Nat),
      let now_ := s.nod.pendingZero.filter (fun a => a.due == d)
      s.up ∧ s.zeroDue = some d ∧ s.ks.held = false ∧ s.now ≤ d ∧ d % 128 = 0 ∧ (∀ a ∈ now_, a.late = false) ∧ s.fresh d 2) ∧
    (∃ (s : State) (a : NodAction), s.up ∧ s.nod.pendingZero = [a] ∧ s.ks.held = false ∧ s.now ≤ a.due ∧ a.due % 128 = 0 ∧ a.late = true ∧
        a.isZero = true ∧ a.at_ ≤ a.due ∧ a.due < 2 ^ 64 ∧ s.fresh a.due 2 ∧ s.fresh a.due 5) ∧
    (∃ (s : State) (count : W64), s.up ∧ s.nodRole = 2 ∧ s.nod.state = 4 ∧ 16 * s.count = 16 * count.toNat + (s.reg R.nodLat).toNat) ∧
    (∃ (s : State) (count : W64), s.up ∧ s.nodRole = 2 ∧ s.nod.state = 4 ∧ bit (s.reg R.nodCtrl) 3 = false ∧ 16 * count.toNat +
        (s.reg R.nodLat).toNat + 16 < 16 * s.count ∧ s.fresh s.boundary 5) ∧
    (∃ (s : State), s.up ∧ s.nodRole = 1 ∧ s.ks.held = false) := by
  refine ⟨⟨withRegs [(R.nodCtrl, 2)] { plain with nod := { plain.nod with state := 4, link0 := 3, link1 := 3 } }, 0x10000000500, by decide +kernel⟩,
    ⟨withRegs [(R.nodCtrl, 2)] { plain with nod := { plain.nod with state := 4, link1 := 3, pendingZero := [{ isZero := true, o := 0, b := 0x10000000500, at_ := 1280, due := 1280, late := false }] } }, 0x100000004E7, by decide +kernel⟩,
    ⟨withRegs [(R.nodCtrl, 2), (R.nodMsgErr, 0xFFFFFFFE)] { plain with nod := { plain.nod with state := 4 } }, by decide +kernel⟩,
    ⟨withRegs [(R.nodCtrl, 2)] { plain with nod := { plain.nod with state := 4, pendingZero := [{ isZero := true, o := 0, b := 0x10000000500, at_ := 1280, due := 1280, late := false }, { isZero := false, o := 3, b := 0x10000000580, at_ := 1408, due := 1408, late := false }, { isZero := false, o := 5, b := 0x10000000500, at_ := 1280, due := 1280, late := false }] } }, 1280, by decide +kernel⟩,
    ⟨withRegs [(R.nodCtrl, 2)] { plain with nod := { plain.nod with state := 4, pendingZero := [{ isZero := true, o := 0, b := 0x10000000400, at_ := 1024, due := 1408, late := true }] } }, { isZero := true, o := 0, b := 0x10000000400, at_ := 1024, due := 1408, late := true }, by decide +kernel⟩,
    ⟨withRegs [(R.nodCtrl, 2), (R.nodLat, 0x20)] { plain with nod := { plain.nod with state := 4, link1 := 3 } }, 0x100000003E6, by decide +kernel⟩,
    ⟨withRegs [(R.nodCtrl, 2), (R.nodLat, 0x20)] { plain with nod := { plain.nod with state := 4 } }, 0x10000000301, by decide +kernel⟩,
    ⟨withRegs [(R.nodCtrl, 5)] { plain with nod := { plain.nod with state := 4, link0 := 3, link1 := 3 }, ref := { plain.ref with state := .locked } }, by decide +kernel⟩⟩

theorem witness_SamplesAndSlices :
    (∃ (s : State) (n : Fin 8) (tk : W64),
      let e := s.elapsedOf tk.toNat
      let v := e / 128
      let slot := (s.inp n).slots.getD (slotOf (s.period n) (s.inp n).slots.length e) none
      let alone := ∀ m : Fin 8, m ≠ n → (s.inp m).running = false
      let sampled := (s.inp n).running = true ∧ e % s.period n = 0 ∧ s.now ≤ e ∧ s.inSettle n e = false
      let first := Assoc.get 0 s.conv.flags (n + 8 * v) = 0 ∧ s.fresh (v * 128 + 512) (16 + 4 * n) ∧ s.present (R.convOvrCount n)
      s.up ∧ s.ks.held = false ∧ sampled ∧ slot ≠ none ∧ alone ∧ (e + 12) / 128 = v ∧ first) ∧
    (∃ (s : State) (n : Fin 8) (tk : W64),
      let e := s.elapsedOf tk.toNat
      let v := e / 128
      let slot := (s.inp n).slots.getD (slotOf (s.period n) (s.inp n).slots.length e) none
      let sampled := (s.inp n).running = true ∧ e % s.period n = 0 ∧ s.now ≤ e ∧ s.inSettle n e = false
      let first := Assoc.get 0 s.conv.flags (n + 8 * v) = 0 ∧ s.fresh (v * 128 + 512) (16 + 4 * n) ∧ s.present (R.convOvrCount n)
      s.up ∧ s.ks.held = false ∧ sampled ∧ slot = none ∧ first) ∧
    (∃ (s : State) (n : Fin 8) (tk : W64),
      let e := s.elapsedOf tk.toNat
      let slot := (s.inp n).slots.getD (slotOf (s.period n) (s.inp n).slots.length e) none
      let sampled := (s.inp n).running = true ∧ e % s.period n = 0 ∧ s.now ≤ e ∧ s.inSettle n e = false
      s.up ∧ s.ks.held = false ∧ sampled ∧ slot ≠ none) ∧
    (∃ (s : State) (slice : Fin 24) (tk : W64),
      let own := slice.val / 3
      let h := s.headOf own
      let y := s.slice slice
      let e := s.elapsedOf tk.toNat
      s.up ∧ s.ks.held = false ∧ y.powered = true ∧ (s.inp h).running = true ∧ s.now ≤ e ∧ s.inSettle h e = false ∧
          (s.inp h).slots.contains (some slice.val) = false ∧ s.present (R.convLaneErr own)) ∧
    (∃ (s : State) (slice : Fin 24) (tk : W64),
      let own := slice.val / 3
      let h := s.headOf own
      let y := s.slice slice
      let e := s.elapsedOf tk.toNat
      s.up ∧ s.ks.held = false ∧ y.powered = true ∧ (s.inp h).running = true ∧ s.now ≤ e ∧ s.inSettle h e = false ∧
          (s.inp h).slots.contains (some slice.val) = true) ∧
    (∃ (s : State) (slice : Fin 24),
      let own := slice.val / 3
      let h := s.headOf own
      let y := s.slice slice
      let tables := ∀ k, k < 24 → s.tableFails k = false
      s.up ∧ s.ks.held = false ∧ y.powered = true ∧ y.errs.length = 16 ∧ (s.inp h).window = none ∧ tables ∧ s.fresh s.boundary (17 + 4 * own) ∧
          s.present (R.convFaultInfo own)) ∧
    (∃ (s : State) (n : Fin 8), s.up ∧ s.ks.held = false ∧ (s.inp n).settling = true) ∧
    (∃ (s : State) (slice : Fin 24) (x : Nat) (i : Nat),
      let own := slice.val / 3
      let h := s.headOf own
      let y := s.slice slice
      let tables := ∀ k, k < 24 → s.tableFails k = false
      s.up ∧ s.ks.held = false ∧ y.joinAt = some x ∧ (s.inp h).slots.findIdx? (· == none) = some i ∧ tables) ∧
    (∃ (s : State) (slice : Fin 24) (x : Nat),
      let own := slice.val / 3
      let h := s.headOf own
      let y := s.slice slice
      s.up ∧ s.ks.held = false ∧ y.joinAt = some x ∧ (s.inp h).slots.findIdx? (· == none) = none) := by
  refine ⟨⟨converting 2 plain, 2, 0x10000000470, by decide +kernel⟩,
    ⟨(converting 2 plain).modInput 2 (fun x => { x with slots := [some 6, none] }), 2, 0x10000000474, by decide +kernel⟩,
    ⟨converting 2 (converting 3 (converting 5 plain)), 2, 0x10000000470, by decide +kernel⟩,
    ⟨converting 2 plain, 8, 0x10000000470, by decide +kernel⟩,
    ⟨converting 2 plain, 7, 0x10000000470, by decide +kernel⟩,
    ⟨({ converting 2 plain with permits := { plain.permits with ballast := 9, load := { core := 1, conv := 9, hbm0 := 0, hbm1 := 0 } } }).modSlice 8 (fun x => { x with errs := List.replicate 16 9, lane := 31 }), 8, by decide +kernel⟩,
    ⟨(converting 2 plain).modInput 2 (fun x => { x with settling := true, settleEnd := 5000, settleFrom := 900 }), 2, by decide +kernel⟩,
    ⟨((converting 2 plain).modSlice 8 (fun x => { x with joinAt := some 5000 })).modInput 2 (fun x => { x with slots := [some 6, none] }), 8,
        5000, 1, by decide +kernel⟩,
    ⟨(converting 2 plain).modSlice 8 (fun x => { x with joinAt := some 5000 }), 8, 5000, by decide +kernel⟩⟩

theorem witness_RotationsTurnTheSlices :
    (∃ (s : State) (n : Fin 8) (a : Nat) (b : Nat),
      let x := s.inp n
      s.up ∧ s.ks.held = false ∧ x.running = true ∧ s.underFg n = false ∧ bit (s.reg (R.calCtrl n)) 5 = true ∧ s.incoming n = some a ∧
          s.outgoing n = some b ∧ x.slots.contains none = false ∧ 32768 ≤ x.next ∧ x.settleEnd + 32768 ≤ x.next ∧ x.window = none) ∧
    (∃ (s : State) (n : Fin 8),
      let x := s.inp n
      s.up ∧ s.ks.held = false ∧ x.running = true ∧ s.underFg n = false ∧ bit (s.reg (R.calCtrl n)) 5 = true ∧ s.incoming n = none ∧
          s.present (R.calSkipCount n)) ∧
    (∃ (s : State) (n : Fin 8) (w : Shadow) (pairs : List (BitVec 12 × BitVec 12)),
      let x := s.inp n
      let sums := Sums.of (s.admitted n w pairs)
      let at_ := s.now ≤ w.rot ∧ w.rot % 128 = 0 ∧ w.forced = false ∧ x.rn ≠ 3 ∧ s.present (R.calSkipCount n) ∧ s.present (R.calRotCount n) ∧
          s.present (R.calAlertInfo n)
      s.up ∧ s.ks.held = false ∧ x.window = some w ∧ at_ ∧ sums.offQ = true ∧ sums.over (4 * s.rf (R.calLimits n) 24 8 : Nat) = true ∧
          s.fresh w.rot (19 + 4 * n)) ∧
    (∃ (s : State) (n : Fin 8) (j : Nat) (w : Shadow) (pairs : List (BitVec 12 × BitVec 12)),
      let x := s.inp n
      let sums := Sums.of (s.admitted n w pairs)
      let at_ := s.now ≤ w.rot ∧ w.rot % 128 = 0 ∧ w.forced = false ∧ x.rn ≠ 3 ∧ s.present (R.calSkipCount n) ∧ s.present (R.calRotCount n) ∧
          s.present (R.calAlertInfo n)
      s.up ∧ s.ks.held = false ∧ x.window = some w ∧ at_ ∧ sums.offQ = false ∧ bit (s.reg (R.calCtrl n)) 6 = false ∧ s.headOf (w.inc / 3) = n.val ∧
          (∀ k, k < 24 → s.tableFails k = false) ∧ w.inc < 24 ∧ (s.slice w.inc).faulted = false ∧ w.inc ≠ w.out ∧
          x.slots.findIdx? (· == some w.out) = some j ∧ s.fresh w.rot (18 + 4 * n) ∧ s.present (R.calLastRot n)) ∧
    (∃ (s : State) (n : Fin 8) (a : Nat) (b : Nat) (e : Nat),
      let x := s.inp n
      s.up ∧ s.ks.held = false ∧ s.granted (20 + n) 10 = some e ∧ x.rn = 1 ∧ x.running = true ∧ s.underFg n = false ∧ x.window = none ∧
          s.incoming n = some a ∧ s.outgoing n = some b) ∧
    (∃ (s : State) (n : Fin 8),
      let x := s.inp n
      s.up ∧ s.ks.held = false ∧ s.findEntry (20 + n) 10 = none ∧ x.rn = 1 ∧ s.fresh (alignUp (max s.now x.rnEnd) 128) (19 + 4 * n) ∧
          s.present (R.calAlertInfo n)) := by
  refine ⟨⟨(withRegs [(R.calCtrl 2, 0x2A)] (converting 2 plain)).modInput 2 (fun x => { x with next := 40000 }), 2, 8, 6, by decide +kernel⟩,
    ⟨(withRegs [(R.calCtrl 2, 0x2A)] (converting 2 plain)).modSlice 8 (fun x => { x with faulted := true }), 2, by decide +kernel⟩,
    ⟨(withRegs [(R.calLimits 2, 0)] (converting 2 plain)).modInput 2 (fun x => { x with window := some { inc := 8, out := 6, rot := 33792, forced := false } }), 2, { inc := 8, out := 6, rot := 33792, forced := false }, (List.range 1024).map (fun i => (2047, if i % 2 = 0 then 2047 else 2048)), by decide +kernel⟩,
    ⟨(withRegs [(R.calLimits 2, 0x01000000), (R.calCtrl 2,
        0)] (converting 2 plain)).modInput 2 (fun x => { x with window := some { inc := 8, out := 7, rot := 33792, forced := false } }), 2,
        1, { inc := 8, out := 7, rot := 33792, forced := false }, (List.range 64).map (fun i => (BitVec.ofNat 12 (i * 50),
        BitVec.ofNat 12 (i * 49))), by decide +kernel⟩,
    ⟨((converting 2 plain).setEntry 5 (entryVal 10 22 3 { core := 2, conv := 0, hbm0 := 0, hbm1 := 0 })).modInput 2 (fun x => { x with rn := 1 }),
        2, 8, 6, 5, by decide +kernel⟩,
    ⟨({ converting 2 plain with permits := { plain.permits with queue := [{ req := 22, kind := 10, units := Units.zero, arrival := 900, deadline := none, entry := none }, { req := 21, kind := 10, units := Units.zero, arrival := 900, deadline := none, entry := none }] } }).modInput 2 (fun x => { x with rn := 1, rnEnd := 7000 }), 2, by decide +kernel⟩⟩

theorem witness_TablesAndEstimates :
    (∃ (s : State) (slice : Fin 24) (count : W32) (sq : W64),
      let h := s.headOf (slice.val / 3)
      s.up ∧ s.ks.held = false ∧ (s.inp h).running = true ∧ (s.inp h).slots.contains (some slice.val) = true ∧ s.underFg h = false ∧
          s.present (R.calLastEst h 2) ∧ 65536 ≤ count.toNat ∧ 65536 * count.toNat ≤ sq.toNat) ∧
    (∃ (s : State) (count : W32) (sq : W64), s.up ∧ s.ks.held = false ∧ (count.toNat < 65536 ∨ sq.toNat < 65536 * count.toNat)) ∧
    (∃ (s : State) (slice : Fin 24),
      let x := s.slice slice
      let h := s.headOf (slice.val / 3)
      let b := alignUp (max x.since x.readyAt) 128
      s.up ∧ s.ks.held = false ∧ (s.inp h).running = true ∧ bit (s.reg (R.calCtrl h)) 7 = true ∧ (bit (s.reg (R.calCtrl h)) 5 = false ∨ b +
          61440 ≤ (s.inp h).next - 32768) ∧ (s.resting h).contains slice.val = true ∧ x.refPhase = 0 ∧ (s.inp h).window = none ∧
          s.underFg h = false ∧ s.now ≤ b) ∧
    (∃ (s : State) (slice : Fin 24),
      let x := s.slice slice
      s.up ∧ s.ks.held = false ∧ x.refPhase = 1) ∧
    (∃ (s : State), s.up ∧ s.ks.held = false ∧ (∀ m, m < 24 → s.serving m = true → s.tableFails m = false)) ∧
    (∃ (s : State) (slice : Fin 24) (flip : W32),
      let x := s.slice slice
      let h := s.headOf (slice.val / 3)
      let f := s.fs h
      let k := alignUp s.now 131072
      s.up ∧ s.ks.held = false ∧ (∀ m, m < 24 → m ≠ slice.val → s.serving m = false) ∧ s.serving slice = true ∧ x.tables.length = 4 ∧ flip ≠ 0 ∧
          tableOk (x.table f 0) = true ∧ tableOk (x.table f 1) = true ∧ s.present (R.calFallbackCount h) ∧ s.present (R.calAlertInfo h) ∧
          s.fresh k 11 ∧ s.fresh k (19 + 4 * h)) := by
  refine ⟨⟨converting 2 plain, 7, 0x10000, 0x100000000, by decide +kernel⟩,
    ⟨converting 2 plain, 0xFFFF, 0x100000000, by decide +kernel⟩,
    ⟨(withRegs [(R.calCtrl 2, 0x80)] (converting 2 plain)).modSlice 8 (fun x => { x with since := 5000 }), 8, by decide +kernel⟩,
    ⟨(converting 2 plain).modSlice 8 (fun x => { x with refPhase := 1, refStart := 1024 }), 8, by decide +kernel⟩,
    ⟨converting 2 plain, by decide +kernel⟩,
    ⟨((converting 2 plain).modInput 2 (fun x => { x with slots := [some 8] })).modSlice 8 (fun x => { x with powered := true }), 8, 0x80000000,
        by decide +kernel⟩⟩

theorem witness_ChannelsCountAndDeliver :
    (∃ (s : State) (n : Fin 8) (tk : W64) (x : Samples) (e : Era),
      let v := s.elapsedOf tk.toNat / 128
      let u := s.advance (v * 128)
      let q := u.path n (v * 128) e.period x
      let own := (List.range (128 / e.period)).map (fun i => v * (128 / e.period) + i)
      let kept := if e.decim then own.filter (fun i => decide (e.anchor ≤ i) && (i - e.anchor) % e.ratio == 0) else own
      let k := own.countP (fun i => (q.corrected i).2)
      let f := kept.countP (fun i => (q.fir i).2)
      let here := (s.inp n).eraAt (v * 128) = some e ∧ e.period ≠ 0 ∧ s.present (R.chSatCorr n) ∧ s.present (R.chSatFir n) ∧
          s.present (R.chAlertInfo n)
      s.up ∧ here ∧ k = 0 ∧ f = 0) ∧
    (∃ (s : State) (n : Fin 8) (tk : W64) (x : Samples) (e : Era),
      let v := s.elapsedOf tk.toNat / 128
      let u := s.advance (v * 128)
      let q := u.path n (v * 128) e.period x
      let own := (List.range (128 / e.period)).map (fun i => v * (128 / e.period) + i)
      let kept := if e.decim then own.filter (fun i => decide (e.anchor ≤ i) && (i - e.anchor) % e.ratio == 0) else own
      let k := own.countP (fun i => (q.corrected i).2)
      let f := kept.countP (fun i => (q.fir i).2)
      let b2 := u.boundaryFrom (v * 128 + 1119)
      let here := (s.inp n).eraAt (v * 128) = some e ∧ e.period ≠ 0 ∧ s.present (R.chSatCorr n) ∧ s.present (R.chSatFir n) ∧
          s.present (R.chAlertInfo n)
      s.up ∧ here ∧ k ≠ 0 ∧ f = 0 ∧ s.headOf n = n.val ∧ s.fresh b2 (64 + n)) ∧
    (∃ (s : State) (n : Fin 8) (tk : W64) (x : Samples) (e : Era),
      let v := s.elapsedOf tk.toNat / 128
      let u := s.advance (v * 128)
      let q := u.path n (v * 128) e.period x
      let own := (List.range (128 / e.period)).map (fun i => v * (128 / e.period) + i)
      let kept := if e.decim then own.filter (fun i => decide (e.anchor ≤ i) && (i - e.anchor) % e.ratio == 0) else own
      let k := own.countP (fun i => (q.corrected i).2)
      let f := kept.countP (fun i => (q.fir i).2)
      let b3 := u.boundaryFrom (v * 128 + 3167)
      let here := (s.inp n).eraAt (v * 128) = some e ∧ e.period ≠ 0 ∧ s.present (R.chSatCorr n) ∧ s.present (R.chSatFir n) ∧
          s.present (R.chAlertInfo n)
      s.up ∧ here ∧ k = 0 ∧ f ≠ 0 ∧ s.headOf n = n.val ∧ s.fresh b3 (64 + n)) ∧
    (∃ (s : State) (n : Fin 8) (tk : W64) (x : Samples) (e : Era),
      let v := s.elapsedOf tk.toNat / 128
      let u := s.advance (v * 128)
      let q := u.path n (v * 128) e.period x
      let own := (List.range (128 / e.period)).map (fun i => v * (128 / e.period) + i)
      let kept := if e.decim then own.filter (fun i => decide (e.anchor ≤ i) && (i - e.anchor) % e.ratio == 0) else own
      let k := own.countP (fun i => (q.corrected i).2)
      let f := kept.countP (fun i => (q.fir i).2)
      let here := (s.inp n).eraAt (v * 128) = some e ∧ e.period ≠ 0 ∧ s.present (R.chSatCorr n) ∧ s.present (R.chSatFir n) ∧
          s.present (R.chAlertInfo n)
      s.up ∧ here ∧ k ≠ 0 ∧ f ≠ 0) ∧
    (∃ (s : State) (n : Fin 8) (r : ToneRun),
      let c := s.chan n
      let t0 := r.anchor + r.block * r.ticks
      let tl := t0 + r.ticks - r.period
      let b := alignUp (tl + 3552) 128
      s.up ∧ c.toneRun = some r ∧ s.ks.held = false ∧ s.now ≤ b ∧ s.trig.items = [] ∧ s.trig.cands = [] ∧ s.present (R.toneBlkCount n) ∧ (∀ k,
          k < 16 → s.cellOn k = true → s.cellKind k ≠ 1) ∧ s.fresh b (72 + n)) := by
  refine ⟨⟨converting 2 plain, 2, 0x10000000400, codesAt 1024 (List.replicate 32 100), eraOf, by decide +kernel⟩,
    ⟨(converting 2 plain).modInput 2 (fun x => { x with eras := [{ eraOf with gain := 0x1FFFF }] }), 2, 0x10000000400,
        codesAt 1024 (List.replicate 31 2000 ++ [5]), { eraOf with gain := 0x1FFFF }, by decide +kernel⟩,
    ⟨(converting 2 plain).modInput 2 (fun x => { x with eras := [{ eraOf with coefs := [3] }] }), 2, 0x10000000400,
        codesAt 1024 (List.replicate 31 2000 ++ [5]), { eraOf with coefs := [3] }, by decide +kernel⟩,
    ⟨(converting 2 plain).modInput 2 (fun x => { x with eras := [{ eraOf with gain := 0x1FFFF, coefs := [3] }] }), 2, 0x10000000400,
        codesAt 1024 (List.replicate 31 2000 ++ [5]), { eraOf with gain := 0x1FFFF, coefs := [3] }, by decide +kernel⟩,
    ⟨(withRegs [(R.toneCtrl 2, 0x40), (R.toneThrHi 2,
        1000)] (converting 2 plain)).modChan 2 (fun c => { c with tone := some { toneOf with block := 3 } }), 2, { toneOf with block := 3 },
        by decide +kernel⟩⟩

theorem witness_CellsFire :
    (∃ (s : State) (c : Fin 16) (tk : W64),
      let n := s.cellHead c
      let e := s.elapsedOf tk.toNat
      s.up ∧ s.ks.held = false ∧ s.inSettle n e = true) ∧
    (∃ (s : State) (c : Fin 16) (tk : W64),
      let n := s.cellHead c
      let e := s.elapsedOf tk.toNat
      let k := s.cell c
      let live := s.cellOn c = true ∧ s.cellInvalid c = false ∧ s.now ≤ e ∧ s.trig.tick = e
      let stream := s.cellKind c = 0 ∧ (s.inp n).running = true ∧ s.headOf n = n ∧ s.inSettle n e = false ∧ s.passedSettle c e = false
      let sampled := e % s.period n = 0
      s.up ∧ s.ks.held = false ∧ live ∧ stream ∧ sampled ∧ k.started = false) ∧
    (∃ (s : State) (c : Fin 16) (tk : W64) (x : Samples) (t1 : Nat) (b : Int) (i : Bool),
      let n := s.cellHead c
      let e := s.elapsedOf tk.toNat
      let k := s.cell c
      let u := s.levelU c
      let live := s.cellOn c = true ∧ s.cellInvalid c = false ∧ s.now ≤ e ∧ s.trig.tick = e
      let stream := s.cellKind c = 0 ∧ (s.inp n).running = true ∧ s.headOf n = n ∧ s.inSettle n e = false ∧ s.passedSettle c e = false
      let sampled := e % s.period n = 0
      let v := ((s.advance e).path n e (s.period n) x).tapped (e / s.period n)
      s.up ∧ s.ks.held = false ∧ live ∧ stream ∧ sampled ∧ s.cellType c = 0 ∧ s.cellSlope c = 0 ∧ bit (s.reg (R.tcCtrl c)) 24 = false ∧
          k.started = true ∧ k.rU = true ∧ k.wait = none ∧ k.prev = [(t1, b, i)] ∧ b < u ∧ u ≤ v) ∧
    (∃ (s : State) (c : Fin 16) (tk : W64) (t0 : Nat) (i : Bool),
      let n := s.cellHead c
      let e := s.elapsedOf tk.toNat
      let k := s.cell c
      let live := s.cellOn c = true ∧ s.cellInvalid c = false ∧ s.now ≤ e ∧ s.trig.tick = e
      let stream := s.cellKind c = 0 ∧ (s.inp n).running = true ∧ s.headOf n = n ∧ s.inSettle n e = false ∧ s.passedSettle c e = false
      let due := t0 + s.reg64 (R.tcT1 c) * 65536
      s.up ∧ s.ks.held = false ∧ live ∧ stream ∧ s.cellType c = 5 ∧ bit (s.reg (R.tcCtrl c)) 24 = false ∧ k.openP = some (t0, i) ∧ k.openN = none ∧
          due ≤ e * 65536) ∧
    (∃ (s : State) (c : Fin 16) (tk : W64) (t0 : Nat) (i : Bool) (enter : Bool),
      let n := s.cellHead c
      let e := s.elapsedOf tk.toNat
      let k := s.cell c
      let live := s.cellOn c = true ∧ s.cellInvalid c = false ∧ s.now ≤ e ∧ s.trig.tick = e
      let stream := s.cellKind c = 0 ∧ (s.inp n).running = true ∧ s.headOf n = n ∧ s.inSettle n e = false ∧ s.passedSettle c e = false
      let due := t0 + s.reg64 (R.tcT1 c) * 65536
      s.up ∧ s.ks.held = false ∧ live ∧ stream ∧ s.cellType c = 3 ∧ s.cellSlope c = 2 ∧ bit (s.reg (R.tcCtrl c)) 24 = false ∧ k.wait = some (t0,
          enter, i) ∧ due ≤ e * 65536) ∧
    (∃ (s : State) (p : Fin 4), s.up ∧ s.ks.held = false ∧ bit (s.reg (R.tpCtrl p)) 0 = true ∧ bit (s.reg (R.tpCtrl p)) 1 = true ∧
        bit (s.reg (R.tpCtrl p)) 3 = false ∧ (s.prog p).armed = true ∧ (s.prog p).ended = none ∧ s.trig.items = [] ∧ s.trig.cands = []) := by
  refine ⟨⟨(withRegs [(R.tcCtrl 3, 0x2001)] (converting 2 plain)).modInput 2 (fun x => { x with settleFrom := 896, settleEnd := 2048 }), 3,
      0x100000003F0, by decide +kernel⟩,
    ⟨withRegs [(R.tcCtrl 3, 0x2001)] (let x := converting 2 plain; { x with trig := { x.trig with tick := 1008 } }), 3, 0x100000003F0,
        by decide +kernel⟩,
    ⟨(withRegs [(R.tcCtrl 3, 0x2001), (R.tcLevelU 3, 50)] (let x := converting 2 plain;
        { x with trig := { x.trig with tick := 1008 } })).modCell 3 (fun k => { k with started := true, rU := true, prev := [(1004, 20, false)] }), 3, 0x100000003F0, codesAt 1008 [100], 1004, 20, false, by decide +kernel⟩,
    ⟨(withRegs [(R.tcCtrl 3, 0x200B), (R.tcT1 3, 50)] (let x := converting 2 plain;
        { x with trig := { x.trig with tick := 1058 } })).modCell 3 (fun k => { k with openP := some (66060288, true) }), 3, 0x10000000422,
        66060288, true, by decide +kernel⟩,
    ⟨(withRegs [(R.tcCtrl 3, 0x2027), (R.tcLevelU 3, 50), (R.tcT1 3, 50)] (let x := converting 2 plain;
        { x with trig := { x.trig with tick := 1058 } })).modCell 3 (fun k => { k with wait := some (66060288, true, false) }), 3, 0x10000000422,
        66060288, false, true, by decide +kernel⟩,
    ⟨(withRegs [(R.tpCtrl 1, 3), (R.tpSeqWin 1, 50)] (converting 2 plain)).modProg 1 (fun k => { k with armed := true, tA := 66060289 }), 1,
        by decide +kernel⟩⟩

theorem witness_TriggersAreDelivered :
    (∃ (s : State) (td : Nat) (src : Nat), s.up ∧ s.ks.held = false ∧ s.trig.items = [] ∧ s.trig.cands = [] ∧ s.trig.decisions = [.drop td src] ∧
        td % 128 = 0 ∧ s.now ≤ td ∧ src < 256 ∧ s.fresh td src) ∧
    (∃ (s : State) (c : Cand) (td : Nat),
      let quiet := (s.dir c.prog).bound = false ∧ (∀ n, n < 8 → (s.ch n).changes = [] ∧ s.churnRuns n td = false) ∧
          bit (s.reg R.nodTrigTx) c.prog = false ∧ (∀ k, k < 4 → bit (s.reg (R.trigOutCtrl k)) 0 = false) ∧ bit (s.reg R.sensInjCtrl) 0 = false
      s.up ∧ s.ks.held = false ∧ s.trig.items = [] ∧ s.trig.cands = [] ∧ s.trig.decisions = [.final td c] ∧ td % 128 = 0 ∧ s.now ≤ td ∧
          c.prog < 4 ∧ quiet ∧ s.fresh td (120 + c.prog) ∧ s.fresh td (48 + c.prog)) ∧
    (∃ (s : State) (m : Fin 4) (pl : Pulse), s.up ∧ s.ks.held = false ∧ s.trig.items = [] ∧ s.trig.cands = [] ∧ s.trigout[m.val] = [pl] ∧
        pl.on = false) ∧
    (∃ (s : State) (m : Fin 4) (pl : Pulse), s.up ∧ s.ks.held = false ∧ s.trig.items = [] ∧ s.trig.cands = [] ∧ s.trigout[m.val] = [pl] ∧
        pl.on = true) ∧
    (∃ (s : State) (lane : Bool), s.up ∧ s.ks.held = false ∧ s.trig.items = [] ∧ s.trig.cands = [] ∧ s.nodLanes.contains (b2n lane) = true) ∧
    (∃ (s : State) (origin : BitVec 3) (prog : Fin 4) (j : Fin 16), s.up ∧ s.ks.held = false ∧ s.trig.items = [] ∧ s.trig.cands = [] ∧
        s.nodRole = 2 ∧ s.nod.link0 = 3 ∧ s.nod.link1 = 3 ∧ origin.toNat ≠ s.nod.id ∧ s.nod.lane1 = [] ∧ s.cellOn j = true ∧ s.cellKind j = 4 ∧
        s.cellInvalid j = false ∧ (s.cellIndex j).testBit prog.val = true ∧ (s.cellIndex j).testBit (4 + origin.toNat) = true) ∧
    (∃ (s : State) (lane : Bool) (origin : BitVec 3), s.up ∧ s.ks.held = false ∧ s.trig.items = [] ∧ s.trig.cands = [] ∧
        s.nodLanes.contains (b2n lane) = true ∧ origin.toNat = s.nod.id) := by
  refine ⟨⟨{ plain with trig := { plain.trig with decisions := [.drop 1024 50] } }, 1024, 50, by decide +kernel⟩,
    ⟨{ plain with trig := { plain.trig with decisions := [.final 1024 { prog := 2, kts := ktsAt 900, tq := 1000 }] } }, { prog := 2, kts := ktsAt 900, tq := 1000 }, 1024, by decide +kernel⟩,
    ⟨{ plain with trigout := vmod plain.trigout 1 (fun _ => [{ start := 2000, stop := 3000, on := false, src := 256 }]) },
        1, { start := 2000, stop := 3000, on := false, src := 256 }, by decide +kernel⟩,
    ⟨{ plain with trigout := vmod plain.trigout 1 (fun _ => [{ start := 200, stop := 3000, on := true, src := 256 }]) },
        1, { start := 200, stop := 3000, on := true, src := 256 }, by decide +kernel⟩,
    ⟨withRegs [(R.nodCtrl, 2)] { plain with nod := { plain.nod with state := 4, link0 := 3, link1 := 3 } }, true, by decide +kernel⟩,
    ⟨withRegs [(R.nodCtrl, 2), (R.tcCtrl 3, 0x88801)] { plain with nod := { plain.nod with state := 4, id := 1, link0 := 3, link1 := 3 } }, 3, 3,
        3, by decide +kernel⟩,
    ⟨withRegs [(R.nodCtrl, 2)] { plain with nod := { plain.nod with state := 4, id := 3, link0 := 3, link1 := 3 } }, true, 3, by decide +kernel⟩⟩

theorem witness_TimerMeasures :
    (∃ (s : State) (k : Fin 10) (tclk : W64) (tap : Fin 512) (falling : Bool) (held : BitVec 8),
      let w := s.reg (R.tiCtrl k)
      let u := s.unit k
      let at_ := alignUp (s.elapsedOf tclk.toNat) 64
      let entry := (if u.use = 0 then u.cur else u.prev).getD tap (0, 0)
      let bin := if u.use = 2 then nominalBin tap else fld entry.1 0 23
      let fine := ((at_ * 65536 : Nat) + sextInt 24 (s.rf (R.tiSkew k) 0 24) - (bin : Nat) : Int).toNat
      let tick := fine / 65536
      let seen := bit w 0 = true ∧ (fld w 14 2 = 2 ∨ fld w 14 2 = b2n falling ∨ (fld w 14 2 = 3 ∧ falling = false)) ∧ fld w 16 8 ≤ held.toNat ∧
          u.out = falling ∧ u.prior = none ∧ (u.use = 2 ∨ binOk entry = true) ∧ u.calibrating = false ∧ u.blind = false ∧ u.resumeAt ≤ tick ∧
          s.now ≤ at_
      s.up ∧ s.ks.held = false ∧ seen ∧ k.val < 8 ∧ u.last.any (fun l => decide (tick < l + 128)) = false) ∧
    (∃ (s : State) (k : Fin 10) (tclk : W64) (tap : Fin 512) (falling : Bool) (held : BitVec 8),
      let w := s.reg (R.tiCtrl k)
      let u := s.unit k
      let at_ := alignUp (s.elapsedOf tclk.toNat) 64
      let entry := (if u.use = 0 then u.cur else u.prev).getD tap (0, 0)
      let bin := if u.use = 2 then nominalBin tap else fld entry.1 0 23
      let fine := ((at_ * 65536 : Nat) + sextInt 24 (s.rf (R.tiSkew k) 0 24) - (bin : Nat) : Int).toNat
      let tick := fine / 65536
      let seen := bit w 0 = true ∧ (fld w 14 2 = 2 ∨ fld w 14 2 = b2n falling ∨ (fld w 14 2 = 3 ∧ falling = false)) ∧ fld w 16 8 ≤ held.toNat ∧
          u.out = falling ∧ u.prior = none ∧ (u.use = 2 ∨ binOk entry = true) ∧ u.calibrating = false ∧ u.blind = false ∧ u.resumeAt ≤ tick ∧
          s.now ≤ at_
      s.up ∧ s.ks.held = false ∧ seen ∧ 8 ≤ k.val ∧ u.last.any (fun l => decide (tick < l + 128)) = false ∧ s.trig.items = [] ∧ s.trig.cands = []) ∧
    (∃ (s : State) (k : Fin 10) (tclk : W64) (tap : Fin 512) (falling : Bool) (held : BitVec 8) (l : Nat),
      let w := s.reg (R.tiCtrl k)
      let u := s.unit k
      let at_ := alignUp (s.elapsedOf tclk.toNat) 64
      let entry := (if u.use = 0 then u.cur else u.prev).getD tap (0, 0)
      let bin := if u.use = 2 then nominalBin tap else fld entry.1 0 23
      let fine := ((at_ * 65536 : Nat) + sextInt 24 (s.rf (R.tiSkew k) 0 24) - (bin : Nat) : Int).toNat
      let tick := fine / 65536
      let seen := bit w 0 = true ∧ (fld w 14 2 = 2 ∨ fld w 14 2 = b2n falling ∨ (fld w 14 2 = 3 ∧ falling = false)) ∧ fld w 16 8 ≤ held.toNat ∧
          u.out = falling ∧ u.prior = none ∧ (u.use = 2 ∨ binOk entry = true) ∧ u.calibrating = false ∧ u.blind = false ∧ u.resumeAt ≤ tick ∧
          s.now ≤ at_
      s.up ∧ s.ks.held = false ∧ seen ∧ u.last = some l ∧ tick < l + 128 ∧ s.fresh (alignUp at_ 128) 87) ∧
    (∃ (s : State) (k : Fin 10) (falling : Bool) (held : BitVec 8),
      let w := s.reg (R.tiCtrl k)
      let u := s.unit k
      s.up ∧ s.ks.held = false ∧ (held.toNat < fld w 16 8 ∨ u.out = !falling) ∧ u.use = 2) ∧
    (∃ (s : State) (k : Fin 10),
      let u := s.unit k
      s.up ∧ s.ks.held = false ∧ u.blind = true) ∧
    (∃ (s : State) (p : Nat) (e : TItem) (r : List TItem),
      let pt := procPoint (e.kts.at_ / 65536)
      let next := s.tmr.items = e :: r ∧ s.tmr.seen = [] ∧ (∀ y ∈ r, y.kts.at_ ≠ e.kts.at_) ∧ s.now ≤ pt
      s.up ∧ s.ks.held = false ∧ next ∧ e.kind = .trigger p ∧ s.rf R.tmrCtrl 2 4 = 10 + p ∧ s.rf R.tmrCtrl 10 2 = 0 ∧ s.tmr.state = 1 ∧
          s.tmr.armedAt * 65536 ≤ e.kts.at_ ∧ s.tmr.fifo.length ≤ 1006 ∧ s.fresh pt 80) ∧
    (∃ (s : State) (k : Fin 10) (falling : Bool) (e : TItem) (r : List TItem),
      let pt := procPoint (e.kts.at_ / 65536)
      let next := s.tmr.items = e :: r ∧ s.tmr.seen = [] ∧ (∀ y ∈ r, y.kts.at_ ≠ e.kts.at_) ∧ s.now ≤ pt
      let gap := e.kts.at_ - s.tmr.startAt
      s.up ∧ s.ks.held = false ∧ next ∧ e.kind = .edge k falling false ∧ s.tmr.src ≠ k.val ∧ s.tmr.dest = 0 ∧ s.tmr.state = 2 ∧
          bit (s.reg R.tmrStopMask) k = true ∧ s.tmr.startAt < e.kts.at_ ∧ gap < 2 ^ 62 ∧ s.reg64 R.tmrWinOpen = 0 ∧ s.reg64 R.tmrWinClose = 0 ∧
          bit (s.reg R.tmrFrame) 0 = false ∧ twinOk s.tmr.startTwin = true ∧ s.tmr.n + 1 < s.stopMax e.kts.at_) ∧
    (∃ (s : State),
      let pw := procPoint ((s.tmr.startAt + s.reg64 R.tmrWinClose * 65536) / 65536)
      s.up ∧ s.ks.held = false ∧ s.tmr.items = [] ∧ s.tmr.seen = [] ∧ s.tmr.state = 2 ∧ s.reg64 R.tmrWinClose ≠ 0 ∧ twinOk s.tmr.startTwin = true ∧
          s.tmr.dest = 0 ∧ s.now ≤ pw ∧ s.fresh pw 81) ∧
    (∃ (s : State) (q : Fin 16) (i : Nat) (ent : List W32) (fifo : List (List W32)), s.up ∧ s.ks.held = false ∧
        (s.core q).drds.findIdx? (fun d => d.addr = fifoData ∧ d.val = none) = some i ∧ s.tmr.fifo = ent :: fifo) := by
  refine ⟨⟨(withRegs [(R.tiCtrl 4, 0x58001)] plain).modUnit 4 (fun u => { u with level := true, out := true }), 4, 0x10000000400, 77, true, 5,
      by decide +kernel⟩,
    ⟨(withRegs [(R.tiCtrl 9, 0x58001), (R.tcCtrl 3, 0x1601)] plain).modUnit 9 (fun u => { u with level := true, out := true }), 9, 0x10000000400,
        77, true, 5, by decide +kernel⟩,
    ⟨(withRegs [(R.tiCtrl 4, 0x58001)] plain).modUnit 4 (fun u => { u with last := some 900, level := true, out := true }), 4, 0x10000000400, 77,
        true, 6, 900, by decide +kernel⟩,
    ⟨(withRegs [(R.tiCtrl 4, 0x58001)] plain).modUnit 4 (fun u => { u with last := some 900, level := true, out := true }), 4, true, 4,
        by decide +kernel⟩,
    ⟨plain.modUnit 4 (fun u => { u with blind := true, blindEnd := 9000 }), 4, by decide +kernel⟩,
    ⟨withRegs [(R.tmrCtrl, 4 * 12 +
        1)] { plain with tmr := { plain.tmr with state := 1, seq := 0xFFFF, fifo := List.replicate 3 [1, 2, 3, 4], items := [{ kts := ktsAt 900, kind := .trigger 2 }] } }, 2, { kts := ktsAt 900, kind := .trigger 2 }, [], by decide +kernel⟩,
    ⟨withRegs [(R.tmrStopMask, 0x10), (R.tmrFrame,
        0)] { plain with tmr := { plain.tmr with state := 2, src := 12, dest := 0, startAt := 800 * 65536, startTwin := twinWords [1, 2, 3], n := 3, items := [{ kts := ktsAt 900, kind := .edge 4 true false }] } }, 4, true, { kts := ktsAt 900, kind := .edge 4 true false }, [], by decide +kernel⟩,
    ⟨withRegs [(R.tmrWinClose, 5000)] { plain with tmr := { plain.tmr with state := 2, startAt := 800 * 65536, startTwin := twinWords [1, 2, 3], n := 3 } }, by decide +kernel⟩,
    ⟨{ coreRuns (fun c => { c with drds := [{ gd := 8, addr := fifoData, issued := 1088, due := 1600, pc := 9, val := none }] }) with tmr := { plain.tmr with fifo := [[1, 2, 3, 4], [5, 6, 7, 8]] } }, 3, 0, [1, 2, 3, 4], [[5, 6, 7, 8]], by decide +kernel⟩⟩

theorem witness_TimerCalibrates :
    (∃ (s : State) (k : Fin 10) (e : Nat),
      let c := s.tmr.cal
      s.up ∧ s.ks.held = false ∧ c.phase = 1 ∧ c.waiting = [k.val] ∧ s.granted 18 7 = some e ∧ (s.entry e).ok = true ∧ s.unitFree k = true) ∧
    (∃ (s : State) (k : Fin 10) (hits : List W32),
      let u := s.unit k
      s.up ∧ s.ks.held = false ∧ u.calibrating = true ∧ u.calCounted = false ∧ hitsOk hits = true ∧ hits.length = 512) ∧
    (∃ (s : State) (k : Fin 10) (hits : List W32),
      let u := s.unit k
      s.up ∧ s.ks.held = false ∧ u.calibrating = true ∧ u.calCounted = false ∧ hitsOk hits = false ∧
          s.fresh (alignUp (max s.now u.calDue) 128) 85) ∧
    (∃ (s : State) (k : Fin 10),
      let c := s.tmr.cal
      let u := s.unit k
      s.up ∧ s.ks.held = false ∧ u.calibrating = true ∧ u.calCounted = true ∧ c.phase = 2 ∧ c.waiting ≠ []) ∧
    (∃ (s : State) (k : Fin 10),
      let c := s.tmr.cal
      let u := s.unit k
      s.up ∧ s.ks.held = false ∧ u.calibrating = true ∧ u.calCounted = true ∧ c.phase = 2 ∧ c.waiting = [] ∧ (∀ j : Fin 10,
          j ≠ k → (s.unit j).calibrating = false) ∧ s.findEntry 18 7 = none ∧ c.byMgt = false ∧ s.fresh (alignUp (max s.now u.calDue) 128) 84) ∧
    (∃ (s : State) (k : Fin 10),
      let c := s.tmr.cal
      s.up ∧ s.ks.held = false ∧ c.phase = 2 ∧ c.waiting.contains k.val = true ∧ c.waiting.filter (· ≠ k.val) ≠ []) ∧
    (∃ (s : State),
      let c := s.tmr.cal
      s.up ∧ s.ks.held = false ∧ c.phase = 1 ∧ s.findEntry 18 7 = none ∧ c.byMgt = false ∧ s.fresh (alignUp (max s.now c.due) 128) 84) := by
  refine ⟨⟨({ plain with tmr := { plain.tmr with cal := { plain.tmr.cal with phase := 1, units := 0x10, waiting := [4], due := 9000 } } }).setEntry 5 (entryVal 7 18 3 { core := 0, conv := 1, hbm0 := 0, hbm1 := 0 }), 4, 5, by decide +kernel⟩,
    ⟨({ plain with tmr := { plain.tmr with cal := { plain.tmr.cal with phase := 2, units := 0x10 } } }).modUnit 4 (fun u => { u with calibrating := true, calDue := 9000 }), 4, [0] ++ List.replicate 420 9961 ++ [10632] ++ List.replicate 90 0, by decide +kernel⟩,
    ⟨({ plain with tmr := { plain.tmr with cal := { plain.tmr.cal with phase := 2, units := 0x10 } } }).modUnit 4 (fun u => { u with calibrating := true, calDue := 9000 }), 4, [1, 2, 3], by decide +kernel⟩,
    ⟨({ plain with tmr := { plain.tmr with cal := { plain.tmr.cal with phase := 2, units := 0x30, waiting := [5] } } }).modUnit 4 (fun u => { u with calibrating := true, calCounted := true, calDue := 9000 }), 4, by decide +kernel⟩,
    ⟨({ plain with tmr := { plain.tmr with cal := { plain.tmr.cal with phase := 2, units := 0x10, done := 0x10 } } }).modUnit 4 (fun u => { u with calibrating := true, calCounted := true, calDue := 9000 }), 4, by decide +kernel⟩,
    ⟨({ plain with tmr := { plain.tmr with cal := { plain.tmr.cal with phase := 2, units := 0x30, waiting := [5, 4] , due := 9000} } }), 4,
        by decide +kernel⟩,
    ⟨({ plain with tmr := { plain.tmr with cal := { plain.tmr.cal with phase := 1, units := 0x30, waiting := [5, 4] , due := 9000} } }),
        by decide +kernel⟩⟩

theorem witness_RecordsAndDirectories :
    (∃ (s : State) (n : Fin 8) (outs : BitVec 6) (r : RecRun),
      let x := s.ring n
      let j := x.issued / r.q
      let k := j * r.q + min outs.toNat r.q
      let issue := x.closing = [] ∧ x.run = some r ∧ 0 < r.q ∧ x.issued < k ∧ (∀ m, s.outputsOf n r = some m → k ≤ m) ∧ (k = (j +
          1) * r.q ∨ s.windowEnds r k = true) ∧ s.protectedStart n = none
      s.up ∧ s.ks.held = false ∧ issue ∧ r.a0 + (j + 1) * r.cb < 2 ^ 64 ∧ s.present (R.recWrCount n)) ∧
    (∃ (s : State) (n : Fin 8) (outs : BitVec 6) (r : RecRun),
      let x := s.ring n
      let j := x.issued / r.q
      let k := j * r.q + min outs.toNat r.q
      let at_ := max s.now (r.packerAt (k - 1))
      let v0 := (r.blockEnd (j * r.q) - 1) * r.ts / 128
      let gapAt := alignUp (max at_ ((v0 + 28) * 128)) 128
      let issue := x.closing = [] ∧ x.run = some r ∧ 0 < r.q ∧ x.issued < k ∧ (∀ m, s.outputsOf n r = some m → k ≤ m) ∧ (k = (j +
          1) * r.q ∨ s.windowEnds r k = true) ∧ s.protectedStart n = none
      s.up ∧ s.ks.held = false ∧ issue ∧ x.gapVec ≤ v0 ∧ x.gapChunk ≠ some ((r.a0 + j * r.cb) / r.cb) ∧ s.present (R.recGapCount n) ∧
          s.fresh gapAt (96 + n)) ∧
    (∃ (s : State) (n : Fin 8) (c : Closing) (cs : List Closing),
      let x := s.ring n
      let endAt := alignUp (max s.now (c.run.packerAt (c.total - 1))) 128
      s.up ∧ s.ks.held = false ∧ x.closing = c :: cs ∧ 0 < c.total ∧ 0 < c.run.q ∧ c.issued = c.total ∧ c.total % c.run.q = 0 ∧
          s.present (R.recEndTick n) ∧ s.fresh endAt (104 + n)) ∧
    (∃ (s : State) (n : Fin 8) (c : Closing) (cs : List Closing),
      let x := s.ring n
      let jc := c.issued / c.run.q
      s.up ∧ s.ks.held = false ∧ x.closing = c :: cs ∧ 0 < c.run.q ∧ c.issued < c.total ∧ c.total ≤ (jc + 1) * c.run.q ∧
          s.protectedStart n = none ∧ c.run.a0 + (jc + 1) * c.run.cb < 2 ^ 64 ∧ s.present (R.recWrCount n)) ∧
    (∃ (s : State) (p : Fin 4), s.up ∧ s.ks.held = false ∧ (s.dir p).init = true) ∧
    (∃ (s : State) (p : Fin 4) (g : Seg), s.up ∧ s.ks.held = false ∧ (s.dir p).segs.find? (fun y => !y.written) = some g ∧ g.kts.length = 3 ∧
        s.lineStatus (s.slotAddr p g.seq) = 0) ∧
    (∃ (s : State) (p : Fin 4) (g : Seg),
      let sealAt := max s.now (g.run.packerAt (g.kRef + g.post - 1) + 256)
      s.up ∧ s.ks.held = false ∧ (s.dir p).segs.find? (fun y => !y.sealed) = some g ∧ g.written = true ∧ g.lost = false ∧ g.seq + 1 < 2 ^ 64 ∧
          (bitsOf 8 g.inputs).all (s.windowIssued g) = true ∧ s.lineStatus (s.slotAddr p g.seq) = 0 ∧ s.fresh (alignUp sealAt 128) (112 + p)) ∧
    (∃ (s : State) (code : BitVec 8) (b : W64), s.up ∧ s.ks.held = false ∧ s.nodRole = 2 ∧ s.nod.state ≠ 0 ∧ bit (s.reg R.recNodCtrl) 0 = true ∧
        s.rf R.recNodCtrl 1 8 = code.toNat ∧ s.count + 256 ≤ b.toNat ∧ s.converterMode = false ∧ (∀ m : Fin 8, (s.ring m).state = 0) ∧
        (∀ q : Fin 4, (s.dir q).bound = false)) := by
  refine ⟨⟨(converting 2 plain).modRing 2 (fun x => { x with state := 1, run := some recRunOf, issued := 2 }), 2, 2, recRunOf, by decide +kernel⟩,
    ⟨(converting 2 plain).modRing 2 (fun x => { x with state := 1, run := some recRunOf, issued := 2 }), 2, 2, recRunOf, by decide +kernel⟩,
    ⟨plain.modRing 2 (fun x => { x with state := 0, closing := [{ run := recRunOf, total := 4, issued := 4 }] }),
        2, { run := recRunOf, total := 4, issued := 4 }, [], by decide +kernel⟩,
    ⟨(converting 2 plain).modRing 2 (fun x => { x with state := 0, closing := [{ run := recRunOf, total := 3, issued := 2 }] }),
        2, { run := recRunOf, total := 3, issued := 2 }, [], by decide +kernel⟩,
    ⟨plain.modDir 1 (fun d => { d with init := true }), 1, by decide +kernel⟩,
    ⟨plain.modDir 1 (fun d => { d with bound := true, segs := [{ segOf with written := true, seq := 4 }, segOf] }), 1, segOf, by decide +kernel⟩,
    ⟨plain.modDir 1 (fun d => { d with bound := true, segs := [{ segOf with written := true }] }), 1, { segOf with written := true },
        by decide +kernel⟩,
    ⟨withRegs [(R.nodCtrl, 2), (R.recNodCtrl, 0x79), (R.dirCtrl 1, 0x3C), (R.recArm,
        3)] { plain with nod := { plain.nod with state := 4, link0 := 3, link1 := 3 } }, 0x3C, 0x100000004E8, by decide +kernel⟩⟩

theorem witness_ChurnEngineWorks :
    (∃ (s : State) (n : Fin 8) (e : Era),
      let c := s.ch n
      let b := s.boundary
      let first := fun (t : Nat) => ceilDiv t e.period
      let jRef := ceilDiv (first (b - 3296) + 1 - e.anchor) e.ratio - 1
      let held := s.churnPre n b + max (ceilDiv (first (c.histFrom - 3296) - e.anchor) e.ratio) (((b - 3296) / e.period +
          1 - e.anchor) / e.ratio - 32768)
      s.up ∧ s.ks.held = false ∧ (s.ch n).changes = [] ∧ (s.ch n).seen = [] ∧ s.churnRuns n b = true ∧ c.bufs.length < 2 ∧
          (s.churnMode n b = 1 ∨ (s.churnMode n b = 2 ∧ c.autoFree = true)) ∧ (s.inp n).eraAt (b - 3296) = some e ∧ 0 < e.period ∧ held ≤ jRef) ∧
    (∃ (s : State) (n : Fin 8),
      let c := s.ch n
      s.up ∧ s.ks.held = false ∧ (s.ch n).changes = [] ∧ (s.ch n).seen = [] ∧ s.churnRuns n s.now = true ∧ s.churnMode n s.now = 2 ∧
          c.autoFree = false) ∧
    (∃ (s : State) (n : Fin 8) (w : Wfm),
      let c := s.ch n
      s.up ∧ s.ks.held = false ∧ (s.ch n).changes = [] ∧ (s.ch n).seen = [] ∧ c.bufs = [w] ∧ w.complete = false ∧
          ((s.inp n).stream (w.label 0 * w.ts)).2 = none) ∧
    (∃ (s : State) (n : Fin 8),
      let c := s.ch n
      let here := s.present (R.churnWfmCount n) ∧ s.present (R.churnAvgCount n)
      s.up ∧ s.ks.held = false ∧ (s.ch n).changes = [] ∧ (s.ch n).seen = [] ∧ c.op = none ∧ s.churnOn n = true ∧ c.pendClear = true ∧ here) ∧
    (∃ (s : State) (n : Fin 8),
      let c := s.ch n
      s.up ∧ s.ks.held = false ∧ (s.ch n).changes = [] ∧ (s.ch n).seen = [] ∧ c.op = none ∧ s.churnOn n = true ∧ c.pendClear = false ∧
          c.pendDecay ≠ 0 ∧ c.snap = none) ∧
    (∃ (s : State) (n : Fin 8) (w : Wfm) (r : List Wfm),
      let c := s.ch n
      s.up ∧ s.ks.held = false ∧ (s.ch n).changes = [] ∧ (s.ch n).seen = [] ∧ c.op = none ∧ s.churnOn n = true ∧ c.pendClear = false ∧
          c.pendDecay = 0 ∧ c.bufs = w :: r ∧ w.complete = true) ∧
    (∃ (s : State) (n : Fin 8) (x : Nat) (sh : Nat),
      let c := s.ch n
      s.up ∧ s.ks.held = false ∧ (s.ch n).changes = [] ∧ (s.ch n).seen = [] ∧ c.op = some (.decay sh, x) ∧ Assoc.wf (fun _ => 0) c.db = true) ∧
    (∃ (s : State) (n : Fin 8) (w : Wfm) (r : List Wfm) (x : Nat),
      let c := s.ch n
      let here := s.present (R.churnWfmCount n) ∧ s.present (R.churnAvgCount n)
      s.up ∧ s.ks.held = false ∧ (s.ch n).changes = [] ∧ (s.ch n).seen = [] ∧ c.op = some (.pass, x) ∧ c.bufs = w :: r ∧ c.pendClear = false ∧
          c.pendAvg = false ∧ w.ovr = false ∧ bit (s.reg (R.churnDecay n)) 3 = false ∧ here ∧ s.reg (R.churnAvgCount n) ≠ 0xFFFFFFFF) ∧
    (∃ (s : State) (n : Fin 8), s.up ∧ s.ks.held = false ∧ (s.ch n).changes = [] ∧ (s.ch n).seen = [] ∧ s.churnOn n = true ∧
        bit (s.reg (R.churnDecay n)) 4 = true ∧ s.rf (R.churnDecay n) 0 3 = 1) := by
  refine ⟨⟨withRegs [(R.churnCtrl 2, 3)] (let x := converting 2 plain; { x with now := 500000 }), 2, eraOf, by decide +kernel⟩,
    ⟨withRegs [(R.churnCtrl 2, 5), (R.churnAutoTimeout 2, 20000)] (converting 2 plain), 2, by decide +kernel⟩,
    ⟨(converting 2 plain).modChurn 2 (fun c => { c with bufs := [wfmOf] }), 2, wfmOf, by decide +kernel⟩,
    ⟨(withRegs [(R.churnCtrl 2, 1), (R.churnWfmCount 2,
        5)] (converting 2 plain)).modChurn 2 (fun c => { c with bufs := [wfmOf], db := [(5, 6)], pendClear := true }), 2, by decide +kernel⟩,
    ⟨(withRegs [(R.churnCtrl 2, 1), (R.churnWfmCount 2,
        5)] (converting 2 plain)).modChurn 2 (fun c => { c with bufs := [wfmOf], db := [(5, 6)], pendDecay := 16 }), 2, by decide +kernel⟩,
    ⟨(withRegs [(R.churnCtrl 2, 1), (R.churnWfmCount 2,
        5)] (converting 2 plain)).modChurn 2 (fun c => { c with bufs := [{ wfmOf with complete := true, outs := [(1, 2, 1), (3, 4, 3), (5, 6, 5)] }], db := [(5, 6)] }), 2, { wfmOf with complete := true, outs := [(1, 2, 1), (3, 4, 3), (5, 6, 5)] }, [], by decide +kernel⟩,
    ⟨(withRegs [(R.churnCtrl 2, 1)] (converting 2 plain)).modChurn 2 (fun c => { c with db := [(5, 6), (7, 1)], op := some (.decay 1, 9000) }), 2,
        9000, 1, by decide +kernel⟩,
    ⟨(withRegs [(R.churnCtrl 2, 1), (R.churnWfmCount 2,
        0xFFFFFFFF)] (converting 2 plain)).modChurn 2 (fun c => { c with bufs := [{ wfmOf with complete := true, outs := [(1, 2, 1), (3, 4, 3), (5, 6, 5)] }], op := some (.pass, 9000), db := [(5, 6)] }), 2, { wfmOf with complete := true, outs := [(1, 2, 1), (3, 4, 3), (5, 6, 5)] }, [], 9000, by decide +kernel⟩,
    ⟨(withRegs [(R.churnCtrl 2, 1), (R.churnDecay 2, 0x11)] (converting 2 plain)).modChurn 2 (fun c => { c with pendDecay := 15 }), 2,
        by decide +kernel⟩⟩

theorem witness_SnapshotsAreTakenAndPublished :
    (∃ (s : State) (n : Fin 8),
      let c := s.ch n
      s.up ∧ s.ks.held = false ∧ (s.ch n).changes = [] ∧ (s.ch n).seen = [] ∧ s.rf (R.churnSnapCtrl n) 1 2 = 1 ∧ s.churnOn n = true ∧
          bit (s.reg (R.churnSnapCtrl n)) 0 = true ∧ c.snap = none ∧ c.published = some 0 ∧ c.holds = [] ∧ s.pageBase n + 2 ^ 25 ≤ s.dpaTop) ∧
    (∃ (s : State) (n : Fin 8) (x : Snap),
      let c := s.ch n
      let ev := s.rf (R.churnSnapCtrl n) 6 8
      s.up ∧ s.ks.held = false ∧ (s.ch n).changes = [] ∧ (s.ch n).seen = [] ∧ s.rf (R.churnSnapCtrl n) 1 2 = 2 ∧ Assoc.get 0 s.evt.last ev ≠ 0 ∧
          c.periodAt < Assoc.get 0 s.evt.last ev ∧ s.churnOn n = true ∧ bit (s.reg (R.churnSnapCtrl n)) 0 = true ∧ c.snap = some x ∧
          c.snapPending = false) ∧
    (∃ (s : State) (n : Fin 8) (x : Snap),
      let c := s.ch n
      s.up ∧ s.ks.held = false ∧ (s.ch n).changes = [] ∧ (s.ch n).seen = [] ∧ c.snap = some x ∧ x.band < 64) ∧
    (∃ (s : State) (n : Fin 8) (x : Snap),
      let c := s.ch n
      s.up ∧ s.ks.held = false ∧ (s.ch n).changes = [] ∧ (s.ch n).seen = [] ∧ c.snap = some x ∧ x.band = 64 ∧ x.poison = false ∧
          s.pageBad x.base = false ∧ c.snapPending = false ∧ s.headOf n = n.val ∧ s.fresh s.boundary (128 + n) ∧ s.present (R.churnSnapSeq n)) := by
  refine ⟨⟨(withRegs [(R.churnCtrl 2, 1), (R.churnSnapCtrl 2, 3)] (converting 2 plain)).modChurn 2 (fun c => { c with published := some 0 }), 2,
      by decide +kernel⟩,
    ⟨(withRegs [(R.churnCtrl 2, 1), (R.churnSnapCtrl 2, 5 + 64 * 9)] (let x := converting 2 plain;
        { x with evt := { x.evt with last := [(9, 1025)] } })).modChurn 2 (fun c => { c with snap := some snapOf }), 2, snapOf, by decide +kernel⟩,
    ⟨(withRegs [(R.churnCtrl 2, 1), (R.churnSnapCtrl 2, 5 +
        64 * 9)] (converting 2 plain)).modChurn 2 (fun c => { c with snap := some { snapOf with band := 63 } }), 2, { snapOf with band := 63 },
        by decide +kernel⟩,
    ⟨(withRegs [(R.churnCtrl 2, 1), (R.churnSnapCtrl 2, 5 +
        64 * 9)] (converting 2 plain)).modChurn 2 (fun c => { c with snap := some { snapOf with band := 64 } }), 2, { snapOf with band := 64 },
        by decide +kernel⟩⟩

theorem witness_ArbiterPacesTheBallast :
    (∃ (s : State) (e : Nat),
      let p := s.permits
      s.up ∧ s.ks.held = false ∧ s.rampingEntry = some e ∧ 1 < p.rampUp) ∧
    (∃ (s : State) (q : Fin 16) (e : Nat) (gd : Nat) (deadline : Option Nat),
      let p := s.permits
      s.up ∧ s.ks.held = false ∧ s.rampingEntry = some e ∧ p.rampUp = 1 ∧ (s.entry e).ok = true ∧ (s.entry e).req = q.val ∧ (s.entry e).kind < 6 ∧
          gd < 32 ∧ (s.core q).waiting = some (.permit gd (s.entry e).kind deadline)) ∧
    (∃ (s : State) (e : Nat) (r : PReq),
      let p := s.permits
      s.up ∧ s.ks.held = false ∧ s.rampingEntry = none ∧ s.queueHead = some r ∧ r.entry = some e ∧ 1 < r.units.core ∧ s.fits r.units = true ∧
          p.hold = false ∧ (s.entry e).ok = true ∧ (s.entry e).st ≠ 5 ∧ e < 64 ∧ r.kind < 16 ∧ r.req < 64) ∧
    (∃ (s : State) (q : Fin 16) (e : Nat) (gd : Nat) (deadline : Option Nat) (r : PReq),
      let p := s.permits
      s.up ∧ s.ks.held = false ∧ s.queueHead = some r ∧ r.entry = some e ∧ r.units.core = 0 ∧ s.fits r.units = true ∧ p.hold = false ∧
          (s.entry e).ok = true ∧ (s.entry e).st ≠ 5 ∧ e < 64 ∧ r.kind = 5 ∧ r.req = q.val ∧ gd < 32 ∧
          (s.core q).waiting = some (.permit gd 5 deadline)) ∧
    (∃ (s : State),
      let p := s.permits
      s.up ∧ s.ks.held = false ∧ p.rampUp = 0 ∧ p.lowering ≠ 0) ∧
    (∃ (s : State) (q : Fin 16) (gd : Nat) (d : Nat) (deadline : Option Nat) (kind : BitVec 4) (r : PReq),
      let p := s.permits
      s.up ∧ s.ks.held = false ∧ p.queue.find? (fun y => y.req = q.val ∧ y.kind = kind.toNat) = some r ∧ r.deadline = some d ∧
          s.grantsBy q kind.toNat d = false ∧ s.findEntry q kind.toNat = none ∧ 0 < gd ∧ gd < 32 ∧
          (s.core q).waiting = some (.permit gd kind.toNat deadline) ∧ s.fresh (alignUp (max s.now d) 128) 240) ∧
    (∃ (s : State) (q : Fin 16) (d : Nat) (kind : BitVec 4), s.up ∧ s.ks.held = false ∧ s.permitDeadline q kind.toNat = some d ∧
        s.grantsBy q kind.toNat d = true) ∧
    (∃ (s : State) (f : Fall) (fs : List Fall),
      let p := s.permits
      s.up ∧ s.ks.held = false ∧ p.falls = f :: fs) ∧
    (∃ (s : State) (q : Fin 16) (e : Nat) (x : Nat) (cores : BitVec 16), s.up ∧ s.ks.held = false ∧ (s.core q).run = .halted ∧ x < 16 ∧
        s.findEntry q x = some e ∧ (∀ k, k < 16 → k ≠ x → s.findEntry q k = none) ∧ (s.entry e).st = 3 ∧ (s.entry e).ok = true ∧ (∀ k,
        k < 16 → cores.getLsbD k = decide (k = q.val))) ∧
    (∃ (s : State) (cores : BitVec 16), s.up ∧ s.ks.held = false ∧ (∀ k : Fin 16, cores.getLsbD k = true → (s.core k).run ≠ .halted ∧
        (s.core k).run ≠ .faulted)) := by
  refine ⟨⟨({ plain with permits := { plain.permits with rampUp := 3, ballast := 4, steps := List.replicate 68 3 } }).setEntry 5 (entryVal 1 3 2 { core := 6, conv := 0, hbm0 := 0, hbm1 := 0 }), 5, by decide +kernel⟩,
    ⟨({ coreRuns (fun c => { c with run := .blocked, waiting := some (.permit 8 1 none) }) with permits := { plain.permits with rampUp := 1, ballast := 4 } }).setEntry 5 (entryVal 1 3 2 { core := 6, conv := 0, hbm0 := 0, hbm1 := 0 }), 3, 5, 8, none, by decide +kernel⟩,
    ⟨({ plain with permits := { plain.permits with queue := [{ req := 3, kind := 1, units := { core := 6, conv := 0, hbm0 := 0, hbm1 := 0 }, arrival := 900, deadline := none, entry := some 5 }] } }).setEntry 5 (entryVal 1 3 1 { core := 6, conv := 0, hbm0 := 0, hbm1 := 0 }), 5, { req := 3, kind := 1, units := { core := 6, conv := 0, hbm0 := 0, hbm1 := 0 }, arrival := 900, deadline := none, entry := some 5 }, by decide +kernel⟩,
    ⟨({ coreRuns (fun c => { c with run := .blocked, waiting := some (.permit 8 5 none) }) with permits := { plain.permits with queue := [{ req := 3, kind := 5, units := { core := 0, conv := 6, hbm0 := 0, hbm1 := 0 }, arrival := 900, deadline := none, entry := some 63 }] } }).setEntry 63 (entryVal 5 3 1 { core := 0, conv := 6, hbm0 := 0, hbm1 := 0 }), 3, 63, 8, none, { req := 3, kind := 5, units := { core := 0, conv := 6, hbm0 := 0, hbm1 := 0 }, arrival := 900, deadline := none, entry := some 63 }, by decide +kernel⟩,
    ⟨{ plain with permits := { plain.permits with lowering := 2, ballast := 4, held := { core := 5, conv := 6, hbm0 := 0, hbm1 := 0 } } },
        by decide +kernel⟩,
    ⟨{ coreRuns (fun c => { c with run := .blocked, waiting := some (.permit 31 1 (some 9000)) }) with permits := { plain.permits with queue := [{ req := 3, kind := 1, units := { core := 6, conv := 0, hbm0 := 0, hbm1 := 0 }, arrival := 900, deadline := some 9000, entry := none }, { req := 4, kind := 1, units := { core := 6, conv := 0, hbm0 := 0, hbm1 := 0 }, arrival := 900, deadline := some 9000, entry := none }] } }, 3, 31, 9000, some 9000, 1, { req := 3, kind := 1, units := { core := 6, conv := 0, hbm0 := 0, hbm1 := 0 }, arrival := 900, deadline := some 9000, entry := none }, by decide +kernel⟩,
    ⟨({ coreRuns (fun c => { c with run := .blocked, waiting := some (.permit 8 1 (some 9000)) }) with permits := { plain.permits with rampUp := 1, ballast := 4 } }).setEntry 5 (entryVal 1 3 2 { core := 6, conv := 0, hbm0 := 0, hbm1 := 0 }), 3, 9000, 1, by decide +kernel⟩,
    ⟨{ plain with permits := { plain.permits with load := { core := 9, conv := 9, hbm0 := 9, hbm1 := 9 }, falls := [{ due := 5000, units := { core := 3, conv := 4, hbm0 := 1, hbm1 := 0 } }] } }, { due := 5000, units := { core := 3, conv := 4, hbm0 := 1, hbm1 := 0 } }, [], by decide +kernel⟩,
    ⟨(plain.setEntry 5 (entryVal 1 3 3 { core := 6, conv := 0, hbm0 := 0, hbm1 := 0 })), 3, 5, 1, 8, by decide +kernel⟩,
    ⟨coreRuns id, 8, by decide +kernel⟩⟩

theorem witness_MemoryMovesLines :
    (∃ (s : State) (pt : Fin 19) (write : Bool) (dpa : BitVec 40),
      let a := dpa.toNat / 64 * 64
      s.up ∧ s.ks.held = false ∧ s.unregulated pt = true ∧ s.mem.pendMasks = none ∧ s.atBound pt write = false ∧ s.lineStatus a = 0) ∧
    (∃ (s : State) (pt : Fin 19) (write : Bool) (dpa : BitVec 40),
      let a := dpa.toNat / 64 * 64
      s.up ∧ s.ks.held = false ∧ s.unregulated pt = true ∧ s.mem.pendMasks = none ∧ s.atBound pt write = false ∧ s.lineStatus a = 1 ∧
          s.fresh s.boundary 144) ∧
    (∃ (s : State) (e : Fin 64) (write : Bool) (p : Nat) (l : MLine) (rest : List MLine),
      let x := s.engine e
      let h := s.hchan (chanOfEngine e)
      s.up ∧ s.ks.held = false ∧ s.pickPort e write = some p ∧ s.mem.pendMasks = none ∧ (s.mport p).wait = l :: rest ∧ s.lineStatus l.dpa = 0 ∧
          h.sr = 0 ∧ write = true ∧ x.wq.any (fun y => y.dpa == l.dpa) = false) ∧
    (∃ (s : State) (e : Fin 64) (write : Bool) (p : Nat) (l : MLine) (rest : List MLine),
      let x := s.engine e
      let h := s.hchan (chanOfEngine e)
      s.up ∧ s.ks.held = false ∧ s.pickPort e write = some p ∧ s.mem.pendMasks = none ∧ (s.mport p).wait = l :: rest ∧ s.lineStatus l.dpa = 0 ∧
          h.sr = 0 ∧ write = true ∧ x.wq.any (fun y => y.dpa == l.dpa) = true) ∧
    (∃ (s : State) (e : Fin 64) (write : Bool) (p : Nat) (l : MLine) (rest : List MLine),
      let x := s.engine e
      let h := s.hchan (chanOfEngine e)
      s.up ∧ s.ks.held = false ∧ s.pickPort e write = some p ∧ s.mem.pendMasks = none ∧ (s.mport p).wait = l :: rest ∧ s.lineStatus l.dpa = 0 ∧
          h.sr = 0 ∧ write = false ∧ x.wq.find? (fun y => y.dpa == l.dpa) = none) ∧
    (∃ (s : State) (e : Fin 64) (l : MLine),
      let x := s.engine e
      let h := s.hchan (chanOfEngine e)
      let free := h.held = false ∧ h.fenced = false ∧ h.sr = 0
      s.up ∧ s.ks.held = false ∧ free ∧ x.rq = [l] ∧ x.wq = [] ∧ x.writing = false ∧ x.lcBy = none ∧ l.write = false ∧ l.waits = false ∧
          bit (s.reg R.memRdCtrl) 0 = false) ∧
    (∃ (s : State) (e : Fin 64) (l : MLine),
      let x := s.engine e
      let h := s.hchan (chanOfEngine e)
      let free := h.held = false ∧ h.fenced = false ∧ h.sr = 0
      s.up ∧ s.ks.held = false ∧ free ∧ x.rq = [] ∧ x.wq = [l] ∧ l.write = true ∧ l.mask = 2 ^ 64 - 1 ∧ bit (s.reg R.memRdCtrl) 0 = false) ∧
    (∃ (s : State) (e : Fin 64) (l : MLine) (rest : List MLine),
      let x := s.engine e
      let h := s.hchan (chanOfEngine e)
      s.up ∧ s.ks.held = false ∧ h.fenced = false ∧ x.fly = l :: rest) ∧
    (∃ (s : State) (e : Fin 64) (l : MLine) (rest : List MLine),
      let x := s.engine e
      let h := s.hchan (chanOfEngine e)
      s.up ∧ s.ks.held = false ∧ h.fenced = false ∧ x.fly = l :: rest ∧ l.tries < 2) ∧
    (∃ (s : State) (e : Fin 64) (l : MLine) (rest : List MLine),
      let x := s.engine e
      let h := s.hchan (chanOfEngine e)
      s.up ∧ s.ks.held = false ∧ h.fenced = false ∧ x.fly = l :: rest ∧ s.fresh s.boundary 147) ∧
    (∃ (s : State), s.up ∧ s.ks.held = false ∧ s.latchGet 16 (2 ^ 32 + 0x70008) = none) ∧
    (∃ (s : State) (addr : W32),
      let dcs := addr.toNat / 4 * 4
      s.up ∧ s.ks.held = false ∧ s.latchGet 17 dcs = none ∧ latchedBy dcs = [] ∧ ¬ (0x1000 ≤ dcs ∧ dcs < 0x100C)) ∧
    (∃ (s : State) (ms : List (W32 × W32)), s.up ∧ s.ks.held = false ∧ s.mem.pendMasks = some ms ∧ s.queuesEmpty = true ∧ s.memHeld = 0 ∧ (∀ st,
        st < 2 → s.rateReg st = (s.stack st).rate)) ∧
    (∃ (s : State), s.up ∧ s.ks.held = false ∧ (∀ m ∈ s.mem.masks, m.2 = ~~~ m.1) ∧ s.mem.masks.length = 10 ∧ s.mem.good = s.mem.masks.map (·.1)) ∧
    (∃ (s : State) (flip : W32),
      let top := alignUp (s.now + 1) 131072
      s.up ∧ s.ks.held = false ∧ (∀ m ∈ s.mem.masks, m.2 = ~~~ m.1) ∧ s.mem.masks.length = 10 ∧ s.mem.good = s.mem.masks.map (·.1) ∧ flip ≠ 0 ∧
          s.is9620 = false ∧ s.fresh top 11) := by
  refine ⟨⟨plain, 7, true, 0xBFFFFFFFF, by decide +kernel⟩,
    ⟨plain, 7, false, 0x1000000000, by decide +kernel⟩,
    ⟨(plain.modMport 2 (fun x => { x with wait := [memLine 2 0 true, memLine 2 64 true] })).modEngine 0 (fun x => { x with rq := [{ memLine 2 0 false with at_ := 1000 }, memLine 2 64 false] }), 0, true, 2, memLine 2 0 true, [memLine 2 64 true], by decide +kernel⟩,
    ⟨(plain.modMport 2 (fun x => { x with wait := [memLine 2 0 true, memLine 2 64 true] })).modEngine 0 (fun x => { x with wq := [{ memLine 3 0 true with mask := 1 }] }), 0, true, 2, memLine 2 0 true, [memLine 2 64 true], by decide +kernel⟩,
    ⟨(plain.modMport 2 (fun x => { x with wait := [memLine 2 0 false, memLine 2 64 true] })).modEngine 0 (fun x => { x with wq := [{ memLine 3 64 true with mask := 1 }] }), 0, false, 2, memLine 2 0 false, [memLine 2 64 true], by decide +kernel⟩,
    ⟨withRegs [(R.memRdCtrl, 0)] (plain.modEngine 0 (fun x => { x with rq := [memLine 2 0 false], fly := [memLine 2 64 false] })), 0,
        memLine 2 0 false, by decide +kernel⟩,
    ⟨withRegs [(R.memRdCtrl, 0)] (plain.modEngine 0 (fun x => { x with wq := [memLine 2 0 true], unacked := [memLine 2 64 false] })), 0,
        memLine 2 0 true, by decide +kernel⟩,
    ⟨plain.modEngine 0 (fun x => { x with fly := [{ memLine 2 0 false with tries := 1 }, memLine 2 64 false] }),
        0, { memLine 2 0 false with tries := 1 }, [memLine 2 64 false], by decide +kernel⟩,
    ⟨plain.modEngine 0 (fun x => { x with fly := [{ memLine 2 0 false with tries := 1 }, memLine 2 64 false] }),
        0, { memLine 2 0 false with tries := 1 }, [memLine 2 64 false], by decide +kernel⟩,
    ⟨plain.modEngine 0 (fun x => { x with fly := [{ memLine 2 0 false with tries := 1 }, memLine 2 64 false] }),
        0, { memLine 2 0 false with tries := 1 }, [memLine 2 64 false], by decide +kernel⟩,
    ⟨withRegs [(R.memXlateIn, 0x87654A40), (R.memXlateIn + 4, 5)] plain, by decide +kernel⟩,
    ⟨withRegs [(R.memXlateIn, 0x87654A40), (R.memXlateIn + 4, 5)] plain, 0x70000, by decide +kernel⟩,
    ⟨{ plain with mem := { plain.mem with pendMasks := some [(1, 2), (3, 4)], mapSeq := 255 } }, [(1, 2), (3, 4)], by decide +kernel⟩,
    ⟨plain, ⟨by decide +kernel, by decide +kernel, plain_masks, by decide +kernel, by decide +kernel⟩⟩,
    ⟨plain, 0x80000000, ⟨by decide +kernel, by decide +kernel, plain_masks, by decide +kernel, by decide +kernel, by decide +kernel,
        by decide +kernel, by decide +kernel⟩⟩⟩

theorem witness_MemoryIntegrityHolds :
    (∃ (s : State) (c : Fin 32),
      let h := s.hchan c
      let here := c.val / 16 < s.nStacks
      s.up ∧ s.ks.held = false ∧ here ∧ (h.fenced = false ∨ h.unfencing = true) ∧ h.attempt = 0 ∧ s.fresh s.boundary 145) ∧
    (∃ (s : State) (c : Fin 32),
      let h := s.hchan c
      let here := c.val / 16 < s.nStacks
      s.up ∧ s.ks.held = false ∧ here ∧ (h.fenced = false ∨ h.unfencing = true) ∧ h.attempt ≠ 0) ∧
    (∃ (s : State) (c : Fin 32), s.up ∧ s.ks.held = false ∧ s.nStacks ≤ c.val / 16) ∧
    (∃ (s : State) (c : Fin 32),
      let h := s.hchan c
      let here := c.val / 16 < s.nStacks
      s.up ∧ s.ks.held = false ∧ here ∧ h.attempt ≠ 0 ∧ h.failed = false) ∧
    (∃ (s : State) (c : Fin 32),
      let h := s.hchan c
      let here := c.val / 16 < s.nStacks
      s.up ∧ s.ks.held = false ∧ here ∧ h.attempt = 1 ∧ h.failed = true) ∧
    (∃ (s : State) (c : Fin 32) (dur : BitVec 9),
      let h := s.hchan c
      let here := c.val / 16 < s.nStacks
      let empty := ∀ k ∈ [2 * c.val, 2 * c.val + 1], (s.engine k).rq = [] ∧ (s.engine k).wq = [] ∧ (s.engine k).fly = []
      let past := s.now + min 500 dur.toNat * s.ckMem (c / 16)
      s.up ∧ s.ks.held = false ∧ here ∧ h.attempt = 2 ∧ h.failed = true ∧ empty ∧ s.fresh (alignUp past 128) 148) ∧
    (∃ (s : State) (c : Fin 32),
      let h := s.hchan c
      s.up ∧ s.ks.held = false ∧ h.unfencing = true ∧ h.attempt = 0 ∧ h.rateHold = false ∧ (s.stack (c / 16)).rateBy = none ∧
          s.rateWaits (c / 16) = false) ∧
    (∃ (s : State) (c : Fin 32),
      let h := s.hchan c
      s.up ∧ s.ks.held = false ∧ h.unfencing = true ∧ h.attempt = 0 ∧ h.rateHold = false ∧ (s.stack (c / 16)).rateBy = none ∧
          s.rateWaits (c / 16) = false ∧ s.fresh (alignUp (max s.now h.unfenceBy) 128) 148) ∧
    (∃ (s : State) (e : Fin 64) (i : Fin 32) (l : MLine), s.up ∧ s.ks.held = false ∧ (s.engine e).unacked[i.val]? = some l ∧ l.tries < 2 ∧
        s.fresh s.boundary 146) ∧
    (∃ (s : State) (e : Fin 64) (sid : Fin 3) (bank : Fin 16) (row : BitVec 14),
      let key := (sid.val * 16 + bank.val) * 16384 + row.toNat
      let hit := Assoc.get (0, 0) (s.engine e).acts key
      s.up ∧ s.ks.held = false ∧ bit (s.reg R.memRdCtrl) 0 = true ∧ hit.1 ≠ 0 ∧ s.rdThr ≤ hit.1 + 256 ∧ hit.2 < 19 ∧ s.is9620 = false ∧
          s.fresh s.boundary 150) ∧
    (∃ (s : State) (p : Fin 16) (x : Nat), s.up ∧ s.ks.held = false ∧ (s.mport p).penalty = some x) ∧
    (∃ (s : State), s.up ∧ s.ks.held = false) ∧
    (∃ (s : State) (st : Fin 2) (temp : BitVec 8), s.up ∧ s.ks.held = false ∧ st.val < s.nStacks ∧ temp.toNat < 189) ∧
    (∃ (s : State) (e : Fin 64), s.up ∧ s.ks.held = false ∧ (s.hchan (chanOfEngine e)).held = false ∧ (s.hchan (chanOfEngine e)).fenced = false ∧
        (s.hchan (chanOfEngine e)).sr = 0) ∧
    (∃ (s : State) (c : Fin 32),
      let h := s.hchan c
      let here := c.val / 16 < s.nStacks
      let empty := ∀ k ∈ [2 * c.val, 2 * c.val + 1], (s.engine k).rq = [] ∧ (s.engine k).wq = [] ∧ (s.engine k).fly = []
      s.up ∧ s.ks.held = false ∧ here ∧ bit (s.reg R.memSrCtrl) 0 = true ∧ empty ∧ h.held = false ∧ h.fenced = false ∧ h.sr = 0) ∧
    (∃ (s : State) (c : Fin 32),
      let h := s.hchan c
      s.up ∧ s.ks.held = false ∧ h.sr = 2) ∧
    (∃ (s : State) (st : Fin 2) (x : Nat), s.up ∧ s.ks.held = false ∧ (s.stack st).rateBy = some x ∧ (∀ k, k < 16 → (s.hchan (st * 16 +
        k)).attempt = 0 ∧ (s.hchan (st * 16 + k)).sweepHold = false) ∧ s.fresh (alignUp (max s.now x) 128) 153) := by
  refine ⟨⟨plain, 31, by decide +kernel⟩,
    ⟨plain.modHchan 31 (fun h => { h with attempt := 2 }), 31, by decide +kernel⟩,
    ⟨{ plain with is9620 := true }, 16, by decide +kernel⟩,
    ⟨plain.modHchan 31 (fun h => { h with attempt := 2 }), 31, by decide +kernel⟩,
    ⟨plain.modHchan 31 (fun h => { h with attempt := 1, failed := true }), 31, by decide +kernel⟩,
    ⟨plain.modHchan 31 (fun h => { h with attempt := 2, failed := true }), 31, 100, by decide +kernel⟩,
    ⟨plain.modHchan 31 (fun h => { h with fenced := true, unfencing := true, unfenceBy := 5000 }), 31, by decide +kernel⟩,
    ⟨plain.modHchan 31 (fun h => { h with fenced := true, unfencing := true, unfenceBy := 5000 }), 31, by decide +kernel⟩,
    ⟨plain.modEngine 63 (fun x => { x with unacked := [memLine 1 0 true, { memLine 2 64 true with tries := 1 }] }), 63,
        1, { memLine 2 64 true with tries := 1 }, by decide +kernel⟩,
    ⟨withRegs [(R.memRdCtrl, 1 + 32 * 2000)] (plain.modEngine 63 (fun x => { x with acts := [((2 * 16 + 15) * 16384 + 16383, (1744, 18))] })), 63,
        2, 15, 0x3FFF, by decide +kernel⟩,
    ⟨plain.modMport 12 (fun x => { x with penalty := some 9000, wait := [memLine 12 0 true] }), 12, 9000, by decide +kernel⟩,
    ⟨plain.modStack 1 (fun x => { x with mult := 1, winStart := 900 }), by decide +kernel⟩,
    ⟨plain, 1, 188, by decide +kernel⟩,
    ⟨withRegs [(R.memRefCtrl, 1)] (plain.modEngine 63 (fun x => { x with rows := [(15, (3, 4)), (31, (3, 4)), (14, (3, 4))] })), 63,
        by decide +kernel⟩,
    ⟨withRegs [(R.memSrCtrl, 1)] (plain.modEngine 63 (fun x => { x with rows := [(15, (3, 4)), (31, (3, 4)), (14, (3, 4))] })), 31,
        by decide +kernel⟩,
    ⟨plain.modHchan 31 (fun h => { h with sr := 2, srWake := 990 }), 31, by decide +kernel⟩,
    ⟨(withRegs [(R.memRate, 4)] plain).modStack 1 (fun x => { x with rateBy := some 5000, rate := 0, paid := (12, 35) }), 1, 5000,
        by decide +kernel⟩⟩

theorem witness_HostLinkComesUpAndResets :
    (∃ (s : State),
      let idle := s.tap.taps = [] ∧ s.tap.wait = false ∧ (∀ c, c < 32 → (s.dchan c).state = 0) ∧ (∀ c, c < 32 → s.findEntry (32 + c) 9 = none)
      idle ∧ s.fresh s.boundary 161) ∧
    (∃ (s : State), s.link.perst = true) ∧
    (∃ (s : State), s.ticking ∧ s.ks.held = false ∧ s.link.perst = false ∧ s.link.ready = false) ∧
    (∃ (s : State), s.ticking ∧ s.link.perst = false ∧ s.fresh s.boundary 160) ∧
    (∃ (s : State), s.ticking ∧ s.link.up = true ∧ s.link.ready = false) ∧
    (∃ (s : State) (f : Fin 64), s.ticking ∧ s.link.up = true ∧ s.link.ready = true ∧ (s.pfn f).flr = none ∧ f ≠ 0 ∧ s.link.vfEnable = false) ∧
    (∃ (s : State), s.ticking ∧ s.link.up = true ∧ s.link.ready = true ∧ (s.pfn 0).flr = none) ∧
    (∃ (s : State),
      let idle := s.tap.taps = [] ∧ s.tap.wait = false ∧ (∀ c, c < 32 → (s.dchan c).state = 0) ∧ (∀ c, c < 32 → s.findEntry (32 + c) 9 = none)
      s.ticking ∧ s.link.up = true ∧ (s.pfn 0).flr = none ∧ idle ∧ s.fresh s.boundary 162) ∧
    (∃ (s : State) (v : Fin 64),
      let idle := s.tap.taps = [] ∧ s.tap.wait = false ∧ (∀ c, c < 32 → (s.dchan c).state = 0) ∧ (∀ c, c < 32 → s.findEntry (32 + c) 9 = none)
      s.ticking ∧ s.link.up = true ∧ v ≠ 0 ∧ s.link.vfEnable = true ∧ (s.pfn v).flr = none ∧ idle ∧ s.fresh s.boundary 162) ∧
    (∃ (s : State) (f : Fin 64) (x : Nat), s.ticking ∧ s.ks.held = false ∧ (s.pfn f).flr = some x) ∧
    (∃ (s : State),
      let idle := s.tap.taps = [] ∧ s.tap.wait = false ∧ (∀ c, c < 32 → (s.dchan c).state = 0) ∧ (∀ c, c < 32 → s.findEntry (32 + c) 9 = none)
      s.ticking ∧ s.link.vfEnable = true ∧ idle) ∧
    (∃ (s : State) (f : Fin 64), s.ticking ∧ (f = 0 ∨ s.link.vfEnable = true)) ∧
    (∃ (s : State) (corr : Bool), s.ticking ∧ s.fresh s.boundary (if corr then 163 else 164)) ∧
    (∃ (s : State), s.ticking ∧ s.link.up = true ∧ (s.pfn 0).mse = false) ∧
    (∃ (s : State) (off : BitVec 36) (bs : List Byte),
      let a := s.bar2Base + off.toNat
      let open_ := s.link.up = true ∧ (s.pfn 0).mse = true ∧ (s.pfn 0).d3 = false ∧ (s.pfn 0).flr = none ∧ off.toNat < 2 ^ s.link.bar2Exp
      s.up ∧ open_ ∧ 0 < bs.length ∧ a % 64 + bs.length ≤ 64 ∧ s.lineStatus a = 0) ∧
    (∃ (s : State) (off : BitVec 36),
      let a := s.bar2Base + off.toNat
      let open_ := s.link.up = true ∧ (s.pfn 0).mse = true ∧ (s.pfn 0).d3 = false ∧ (s.pfn 0).flr = none ∧ off.toNat < 2 ^ s.link.bar2Exp
      s.up ∧ open_ ∧ a % 64 ≤ 60 ∧ s.lineStatus (a / 64 * 64) = 0) := by
  refine ⟨⟨{ plain with link := { plain.link with up := true, perst := false, ready := true, downs := 0xFFFF, vfEnable := true, cfg := [(3, 4)] } }, by decide +kernel⟩,
    ⟨plain, by decide +kernel⟩,
    ⟨{ plain with link := { plain.link with perst := false, released := 900 } }, by decide +kernel⟩,
    ⟨{ plain with link := { plain.link with perst := false } }, by decide +kernel⟩,
    ⟨{ plain with link := { plain.link with up := true } }, by decide +kernel⟩,
    ⟨{ plain with link := { plain.link with up := true, ready := true } }, 63, by decide +kernel⟩,
    ⟨{ plain with link := { plain.link with up := true, ready := true } }, by decide +kernel⟩,
    ⟨{ plain with link := { plain.link with up := true, ready := true, vfEnable := true } }, by decide +kernel⟩,
    ⟨{ plain with link := { plain.link with up := true, ready := true, vfEnable := true } }, 63, by decide +kernel⟩,
    ⟨plain.modFn 63 (fun g => { g with flr := some 9000 }), 63, 9000, by decide +kernel⟩,
    ⟨{ plain with link := { plain.link with up := true, ready := true, vfEnable := true, fns := [(0, { PcieFn.reset with mse := true }), (3, { PcieFn.reset with mse := true })] } }, by decide +kernel⟩,
    ⟨{ plain with link := { plain.link with up := true, ready := true, vfEnable := true, fns := [(0, { PcieFn.reset with mse := true }), (3, { PcieFn.reset with mse := true })] } }, 3, by decide +kernel⟩,
    ⟨plain, true, by decide +kernel⟩,
    ⟨{ plain with link := { plain.link with up := true } }, by decide +kernel⟩,
    ⟨(withRegs [(R.bar2WinBase, 0x1)] { plain with link := { plain.link with up := true, bar2Exp := 28 } }).modFn 0 (fun g => { g with mse := true }), 0xFFFFFC0, List.replicate 64 0x77, by decide +kernel⟩,
    ⟨({ plain with hbm := [(4, 5), (60, 1)], link := { plain.link with up := true, bar2Exp := 28 } }).modFn 0 (fun g => { g with mse := true }),
        0x3C, by decide +kernel⟩⟩

theorem witness_EventsLeaveAsMessages :
    (∃ (s : State) (v : Nat) (r : List Nat),
      let sends := s.evt.queue = v :: r ∧ (s.pfn 0).msixEn = true ∧ s.busMaster 0 = true ∧ s.link.up = true ∧ s.link.l1 = false ∧ v < 2048 ∧ ∀ i,
          i < 64 → s.reg (R.evtOvfVec i) = 0
      s.ticking ∧ s.ks.held = false ∧ sends ∧ (s.pfn 0).msixMask = false ∧ bit (s.msixWord 0 v 3) 0 = false) ∧
    (∃ (s : State) (v : Nat) (r : List Nat),
      let sends := s.evt.queue = v :: r ∧ (s.pfn 0).msixEn = true ∧ s.busMaster 0 = true ∧ s.link.up = true ∧ s.link.l1 = false ∧ v < 2048 ∧ ∀ i,
          i < 64 → s.reg (R.evtOvfVec i) = 0
      s.ticking ∧ s.ks.held = false ∧ sends ∧ bit (s.msixWord 0 v 3) 0 = true) ∧
    (∃ (s : State) (src : Fin 256) (c : Coal),
      let route := s.reg (R.evtMsixRoute src)
      s.ticking ∧ s.ks.held = false ∧ Assoc.get ⟨0, 0⟩ s.evt.coal src.val = c ∧ c.c ≠ 0 ∧ fld route 20 12 ≠ 0 ∧ s.evtOff src = false ∧
          s.evt.queue = []) ∧
    (∃ (s : State), s.ticking ∧ s.ks.held = false) ∧
    (∃ (s : State), s.ticking ∧ s.ks.held = false) ∧
    (∃ (s : State), s.ticking ∧ s.ks.held = false ∧ s.link.up = true) := by
  refine ⟨⟨({ plain with evt := { plain.evt with queue := [2047, 5], headAt := 2000 }, link := { plain.link with up := true, msix := [(2047 * 4, 0x1000), (2047 * 4 + 2, 0x55667788), (2047 * 4 + 3, 0)] } }).modFn 0 (fun g => { g with msixEn := true, bme := true }), 2047, [5], by decide +kernel⟩,
    ⟨({ plain with evt := { plain.evt with queue := [2047, 5], headAt := 2000 }, link := { plain.link with up := true } }).modFn 0 (fun g => { g with msixEn := true, bme := true }), 2047, [5], by decide +kernel⟩,
    ⟨withRegs [(R.evtMask 0, 0), (R.evtMsixRoute 9, 0x00505803)] { plain with evt := { plain.evt with coal := [(9, ⟨2, 900⟩)] } }, 9, ⟨2, 900⟩,
        by decide +kernel⟩,
    ⟨plain, by decide +kernel⟩,
    ⟨{ plain with mgt := { plain.mgt with alerts := 1 } }, by decide +kernel⟩,
    ⟨({ plain with evt := { plain.evt with queue := [2047, 5] }, link := { plain.link with up := true } }), by decide +kernel⟩⟩

theorem witness_TapsStartAndStop :
    (∃ (s : State) (f : Fin 64),
      let n := (s.tapPort f).sel
      let own := s.tapOwner n = f.val
      s.up ∧ s.ks.held = false ∧ own) ∧
    (∃ (s : State) (f : Fin 64),
      let n := (s.tapPort f).sel
      s.up ∧ s.ks.held = false ∧ s.tapOwner n ≠ f.val) ∧
    (∃ (s : State) (f : Fin 64),
      let n := (s.tapPort f).sel
      let x := s.tapOf n
      let own := s.tapOwner n = f.val
      s.up ∧ s.ks.held = false ∧ own ∧ x.state = 0) ∧
    (∃ (s : State) (f : Fin 64),
      let n := (s.tapPort f).sel
      let x := s.tapOf n
      let own := s.tapOwner n = f.val
      s.up ∧ s.ks.held = false ∧ own ∧ x.state ≠ 0) ∧
    (∃ (s : State) (f : Fin 64),
      let n := (s.tapPort f).sel
      let x := s.tapOf n
      let own := s.tapOwner n = f.val
      s.up ∧ s.ks.held = false ∧ own ∧ x.state = 0 ∧ s.tapConfigOk n f = true ∧ x.kind = 0 ∧ bit (x.w 0) 3 = false) ∧
    (∃ (s : State) (f : Fin 64),
      let n := (s.tapPort f).sel
      let x := s.tapOf n
      let own := s.tapOwner n = f.val
      s.up ∧ s.ks.held = false ∧ own ∧ x.state = 0 ∧ s.tapConfigOk n f = false) ∧
    (∃ (s : State) (f : Fin 64),
      let n := (s.tapPort f).sel
      let x := s.tapOf n
      let own := s.tapOwner n = f.val
      s.up ∧ s.ks.held = false ∧ own ∧ x.state = 1 ∧ x.item = none) ∧
    (∃ (s : State) (f : Fin 64),
      let n := (s.tapPort f).sel
      let x := s.tapOf n
      let own := s.tapOwner n = f.val
      s.up ∧ s.ks.held = false ∧ own ∧ x.state = 4) ∧
    (∃ (s : State) (f : Fin 64),
      let n := (s.tapPort f).sel
      let x := s.tapOf n
      let own := s.tapOwner n = f.val
      s.up ∧ s.ks.held = false ∧ own ∧ x.state = 1) ∧
    (∃ (s : State) (tb : BitVec 12),
      let y := s.tapOf tb.toNat
      s.up ∧ s.ks.held = false ∧ y.state = 2 ∧ y.abort = true) ∧
    (∃ (s : State) (tb : BitVec 12),
      let y := s.tapOf tb.toNat
      s.up ∧ s.ks.held = false ∧ y.state = 2 ∧ y.abort = false ∧ y.item = none ∧ s.busMaster (s.tapOwner tb.toNat) = true) ∧
    (∃ (s : State) (f : Fin 64) (tb : BitVec 12) (w : W32),
      let y := s.tapOf tb.toNat
      let left := (y.p + 2 ^ 32 - w.toNat) % 2 ^ 32
      s.up ∧ s.ks.held = false ∧ s.tapOwner tb.toNat = f.val ∧ w.toNat % 64 = 0 ∧ left ≤ y.p) ∧
    (∃ (s : State) (f : Fin 64) (tb : BitVec 12) (w : W32), s.up ∧ s.ks.held = false ∧ s.tapOwner tb.toNat = f.val ∧ w.toNat % 64 ≠ 0) ∧
    (∃ (s : State) (tb : BitVec 12),
      let y := s.tapOf tb.toNat
      s.up ∧ s.ks.held = false ∧ y.state = 0) ∧
    (∃ (s : State) (tb : BitVec 12),
      let y := s.tapOf tb.toNat
      s.up ∧ s.ks.held = false ∧ y.state ≠ 0) := by
  refine ⟨⟨(plain.modTap 77 (fun x => { x with ctx := List.replicate 16 5 })).modPort 0 (fun p => { p with sel := 77, status := 3 }), 0,
      by decide +kernel⟩,
    ⟨plain.modPort 9 (fun p => { p with sel := 77, status := 3 }), 9, by decide +kernel⟩,
    ⟨plain.modPort 0 (fun p => { p with sel := 4095, data := List.replicate 16 8 }), 0, by decide +kernel⟩,
    ⟨(plain.modTap 77 (fun x => { x with state := 1 })).modPort 0 (fun p => { p with sel := 77, data := List.replicate 16 8 }), 0,
        by decide +kernel⟩,
    ⟨withRegs [(R.dirCreated 3, 9)] ((plain.modTap 77 (fun x => { x with ctx := [0x31A0130, 0, 0x1000, 0, 0x2000, 0, 0, 0, 0, 0, 0, 0, 0, 0, 0, 0xFFFFFFFF], lost := 4 })).modPort 0 (fun p => { p with sel := 77 })), 0, by decide +kernel⟩,
    ⟨plain.modPort 0 (fun p => { p with sel := 77 }), 0, by decide +kernel⟩,
    ⟨(plain.modTap 77 (fun x => { x with state := 1 })).modPort 0 (fun p => { p with sel := 77, data := List.replicate 16 8 }), 0,
        by decide +kernel⟩,
    ⟨(plain.modTap 77 (fun x => { x with state := 4 })).modPort 0 (fun p => { p with sel := 77, data := List.replicate 16 8 }), 0,
        by decide +kernel⟩,
    ⟨(plain.modTap 77 (fun x => { x with state := 1 })).modPort 0 (fun p => { p with sel := 77, data := List.replicate 16 8 }), 0,
        by decide +kernel⟩,
    ⟨plain.modTap 77 (fun x => { x with state := 2, abort := true }), 77, by decide +kernel⟩,
    ⟨(plain.modTap 77 (fun x => { x with state := 2, p := 0x1122334455, ctx := [0, 0, 0, 0, 0x2000, 0, 0, 0, 0, 0, 0, 0, 0, 0, 0, 0] })).modFn 0 (fun g => { g with bme := true }), 77, by decide +kernel⟩,
    ⟨plain.modTap 77 (fun x => { x with state := 1, p := 0x100000080, c := 0x100000000 }), 0, 77, 0x40, by decide +kernel⟩,
    ⟨plain.modTap 77 (fun x => { x with state := 1, p := 0x100000080, c := 0x100000000 }), 0, 77, 0x41, by decide +kernel⟩,
    ⟨plain, 4095, by decide +kernel⟩,
    ⟨plain.modTap 77 (fun x => { x with state := 1 }), 77, by decide +kernel⟩⟩

theorem witness_TapsDeliverRecords :
    (∃ (s : State) (tb : BitVec 12),
      let n := tb.toNat
      let x := s.tapOf n
      let p := x.src
      let bs := s.readLine (s.slotAddr p x.pos)
      let e := wordsOf bs
      let word := fun k => e.getD k 0
      let takes := x.state = 1 ∧ s.tapWorks n = true ∧ x.item = none
      s.up ∧ s.ks.held = false ∧ takes ∧ x.kind = 0 ∧ x.skip = none ∧ x.pos < s.reg64 (R.dirSealed p) ∧ s.lineStatus (s.slotAddr p x.pos) = 0 ∧
          word 15 = ~~~ word 14 ∧ fld (word 14) 4 28 = x.pos % 2 ^ 28 ∧ fld (word 14) 0 4 = 10) ∧
    (∃ (s : State) (tb : BitVec 12) (g : Seg),
      let n := tb.toNat
      let x := s.tapOf n
      let p := x.src
      let bs := s.readLine (s.slotAddr p x.pos)
      let e := wordsOf bs
      let word := fun k => e.getD k 0
      let takes := x.state = 1 ∧ s.tapWorks n = true ∧ x.item = none
      s.up ∧ s.ks.held = false ∧ takes ∧ x.kind = 0 ∧ x.skip = none ∧ x.pos < s.reg64 (R.dirSealed p) ∧ s.lineStatus (s.slotAddr p x.pos) = 0 ∧
          word 15 = ~~~ word 14 ∧ fld (word 14) 4 28 = x.pos % 2 ^ 28 ∧ fld (word 14) 0 4 = 5 ∧ twinOk (e.take 6) = true ∧
          twinOk ((e.drop 6).take 4) = true ∧ twinOk (e.drop 14) = true ∧ bit (word 12) 2 = false ∧ bit (x.w 1) 8 = true ∧ bit (x.w 1) 10 = false ∧
          fld (word 12) 24 8 &&& fld (x.w 1) 0 8 ≠ 0 ∧ (s.dir p).segs.find? (fun y => y.seq == x.pos) = some g ∧ g.lost = false ∧
          s.windowIntact g = true) ∧
    (∃ (s : State) (tb : BitVec 12) (slot : Nat),
      let n := tb.toNat
      let x := s.tapOf n
      let p := x.src
      let page := s.pageBase p + slot * 2 ^ 24
      let takes := x.state = 1 ∧ s.tapWorks n = true ∧ x.item = none
      s.up ∧ s.ks.held = false ∧ takes ∧ x.kind = 2 ∧ (s.ch p).published = some slot ∧ (s.reg (R.churnSnapSeq p)).toNat ≠ x.pos ∧ p < 8 ∧
          s.lineStatus page = 0 ∧ (wordsOf (s.readLine page)).drop 14 = [sealWord 5 (s.reg (R.churnSnapSeq p)).toNat, ~~~ sealWord 5 (s.reg (R.churnSnapSeq p)).toNat] ∧ fld (x.w 1) 11 5 = 1) ∧
    (∃ (s : State) (tb : BitVec 12) (i : TapItem) (a : Nat) (len : Nat) (ends : Bool) (r : List (Nat × Nat × Bool)),
      let n := tb.toNat
      let x := s.tapOf n
      s.up ∧ s.ks.held = false ∧ s.tapWorks n = true ∧ x.item = some i ∧ i.spans = (a, len, ends) :: r ∧ ends = false ∧
          x.room (i.payload x) = true ∧ i.buf.length < i.payload x ∧ fld (x.w 12) 0 15 = 0 ∧ s.lineStatus (a / 64 * 64) = 0) ∧
    (∃ (s : State) (tb : BitVec 12) (i : TapItem),
      let n := tb.toNat
      let x := s.tapOf n
      let need := x.needs (i.payload x)
      s.up ∧ s.ks.held = false ∧ s.tapWorks n = true ∧ x.item = some i ∧ i.typ = 3 ∧ s.tapStale x i = none ∧ i.holds = false ∧
          x.room (i.payload x) = true ∧ i.payload x ≤ i.buf.length ∧ i.off + i.payload x = i.total ∧ need.2 = 0 ∧ bit (x.w 0) 8 = false) ∧
    (∃ (s : State) (tb : BitVec 12) (i : TapItem),
      let n := tb.toNat
      let x := s.tapOf n
      s.up ∧ s.ks.held = false ∧ s.tapWorks n = true ∧ x.item = some i ∧ i.typ = 2 ∧ i.holds = false ∧ i.buf = [] ∧ i.off = 0 ∧ i.total = 0 ∧
          x.room 0 = true ∧ bit (x.w 0) 8 = false ∧ s.fresh s.boundary 166) ∧
    (∃ (s : State) (tb : BitVec 12) (i : TapItem),
      let n := tb.toNat
      let x := s.tapOf n
      let p := x.src
      s.up ∧ s.ks.held = false ∧ x.item = some i ∧ i.holds = true ∧ i.spans = [] ∧ i.typ = 5 ∧ i.off = i.total ∧ x.kind = 2 ∧ p < 8) ∧
    (∃ (s : State) (tb : BitVec 12) (first : W64) (i : TapItem),
      let n := tb.toNat
      let x := s.tapOf n
      let takes := x.state = 1 ∧ s.tapWorks n = true ∧ x.item = none
      let later := s.elapsedOf first.toNat + fld (x.w 14) 16 16 * 8192
      s.up ∧ s.ks.held = false ∧ takes ∧ x.kind = 1 ∧ fld (x.w 14) 16 16 ≠ 0 ∧ (s.advance later).streamItem n true = some i) ∧
    (∃ (s : State) (tb : BitVec 12) (i : TapItem) (a : Nat) (len : Nat) (ends : Bool) (r : List (Nat × Nat × Bool)),
      let n := tb.toNat
      let x := s.tapOf n
      s.up ∧ s.ks.held = false ∧ x.item = some i ∧ i.spans = (a, len, ends) :: r ∧ s.tapWorks n = true) ∧
    (∃ (s : State) (tb : BitVec 12),
      let n := tb.toNat
      let x := s.tapOf n
      s.up ∧ s.ks.held = false ∧ bit (x.w 0) 8 = true ∧ fld (x.w 13) 19 13 ≠ 0 ∧ x.recs ≠ 0 ∧ (s.pfn (s.tapOwner n)).msixEn = true ∧
          (s.pfn (s.tapOwner n)).msixMask = false ∧ bit (s.msixWord (s.tapOwner n) (fld (x.w 13) 0 11) 3) 0 = false) := by
  refine ⟨⟨withRegs [(R.dirSealed 1, 6), (R.dirCreated 1,
      7)] ((tapWorks [0x10] (fun x => { x with pos := 5 })).memWords 8 0x140 (List.replicate 14 0 ++ [0x5A, ~~~ 0x5A])), 77, by decide +kernel⟩,
    ⟨withRegs [(R.dirSealed 1, 6), (R.dirCreated 1, 7)] (((tapWorks [0x10, 0x104] (fun x => { x with pos := 5 })).memWords 8 0x140 (twinWords [1,
        2, 3] ++ twinWords [4, 5] ++ [6, 7, 0x04000000, 9,
        0x55, ~~~ 0x55])).modDir 1 (fun d => { d with bound := true, segs := [{ segOf with written := true, sealed := true }] })),
        77, { segOf with written := true, sealed := true }, by decide +kernel⟩,
    ⟨withRegs [(R.churnSnapSeq 2, 6)] (((tapWorks [0x22, 0x800] (fun x => { x with pos := 5 })).memWords 9 (2 ^ 24 +
        56) [0x65, ~~~ 0x65]).modChurn 2 (fun c => { c with published := some 1 })), 77, 1, by decide +kernel⟩,
    ⟨tapWorks [0x3180010] (fun x => { x with item := some { tapItem with spans := [(60, 70, false), (0, 5, true)] } }),
        77, { tapItem with spans := [(60, 70, false), (0, 5, true)] }, 60, 70, false, [(0, 5, true)], by decide +kernel⟩,
    ⟨tapWorks [0x3180010, 0, 0x10000, 0,
        0x2000] (fun x => { x with seq := 2 ^ 64 - 1, p := 0xFFF00000F80, c := 0xFFF00000F80, item := some { tapItem with buf := List.replicate 64 9 } }), 77, { tapItem with buf := List.replicate 64 9 }, by decide +kernel⟩,
    ⟨tapWorks [0x3180010, 0, 0x10000, 0, 0x2000] (fun x => { x with lost := 0xFFFFFF, item := some { tapItem with typ := 2, total := 0 } }),
        77, { tapItem with typ := 2, total := 0 }, by decide +kernel⟩,
    ⟨(tapWorks [0x22] (fun x => { x with item := some { tapItem with typ := 5, holds := true, off := 64 } })).modChurn 2 (fun c => { c with holds := [(1, 77), (0, 100)] }), 77, { tapItem with typ := 5, holds := true, off := 64 }, by decide +kernel⟩,
    ⟨withRegs [(R.recRingSize 1, 64)] (tapWorks [0x3180011, 0, 0, 0, 0, 0, 0, 0, 0, 0, 0, 0, 0, 0,
        0x10001] (fun x => { x with pos := 5, skip := some 5 })), 77, 0x10000000400, noticeItem 4 (skipWords 5 0 2) 0 9216, by decide +kernel⟩,
    ⟨tapWorks [0x3180010] (fun x => { x with item := some { tapItem with spans := [(60, 4, false), (0, 5, true)] } }),
        77, { tapItem with spans := [(60, 4, false), (0, 5, true)] }, 60, 4, false, [(0, 5, true)], by decide +kernel⟩,
    ⟨({ tapWorks [0x3180110, 0, 0, 0, 0, 0, 0, 0, 0, 0, 0, 0, 0, 0x801FF] (fun x => { x with recs := 3, recAt := 900 }) with link := { plain.link with up := true, msix := [(511 * 4 + 3, 0)] } }).modFn 0 (fun g => { g with bme := true, msixEn := true }), 77, by decide +kernel⟩⟩

theorem witness_DmaTakesCommands :
    (∃ (s : State) (c : Fin 32),
      let x := s.dchan c
      let host := s.dmaOwned c = false
      let paused := x.srcSpace = 1 ∧ s.hostPaused = true ∧ x.rate ≤ 2048
      s.up ∧ host ∧ x.state = 0 ∧ bit (x.w 4) 20 = false ∧ x.setOk false = true ∧ paused) ∧
    (∃ (s : State) (c : Fin 32),
      let x := s.dchan c
      let host := s.dmaOwned c = false
      s.up ∧ host ∧ x.state = 0 ∧ bit (x.w 4) 20 = false ∧ x.setOk false = false ∧ s.findEntry (32 + c) 9 = none ∧ s.fresh s.boundary (176 + c)) ∧
    (∃ (s : State) (c : Fin 32),
      let x := s.dchan c
      let host := s.dmaOwned c = false
      s.up ∧ host ∧ x.state = 6) ∧
    (∃ (s : State) (c : Fin 32),
      let x := s.dchan c
      let host := s.dmaOwned c = false
      s.up ∧ host ∧ x.state = 2) ∧
    (∃ (s : State) (c : Fin 32),
      let x := s.dchan c
      let host := s.dmaOwned c = false
      s.up ∧ host ∧ x.state = 4) ∧
    (∃ (s : State) (c : Fin 32), s.up ∧ s.dmaOwned c = true) ∧
    (∃ (s : State) (c : Fin 32) (q : Fin 16),
      let x := s.dchan c
      s.up ∧ s.ready q (.dstart c 0 0 0) ∧ s.dmaOwned c = true ∧ x.state = 0) ∧
    (∃ (s : State) (c : Fin 32) (q : Fin 16), s.up ∧ s.ready q (.dstart c 0 0 0) ∧ s.dmaOwned c = false) ∧
    (∃ (s : State) (c : Fin 32),
      let x := s.dchan c
      let host := s.dmaOwned c = false
      let paused := x.srcSpace = 1 ∧ s.hostPaused = true ∧ x.rate ≤ 2048
      s.up ∧ host ∧ x.state = 4 ∧ bit x.errInfo 1 = false ∧ paused) ∧
    (∃ (s : State) (c : Fin 32),
      let x := s.dchan c
      let host := s.dmaOwned c = false
      s.up ∧ host ∧ x.state = 0) ∧
    (∃ (s : State) (c : Fin 32),
      let x := s.dchan c
      let host := s.dmaOwned c = false
      s.up ∧ host ∧ x.state = 2) ∧
    (∃ (s : State) (c : Fin 32),
      let x := s.dchan c
      let host := s.dmaOwned c = false
      s.up ∧ host ∧ x.state ≠ 6) ∧
    (∃ (s : State), s.up) := by
  refine ⟨⟨plain.modDma 31 (fun x => { x with set := [0, 0, 0, 0, 0x12002040, 1, 1, 1, 0, 0, 0, 0, 0, 0, 0, 0] }), 31, by decide +kernel⟩,
    ⟨plain, 31, by decide +kernel⟩,
    ⟨plain.modDma 31 (fun x => { x with state := 6, cur := 0x123456789, curSpace := 1, doorbell := 9 }), 31, by decide +kernel⟩,
    ⟨plain.modDma 31 (fun x => { x with state := 2, doorbell := 0xFFFFFFFF }), 31, by decide +kernel⟩,
    ⟨plain.modDma 31 (fun x => { x with state := 4 }), 31, by decide +kernel⟩,
    ⟨{ plain with dma := { plain.dma with owner := 0x80000000 } }, 31, by decide +kernel⟩,
    ⟨let x := coreRuns id; { x with dma := { x.dma with owner := 0x80000000 } }, 31, 3, by decide +kernel⟩,
    ⟨coreRuns id, 31, 3, by decide +kernel⟩,
    ⟨plain.modDma 31 (fun x => { x with state := 4, failIdx := 3, failOff := 64, errInfo := 0x2000001, set := [0, 0, 0, 0, 0x12002040, 1, 1, 1, 0, 0, 0, 0, 0, 0, 0, 0] }), 31, by decide +kernel⟩,
    ⟨plain, 31, by decide +kernel⟩,
    ⟨plain.modDma 31 (fun x => { x with state := 2, load := some (4, 5, false, 3) }), 31, by decide +kernel⟩,
    ⟨plain, 31, by decide +kernel⟩,
    ⟨({ plain with dma := { plain.dma with owner := 0xFF } }).modDma 3 (fun x => { x with state := 2 }), by decide +kernel⟩⟩

theorem witness_DmaMovesAndEnds :
    (∃ (s : State) (c : Fin 32) (b : Burst),
      let x := s.dchan c
      let quiet := ∀ j ∈ s.smemJobs, j.store = false
      s.up ∧ s.ks.held = false ∧ s.findEntry (32 + c) 9 = none ∧ quiet ∧ x.flight = [b] ∧ b.data = none ∧ x.state = 2 ∧ x.srcSpace = 2 ∧
          x.dstSpace = 2 ∧ spaceBad 2 b.dst b.len = false ∧ bit x.errInfo 25 = false ∧ x.total ≤ x.next) ∧
    (∃ (s : State) (c : Fin 32),
      let x := s.dchan c
      s.up ∧ s.ks.held = false ∧ s.findEntry (32 + c) 9 = none ∧ x.state = 2 ∧ x.flight = [] ∧ x.total ≤ x.next ∧ bit (x.w 4) 21 = true) ∧
    (∃ (s : State) (c : Fin 32),
      let x := s.dchan c
      s.up ∧ s.ks.held = false ∧ s.findEntry (32 + c) 9 = none ∧ x.state = 2 ∧ x.flight = [] ∧ x.total ≤ x.next ∧ bit (x.w 4) 21 = false ∧
          bit (x.w 4) 22 = true ∧ bit (x.w 4) 19 = false ∧ s.fresh s.boundary (176 + c)) ∧
    (∃ (s : State) (c : Fin 32),
      let x := s.dchan c
      s.up ∧ s.ks.held = false ∧ s.findEntry (32 + c) 9 = none ∧ x.state = 3 ∧ bit (x.w 4) 22 = true ∧ bit (x.w 4) 19 = false ∧
          s.fresh s.boundary (176 + c)) ∧
    (∃ (s : State) (c : Fin 32),
      let x := s.dchan c
      s.up ∧ s.ks.held = false ∧ s.findEntry (32 + c) 9 = none ∧ x.state = 3 ∧ bit (x.w 4) 22 = false ∧ bit (x.w 4) 19 = true) ∧
    (∃ (s : State) (c : Fin 32) (a : Nat) (again : Bool) (when_ : Nat),
      let x := s.dchan c
      let quiet := ∀ j ∈ s.smemJobs, j.store = false
      s.up ∧ s.ks.held = false ∧ s.findEntry (32 + c) 9 = none ∧ quiet ∧ x.load = some (a, 2, again, when_) ∧ x.state = 1 ∧
          spaceBad 2 a 64 = false ∧ bit ((Mem.words s.smem a 16).getD 4 0) 20 = true ∧ x.doorbell = x.seen ∧ s.fresh s.boundary (176 + c)) ∧
    (∃ (s : State) (c : Fin 32) (a : Nat) (again : Bool) (when_ : Nat),
      let x := s.dchan c
      let quiet := ∀ j ∈ s.smemJobs, j.store = false
      s.up ∧ s.ks.held = false ∧ s.findEntry (32 + c) 9 = none ∧ quiet ∧ x.load = some (a, 2, again, when_) ∧ x.state = 1 ∧
          spaceBad 2 a 64 = false ∧ bit ((Mem.words s.smem a 16).getD 4 0) 20 = true ∧ x.doorbell ≠ x.seen) ∧
    (∃ (s : State) (c : Fin 32) (b : Burst) (i : Fin 16),
      let x := s.dchan c
      let at_ := max s.now (b.issued + max 8000 (s.rf R.dmaTimeout 0 24) * 128)
      s.up ∧ s.ks.held = false ∧ s.findEntry (32 + c) 9 = none ∧ x.load = none ∧ x.flight[i.val]? = some b ∧ x.state = 2 ∧ b.data = none ∧
          x.srcSpace = 1 ∧ bit x.errInfo 25 = false ∧ s.fresh (alignUp at_ 128) (176 + c)) ∧
    (∃ (s : State) (c : Fin 32),
      let x := s.dchan c
      s.up ∧ s.ks.held = false ∧ s.findEntry (32 + c) 9 = none ∧ x.state = 7 ∧ s.fresh s.boundary (176 + c)) := by
  refine ⟨⟨({ plain with smem := [(0x100, 1), (0x13F, 2)] }).modDma 31 (fun x => { x with state := 2, next := 1, flight := [{ idx := 0, off := 0, len := 64, src := 0x100, dst := 0x120, data := none, issued := 900 }], set := [0, 0, 0, 0, 0x12014040, 1, 1, 1, 0, 0, 0, 0, 0, 0, 0, 0] }), 31, { idx := 0, off := 0, len := 64, src := 0x100, dst := 0x120, data := none, issued := 900 }, by decide +kernel⟩,
    ⟨plain.modDma 31 (fun x => { x with state := 2, next := 1, set := [0, 0, 0, 0, 0x12214040, 1, 1, 1, 0, 0, 0, 0, 0, 0, 0, 0] }), 31,
        by decide +kernel⟩,
    ⟨plain.modDma 31 (fun x => { x with state := 2, next := 1, set := [0, 0, 0, 0, 0x12414040, 1, 1, 1, 0, 0, 0, 0, 0, 0, 0, 0] }), 31,
        by decide +kernel⟩,
    ⟨plain.modDma 31 (fun x => { x with state := 3, next := 1, set := [0, 0, 0, 0, 0x12614040, 1, 1, 1, 0, 0, 0, 0, 0, 0, 0, 0] }), 31,
        by decide +kernel⟩,
    ⟨plain.modDma 31 (fun x => { x with state := 3, next := 1, set := [0, 0, 0, 0, 0x122A4040, 1, 1, 1, 0, 0, 0, 0, 0, 0, 0x40, 5] }), 31,
        by decide +kernel⟩,
    ⟨({ plain with smem := Mem.setWords [] 0x100 [0, 0, 0, 0, 0x100000, 7] }).modDma 31 (fun x => { x with state := 1, load := some (0x100, 2, false, 900) }), 31, 0x100, false, 900, by decide +kernel⟩,
    ⟨({ plain with smem := Mem.setWords [] 0x100 [0, 0, 0, 0, 0x100000, 7] }).modDma 31 (fun x => { x with state := 1, load := some (0x100, 2, false, 900), doorbell := 1 }), 31, 0x100, false, 900, by decide +kernel⟩,
    ⟨plain.modDma 31 (fun x => { x with state := 2, next := 1, remain := 2, flight := [{ idx := 0, off := 64, len := 64, src := 0x100, dst := 0x120, data := none, issued := 900 }], set := [0, 0, 0, 0, 0x12012040, 1, 1, 1, 0, 0, 0, 0, 0, 0, 0, 0] }), 31, { idx := 0, off := 64, len := 64, src := 0x100, dst := 0x120, data := none, issued := 900 }, 0, by decide +kernel⟩,
    ⟨plain.modDma 31 (fun x => { x with state := 7, flight := [{ idx := 0, off := 64, len := 64, src := 0x100, dst := 0x120, data := none, issued := 900 }] }), 31, by decide +kernel⟩⟩

theorem witness_ManagementAnswersRequests :
    (∃ (s : State) (k : Nat), s.asked k 0x01) ∧
    (∃ (s : State) (k : Nat),
      let x := s.mslot k
      let i := (x.arg 1).toNat
      s.asked k 0x02 ∧ i < 42) ∧
    (∃ (s : State) (k : Nat),
      let x := s.mslot k
      let i := (x.arg 1).toNat
      s.asked k 0x02 ∧ 42 ≤ i) ∧
    (∃ (s : State) (k : Nat),
      let x := s.mslot k
      let i := (x.arg 1).toNat
      let n := (x.arg 2).toNat
      let dst := join (x.arg 3) (x.arg 4)
      s.asked k 0x03 ∧ s.mode.mode ≠ 0 ∧ i < 32768 ∧ 1 ≤ n ∧ n ≤ 32768 ∧ dst % 64 = 0 ∧ s.firstBad dst ((32 * n + 63) / 64) = none) ∧
    (∃ (s : State) (k : Nat),
      let x := s.mslot k
      s.asked k 0x04 ∧ s.mode.mode ≠ 0 ∧ s.firstBad (join (x.arg 1) (x.arg 2) / 64 * 64) ((join (x.arg 1) (x.arg 2) % 64 + 32768 +
          63) / 64) = none) ∧
    (∃ (s : State) (k : Nat), s.asked k 0x04 ∧ s.mode.mode = 0) ∧
    (∃ (s : State) (k : Nat),
      let x := s.mslot k
      let i := (x.arg 1).toNat
      s.asked k 0x05 ∧ i < 8) ∧
    (∃ (s : State) (k : Nat),
      let x := s.mslot k
      let m := s.mgt
      let i := (x.arg 1).toNat
      let n := (x.arg 2).toNat
      s.asked 0 0x06 ∧ k = 0 ∧ settingOk i n = true ∧ m.incompatible = false) ∧
    (∃ (s : State) (k : Nat), s.asked k 0x06 ∧ k ≠ 0) ∧
    (∃ (s : State) (k : Nat),
      let x := s.mslot k
      let m := s.mgt
      s.ticking ∧ m.state = 1 ∧ s.nextSlot = some k ∧ x.drop = false ∧ mgtDefined x.cmd = false) ∧
    (∃ (s : State) (k : Nat),
      let x := s.mslot k
      let m := s.mgt
      let i := (x.arg 1).toNat
      s.ticking ∧ m.state = 3 ∧ s.nextSlot = some k ∧ x.drop = false ∧ x.cmd = 0x05 ∧ fld (x.arg 0) 8 8 = 0 ∧ i < 8) ∧
    (∃ (s : State), s.ticking) := by
  refine ⟨⟨asking 16 [0x55550001] plain, 16, by decide +kernel⟩,
    ⟨asking 3 [2, 41] plain, 3, by decide +kernel⟩,
    ⟨asking 3 [2, 42] plain, 3, by decide +kernel⟩,
    ⟨asking 3 [3, 32766, 2, 0x40, 0] plain, 3, by decide +kernel⟩,
    ⟨asking 3 [4, 0x40, 8] plain, 3, by decide +kernel⟩,
    ⟨let x := asking 3 [4, 0x40, 8] plain; { x with mode := { x.mode with mode := 0 } }, 3, by decide +kernel⟩,
    ⟨asking 3 [5, 7] plain, 3, by decide +kernel⟩,
    ⟨asking 0 [6, 7, 5] plain, 0, by decide +kernel⟩,
    ⟨asking 3 [6, 7, 5] plain, 3, by decide +kernel⟩,
    ⟨asking 3 [0x99, 7, 5] plain, 3, by decide +kernel⟩,
    ⟨(asking 3 [5, 7] plain).modMgt (fun m => { m with state := 3 }), 3, by decide +kernel⟩,
    ⟨plain.modSlot 0 (fun x => { x with valid := true }), by decide +kernel⟩⟩

theorem witness_UpdatesFollowTheirStates :
    (∃ (s : State),
      let x := s.mslot 0
      let m := s.mgt
      let w1 := (x.arg 1).toNat
      s.asked 0 0x20 ∧ m.upd ≠ 4 ∧ 512 ≤ w1 ∧ w1 ≤ 0xFFF000) ∧
    (∃ (s : State),
      let x := s.mslot 0
      let m := s.mgt
      let w1 := (x.arg 1).toNat
      s.asked 0 0x20 ∧ m.upd = 4 ∧ 512 ≤ w1 ∧ w1 ≤ 0xFFF000) ∧
    (∃ (s : State),
      let x := s.mslot 0
      let m := s.mgt
      let w1 := (x.arg 1).toNat
      let w2 := (x.arg 2).toNat
      let src := join (x.arg 3) (x.arg 4)
      let chunk := s.asked 0 0x21 ∧ m.upd = 1 ∧ w1 = m.received ∧ w1 % 65536 = 0 ∧ 1 ≤ w2 ∧ w2 ≤ 65536 ∧ w1 + w2 ≤ m.pkgLen ∧ (w2 = 65536 ∨ w1 +
          w2 = m.pkgLen) ∧ s.mode.mode ≠ 0 ∧ s.firstBad (src / 64 * 64) ((src % 64 + w2 + 63) / 64) = none
      chunk) ∧
    (∃ (s : State),
      let x := s.mslot 0
      let m := s.mgt
      let w1 := (x.arg 1).toNat
      let w2 := (x.arg 2).toNat
      s.asked 0 0x21 ∧ m.upd ≠ 1 ∧ w1 % 65536 = 0 ∧ 1 ≤ w2 ∧ w2 ≤ 65536) ∧
    (∃ (s : State) (kw : Bool) (co : Bool) (gcm : Bool),
      let m := s.mgt
      s.asked 0 0x22 ∧ m.upd = 2 ∧ s.verifyStatus kw co gcm = 0) ∧
    (∃ (s : State) (kw : Bool) (co : Bool) (gcm : Bool),
      let m := s.mgt
      s.asked 0 0x22 ∧ m.upd = 2 ∧ s.verifyStatus kw co gcm ≠ 0) ∧
    (∃ (s : State),
      let m := s.mgt
      let idle := s.fg.phase = 0 ∧ s.tmr.cal.phase = 0 ∧ s.mem.sweep = none ∧ s.mem.testing = 0
      let room := m.ptr.seq + 1 < 2 ^ 32 ∧ m.slot ≤ 1
      s.asked 0 0x23 ∧ m.upd = 3 ∧ (s.mode.mode = 5 ∨ s.setting 4 = 1) ∧ idle ∧ room) ∧
    (∃ (s : State),
      let m := s.mgt
      s.asked 0 0x23 ∧ m.upd = 3 ∧ s.mode.mode ≠ 5 ∧ s.setting 4 ≠ 1) ∧
    (∃ (s : State),
      let m := s.mgt
      let room := m.ptr.seq + 1 < 2 ^ 32 ∧ m.slot ≤ 1
      s.asked 0 0x24 ∧ m.upd = 4 ∧ m.incompatible = false ∧ room) ∧
    (∃ (s : State),
      let m := s.mgt
      let room := m.ptr.seq + 1 < 2 ^ 32 ∧ m.slot ≤ 1
      s.asked 0 0x25 ∧ m.upd = 4 ∧ room) ∧
    (∃ (s : State),
      let m := s.mgt
      s.asked 0 0x26 ∧ m.cosign = none) ∧
    (∃ (s : State) (h : List W32),
      let m := s.mgt
      s.asked 0 0x27 ∧ m.cosign = none ∧ m.cosignHead = some h) ∧
    (∃ (s : State),
      let m := s.mgt
      s.asked 0 0x27 ∧ m.cosign ≠ none) := by
  refine ⟨⟨(asking 0 [0x20, 512] plain).flashWords 0x2000000 [5, 6], by decide +kernel⟩,
    ⟨(asking 0 [0x20, 0xFFF000] plain).modMgt (fun m => { m with upd := 4 }), by decide +kernel⟩,
    ⟨(asking 0 [0x21, 0, 512, 0x40, 0] plain).modMgt (fun m => { m with upd := 1, pkgLen := 512 }), by decide +kernel⟩,
    ⟨(asking 0 [0x21, 0, 512, 0x40, 0] plain).modMgt (fun m => { m with upd := 2, pkgLen := 512 }), by decide +kernel⟩,
    ⟨staged 2 (asking 0 [0x22] plain), true, true, true, by decide +kernel⟩,
    ⟨staged 2 (asking 0 [0x22] plain), false, true, true, by decide +kernel⟩,
    ⟨let x := staged 3 (asking 0 [0x23] plain); { x with mode := { x.mode with mode := 5 } }, by decide +kernel⟩,
    ⟨staged 3 (asking 0 [0x23] plain), by decide +kernel⟩,
    ⟨(staged 4 (asking 0 [0x24] plain)).modMgt (fun m => { m with imgEpoch := 17, epoch := 3, boots := 2 }), by decide +kernel⟩,
    ⟨(staged 4 (asking 0 [0x25] plain)).modMgt (fun m => { m with imgEpoch := 17, epoch := 3, boots := 2 }), by decide +kernel⟩,
    ⟨asking 0 [0x26, 1, 2, 3, 4, 5, 6, 7] plain, by decide +kernel⟩,
    ⟨(asking 0 [0x27, 8, 9, 10, 11, 12] plain).modMgt (fun m => { m with cosignHead := some [1, 2, 3, 4, 5, 6, 7] }), [1, 2, 3, 4, 5, 6, 7],
        by decide +kernel⟩,
    ⟨(asking 0 [0x27, 8, 9, 10, 11, 12] plain).modMgt (fun m => { m with cosign := some [1, 2, 3, 4, 5, 6, 7] }), by decide +kernel⟩⟩

theorem witness_TablesAreCalibratedAndInstalled :
    (∃ (s : State) (k : Nat),
      let x := s.mslot k
      let w := x.arg 1
      let mask := fld w 0 8
      let g := s.fg
      let intact := ∀ sl, sl < 24 → s.serving sl = true → s.tableFails sl = false
      s.asked k 0x11 ∧ argOnly w 0x1FF = true ∧ mask < 2 ^ s.inputs ∧ (s.mode.mode = 1 ∨ s.mode.mode = 5) ∧ g.phase ≠ 2 ∧ intact) ∧
    (∃ (s : State) (k : Nat),
      let x := s.mslot k
      let w := x.arg 1
      let mask := fld w 0 8
      s.asked k 0x11 ∧ argOnly w 0x1FF = true ∧ mask < 2 ^ s.inputs ∧ s.mode.mode ≠ 1 ∧ s.mode.mode ≠ 5) ∧
    (∃ (s : State) (k : Nat),
      let x := s.mslot k
      let w := x.arg 1
      let mask := fld w 0 8
      let g := s.fg
      s.asked k 0x10 ∧ argOnly w 0x1FF = true ∧ mask ≠ 0 ∧ mask < 2 ^ s.inputs ∧ s.mode.mode = 5 ∧ g.phase = 0 ∧
          (∀ i ∈ bitsOf 8 (s.fgCovered mask), s.headOf i = i → bit (s.reg R.recArm) i = false ∧ s.churnOn i = false)) ∧
    (∃ (s : State) (k : Nat),
      let x := s.mslot k
      let w := x.arg 1
      let mask := fld w 0 8
      s.asked k 0x10 ∧ argOnly w 0x1FF = true ∧ mask ≠ 0 ∧ mask < 2 ^ s.inputs ∧ s.mode.mode ≠ 5) ∧
    (∃ (s : State) (k : Nat),
      let g := s.fg
      s.ticking ∧ s.ks.held = false ∧ g.phase = 1 ∧ s.working k 0x10) ∧
    (∃ (s : State),
      let g := s.fg
      s.up ∧ s.ks.held = false ∧ g.phase = 2 ∧ g.step < 7 ∧ g.step ≠ 5 ∧ g.step ≠ 6) ∧
    (∃ (s : State),
      let g := s.fg
      s.up ∧ s.ks.held = false ∧ g.phase = 2 ∧ g.step = 5) ∧
    (∃ (s : State),
      let g := s.fg
      s.up ∧ s.ks.held = false ∧ g.phase = 2 ∧ g.step = 6) ∧
    (∃ (s : State) (k : Nat),
      let g := s.fg
      let intact := ∀ sl, sl < 24 → s.serving sl = true → s.tableFails sl = false
      s.up ∧ s.ks.held = false ∧ g.phase = 2 ∧ g.step = 7 ∧ s.working k 0x10 ∧ s.now ≤ g.due ∧ intact ∧ (∀ e ∈ g.eqs, e.1 < 8)) := by
  refine ⟨⟨(asking 3 [0x11, 0x84] plain).modMgt (fun m => { m with saved := [(6, 0, 1, 2, 3), (7, 1, 4, 5, 6)] }), 3, by decide +kernel⟩,
    ⟨let x := asking 3 [0x11, 0x84] plain; { x with mode := { x.mode with mode := 2 } }, 3, by decide +kernel⟩,
    ⟨let x := asking 3 [0x10, 0x184] plain; { x with mode := { x.mode with mode := 5 } }, 3, by decide +kernel⟩,
    ⟨asking 3 [0x10, 0x184] plain, 3, by decide +kernel⟩,
    ⟨{ serving 3 [0x10, 0x184] plain with fg := { FgCal.reset with phase := 1, mask := 4, due := 9000 } }, 3, by decide +kernel⟩,
    ⟨{ serving 3 [0x10, 0x184] plain with fg := { FgCal.reset with phase := 2, mask := 4, due := 9000, todo := [2], step := 4 } },
        by decide +kernel⟩,
    ⟨{ serving 3 [0x10, 0x184] plain with fg := { FgCal.reset with phase := 2, mask := 4, due := 9000, todo := [2], step := 5 } },
        by decide +kernel⟩,
    ⟨{ serving 3 [0x10, 0x184] plain with fg := { FgCal.reset with phase := 2, mask := 4, due := 9000, todo := [2], step := 6 } },
        by decide +kernel⟩,
    ⟨{ serving 3 [0x10, 0x184] plain with fg := { FgCal.reset with phase := 2, mask := 4, save := true, due := 9000, step := 7, formed := [(7, 1, 5, 6, 8)], heads := [2] } }, 3, by decide +kernel⟩⟩

theorem witness_SelfTestsAndSweepsAnswer :
    (∃ (s : State) (k : Nat),
      let x := s.mslot k
      let a1 := x.arg 1
      s.asked k 0x12 ∧ argOnly a1 0x3FF = true ∧ s.tmr.cal.phase = 0 ∧ s.mode.mode ≠ 0) ∧
    (∃ (s : State) (k : Nat),
      let x := s.mslot k
      let a1 := x.arg 1
      s.asked k 0x12 ∧ argOnly a1 0x3FF = true ∧ s.tmr.cal.phase ≠ 0) ∧
    (∃ (s : State) (k : Nat),
      let x := s.mslot k
      let a1 := x.arg 1
      s.asked k 0x13 ∧ argOnly a1 0x7F = true ∧ fld a1 0 1 < s.nStacks ∧ s.mode.mode = 5 ∧ s.mem.sweep = none) ∧
    (∃ (s : State) (w : Sweep), s.up ∧ s.ks.held = false ∧ s.mem.sweep = some w ∧ w.chan < 32 ∧ w.inStep = false ∧ w.steps < 1024 ∧
        (s.hchan w.chan).held = false) ∧
    (∃ (s : State) (w : Sweep), s.up ∧ s.ks.held = false ∧ s.mem.sweep = some w ∧ w.chan < 32 ∧ w.inStep = true ∧ (s.hchan w.chan).attempt = 0 ∧
        s.rateWaits (w.chan / 16) = false) ∧
    (∃ (s : State) (k : Nat) (w : Sweep) (r : W64) (bs : List Byte), s.up ∧ s.ks.held = false ∧ s.mem.sweep = some w ∧ w.chan < 32 ∧
        w.inStep = true ∧ (s.hchan w.chan).attempt = 0 ∧ s.rateWaits (w.chan / 16) = false ∧ s.working k 0x13 ∧
        s.configured r.toNat bs.length = false ∧ s.firstBad (r.toNat / 64 * 64) ((r.toNat % 64 + bs.length + 63) / 64) = none) ∧
    (∃ (s : State) (k : Nat),
      let x := s.mslot k
      let a1 := x.arg 1
      let m := s.mem.testing
      let mask := join a1 (x.arg 2)
      s.asked k 0x14 ∧ argOnly (x.arg 3) 1 = true ∧ s.is9620 = false ∧ s.mode.mode = 5 ∧ m = 0 ∧ s.mapped.any (s.regionHits mask) = false ∧
          mask ≠ 0) ∧
    (∃ (s : State) (k : Nat),
      let x := s.mslot k
      let a1 := x.arg 1
      let m := s.mem.testing
      let mask := join a1 (x.arg 2)
      s.asked k 0x14 ∧ argOnly (x.arg 3) 1 = true ∧ s.is9620 = false ∧ s.mode.mode = 5 ∧ m = 0 ∧ s.mapped.any (s.regionHits mask) = true) ∧
    (∃ (s : State) (k : Nat),
      let m := s.mem.testing
      s.up ∧ m ≠ 0 ∧ s.working k 0x14) ∧
    (∃ (s : State) (k : Nat) (pass : W64) (e : Fin 64),
      let x := s.mslot k
      let m := s.mem.testing
      let fails := fun (i : Fin 64) => m.testBit i = true ∧ pass.getLsbD i = false
      s.up ∧ s.working k 0x14 ∧ bit (x.arg 3) 0 = true ∧ fails e ∧ (∀ i : Fin 64, fails i → i.val / 2 = e.val / 2)) ∧
    (∃ (s : State) (k : Nat),
      let x := s.mslot k
      let m := s.mem.testing
      s.up ∧ m ≠ 0 ∧ s.working k 0x14 ∧ bit (x.arg 3) 0 = false) ∧
    (∃ (s : State) (k : Nat),
      let x := s.mslot k
      let a1 := x.arg 1
      s.asked k 0x15 ∧ argOnly a1 0xFFFF = true ∧ s.mode.mode ≠ 0 ∧ (∀ q : Fin 16,
          bit a1 q = true → (s.core q).run = .halted ∨ (s.core q).run = .faulted)) ∧
    (∃ (s : State) (k : Nat),
      let x := s.mslot k
      let a1 := x.arg 1
      s.asked k 0x15 ∧ argOnly a1 0xFFFF = true ∧ s.mode.mode ≠ 0 ∧ (∃ q : Fin 16, bit a1 q = true ∧ (s.core q).run = .running)) ∧
    (∃ (s : State) (k : Nat),
      let x := s.mslot k
      let a1 := x.arg 1
      s.asked k 0x16 ∧ argOnly a1 0xF = true ∧ fld a1 0 2 ≠ 3 ∧ s.mode.mode ≠ 0) ∧
    (∃ (s : State) (k : Nat) (w : Sweep), s.up ∧ s.ks.held = false ∧ s.mem.sweep = some w ∧ w.chan < 32 ∧ w.inStep = true ∧
        (s.hchan w.chan).attempt = 0 ∧ s.working k 0x13 ∧ s.rateWaits (w.chan / 16) = true ∧ s.mem.pendMasks = none) := by
  refine ⟨⟨asking 3 [0x12, 0x3FF] plain, 3, by decide +kernel⟩,
    ⟨let x := asking 3 [0x12, 0x3FF] plain; { x with tmr := { x.tmr with cal := { x.tmr.cal with phase := 1 } } }, 3, by decide +kernel⟩,
    ⟨let x := asking 3 [0x13, 0x7F] plain; { x with mode := { x.mode with mode := 5 } }, 3, by decide +kernel⟩,
    ⟨{ serving 3 [0x13, 0x7F] plain with mem := { plain.mem with sweep := some { chan := 31, apply := true, save := true, steps := 1023, inStep := false, at_ := 900, found := [] } } }, { chan := 31, apply := true, save := true, steps := 1023, inStep := false, at_ := 900, found := [] }, by decide +kernel⟩,
    ⟨({ serving 3 [0x13, 0x7F] plain with mem := { plain.mem with sweep := some { chan := 31, apply := true, save := true, steps := 1023, inStep := true, at_ := 900, found := [(3, (5, 9))] } } }).modHchan 31 (fun h => { h with sweepHold := true }), { chan := 31, apply := true, save := true, steps := 1023, inStep := true, at_ := 900, found := [(3, (5, 9))] }, by decide +kernel⟩,
    ⟨({ serving 3 [0x13, 0x7F] plain with mem := { plain.mem with sweep := some { chan := 31, apply := true, save := true, steps := 1023, inStep := true, at_ := 900, found := [(3, (5, 9))] } } }).modHchan 31 (fun h => { h with sweepHold := true }), 3, { chan := 31, apply := true, save := true, steps := 1023, inStep := true, at_ := 900, found := [(3, (5, 9))] }, 0x40, [1, 2, 3], by decide +kernel⟩,
    ⟨let x := asking 3 [0x14, 0xFFFFFFFF, 0x80000000, 1] plain; { x with mode := { x.mode with mode := 5 } }, 3, by decide +kernel⟩,
    ⟨withRegs [(R.sensMemSize, 1)] (let x := asking 3 [0x14, 0xFFFFFFFF, 0x80000000, 1] plain; { x with mode := { x.mode with mode := 5 } }), 3,
        by decide +kernel⟩,
    ⟨(let x := serving 3 [0x14, 0xFFFFFFFF, 0x80000000, 1] plain; { x with mem := { x.mem with testing := 0x80000000FFFFFFFF } }), 3,
        by decide +kernel⟩,
    ⟨(let x := serving 3 [0x14, 0xFFFFFFFF, 0x80000000, 1] plain;
        { x with mem := { x.mem with testing := 0x80000000FFFFFFFF, repairs := [(5, 6)] } }), 3, 0xF0000000FFFFFFFC, 1, by decide +kernel⟩,
    ⟨(let x := serving 3 [0x14, 0xFFFFFFFF, 0x80000000, 0] plain;
        { x with mem := { x.mem with testing := 0x80000000FFFFFFFF, repairs := [(5, 6)] } }), 3, by decide +kernel⟩,
    ⟨asking 3 [0x15, 0xFFFF] plain, 3, by decide +kernel⟩,
    ⟨asking 4 [0x15, 0xFFFF] (coreRuns id), 4, by decide +kernel⟩,
    ⟨asking 3 [0x16, 0xE] plain, 3, by decide +kernel⟩,
    ⟨withRegs [(R.memRate, 4)] (({ serving 3 [0x13, 0x7F] plain with mem := { plain.mem with sweep := some { chan := 31, apply := true, save := true, steps := 1023, inStep := true, at_ := 900, found := [(3, (5, 9))] } } }).modHchan 31 (fun h => { h with sweepHold := true })), 3, { chan := 31, apply := true, save := true, steps := 1023, inStep := true, at_ := 900, found := [(3, (5, 9))] }, by decide +kernel⟩⟩

theorem witness_DisplayFramesAndLink :
    (∃ (s : State),
      let d := s.dsp
      s.up ∧ d.running = false) ∧
    (∃ (s : State),
      let d := s.dsp
      s.up ∧ d.running = true ∧ d.first = false) ∧
    (∃ (s : State),
      let d := s.dsp
      let x := s.nextFrame
      let b := boundaryOf x
      let goes := s.up ∧ s.ks.held = false ∧ d.running = true ∧ x.2 ≠ 0 ∧ bit (s.reg R.dspCtrl) 0 = true ∧ s.now ≤ b
      goes ∧ s.fresh b 208) ∧
    (∃ (s : State),
      let d := s.dsp
      let x := s.nextFrame
      let b := boundaryOf x
      let tm := timingOf (fun j => s.reg (R.dspTim j))
      let goes := s.up ∧ s.ks.held = false ∧ d.running = true ∧ x.2 ≠ 0 ∧ bit (s.reg R.dspCtrl) 0 = true ∧ s.now ≤ b
      goes ∧ d.apply = true ∧ tm.valid = true ∧ d.link ≠ 2) ∧
    (∃ (s : State),
      let d := s.dsp
      let x := s.nextFrame
      let b := boundaryOf x
      let tm := timingOf (fun j => s.reg (R.dspTim j))
      let goes := s.up ∧ s.ks.held = false ∧ d.running = true ∧ x.2 ≠ 0 ∧ bit (s.reg R.dspCtrl) 0 = true ∧ s.now ≤ b
      goes ∧ d.apply = true ∧ tm.valid = false) ∧
    (∃ (s : State),
      let d := s.dsp
      let x := s.nextFrame
      s.up ∧ s.ks.held = false ∧ d.running = true ∧ x.2 ≠ 0 ∧ bit (s.reg R.dspCtrl) 0 = false) ∧
    (∃ (s : State), s.up) ∧
    (∃ (s : State), s.up) ∧
    (∃ (s : State),
      let d := s.dsp
      s.up ∧ d.flipDone = false ∧ s.fresh s.boundary 209) ∧
    (∃ (s : State),
      let d := s.dsp
      s.ticking ∧ d.hpd = false ∧ s.fresh s.boundary 213) ∧
    (∃ (s : State),
      let d := s.dsp
      s.ticking ∧ d.hpd = true ∧ s.fresh s.boundary 213) := by
  refine ⟨⟨plain, by decide +kernel⟩,
    ⟨showing 4 id, by decide +kernel⟩,
    ⟨(showing 4 id).modDsp (fun d => { d with flips := 0 }), by decide +kernel⟩,
    ⟨(withRegs (timRegs (R.dspTim 0) 27 100) (showing 4 id)).modDsp (fun d => { d with apply := true }), by decide +kernel⟩,
    ⟨(withRegs (timRegs (R.dspTim 0) 601 100) (showing 4 id)).modDsp (fun d => { d with apply := true }), by decide +kernel⟩,
    ⟨(withRegs [(R.dspCtrl, 0)] (showing 4 id)), by decide +kernel⟩,
    ⟨showing 4 id, by decide +kernel⟩,
    ⟨(showing 4 id).modDsp (fun d => { d with flips := 31 }), by decide +kernel⟩,
    ⟨(showing 4 id).modDsp (fun d => { d with flipDone := false }), by decide +kernel⟩,
    ⟨showing 4 id, by decide +kernel⟩,
    ⟨(showing 4 id).modDsp (fun d => { d with hpd := true, link := 2 }), by decide +kernel⟩⟩

theorem witness_LayersFetchAndFault :
    (∃ (s : State) (l : Fin 4) (r : Nat),
      let x := s.lset l
      let y := s.layer l
      let n := ceilDiv (x.width * x.sampleSize) 64
      let ready := fun (a : Nat) => ∀ j, j < n → s.lineStatus (a + 64 * j) = 0
      s.up ∧ s.ks.held = false ∧ y.next = some r ∧ 4 ≤ x.format ∧ ready (x.ybase + r * x.pitch)) ∧
    (∃ (s : State) (l : Fin 4) (r : Nat),
      let x := s.lset l
      let y := s.layer l
      let n := ceilDiv (x.width * x.sampleSize) 64
      let ready := fun (a : Nat) => ∀ j, j < n → s.lineStatus (a + 64 * j) = 0
      s.up ∧ s.ks.held = false ∧ y.next = some r ∧ x.format < 4 ∧ (∀ e ∈ y.chroma, e.1 ≠ x.chromaLine r) ∧ ready (x.ybase + r * x.pitch) ∧
          ready (x.cbase + x.chromaLine r * x.pitch)) ∧
    (∃ (s : State) (l : Fin 4) (r : Nat),
      let x := s.lset l
      let y := s.layer l
      let n := ceilDiv (x.width * x.sampleSize) 64
      s.up ∧ s.ks.held = false ∧ y.next = some r ∧ y.bad = none ∧ 0 < n ∧ s.lineStatus (x.ybase + r * x.pitch) = 2) ∧
    (∃ (s : State) (l : Fin 4) (r : Nat) (cause : Nat),
      let x := s.lset l
      let y := s.layer l
      s.up ∧ s.ks.held = false ∧ s.dsp.running = true ∧ s.dsp.first = false ∧ s.dsp.blank = false ∧ y.faultAt = none ∧ x.enable = true ∧
          y.bad = some (r, cause) ∧ (x.lineY r).toNat < s.timing.vactive) ∧
    (∃ (s : State) (l : Fin 4) (line : BitVec 12),
      let x := s.lset l
      let y := s.layer l
      let start := s.lineAt (s.timing.vtotal - s.timing.vactive + line.toNat)
      let end_ := max s.now (if start.2 = 0 then 0 else ceilDiv start.1 start.2)
      s.up ∧ s.ks.held = false ∧ s.dsp.running = true ∧ s.dsp.first = false ∧ s.dsp.blank = false ∧ y.faultAt = none ∧ x.enable = true ∧
          line.toNat < s.timing.vactive ∧ s.unread l line.toNat = true ∧ s.fresh (alignUp end_ 128) 210) ∧
    (∃ (s : State) (l : Fin 4) (line : BitVec 12), s.up ∧ s.ks.held = false ∧ s.unread l line.toNat = false) := by
  refine ⟨⟨showing 4 (fun y => { y with next := some 3 }), 1, 3, by decide +kernel⟩,
    ⟨showing 0 (fun y => { y with next := some 3, chroma := [(0, [4])] }), 1, 3, by decide +kernel⟩,
    ⟨let x := showing 4 (fun y => { y with next := some 3 }); { x with mem := { x.mem with testing := 2 ^ 64 - 1 } }, 1, 3, by decide +kernel⟩,
    ⟨showing 4 (fun y => { y with next := some 9, bad := some (3, 2) }), 1, 3, 2, by decide +kernel⟩,
    ⟨showing 4 (fun y => { y with next := some 9, bad := some (3, 2) }), 1, 9, by decide +kernel⟩,
    ⟨showing 4 (fun y => { y with next := some 9 }), 1, 8, by decide +kernel⟩⟩

theorem witness_SensorConvertsAndDrives :
    (∃ (s : State) (c : SConv),
      let y := s.sens
      s.up ∧ s.ks.held = false ∧ y.phase = .run c ∧ c.injected = false ∧ y.pass = true ∧ y.restart = false ∧ y.slot = none ∧ y.done + 1 < c.avg) ∧
    (∃ (s : State) (c : SConv) (v : W32),
      let y := s.sens
      let clamped := (clampCode v.toInt).2
      s.up ∧ s.ks.held = false ∧ y.phase = .run c ∧ c.injected = false ∧ y.done + 1 = c.avg ∧ y.clamp = none ∧ clamped = none) ∧
    (∃ (s : State) (c : SConv) (v : W32),
      let y := s.sens
      let clamped := (clampCode v.toInt).2
      s.up ∧ s.ks.held = false ∧ y.phase = .run c ∧ c.injected = false ∧ y.done + 1 = c.avg ∧ clamped = some true ∧ y.clamp = none) ∧
    (∃ (s : State) (c : SConv) (i : Inject),
      let y := s.sens
      s.up ∧ s.ks.held = false ∧ y.phase = .run c ∧ c.injected = true ∧ y.slot = some i ∧ i.edge ≤ c.start) ∧
    (∃ (s : State) (r : SRes) (rest : List SRes),
      let y := s.sens
      s.up ∧ s.ks.held = false ∧ y.results = r :: rest ∧ r.entry < 16 ∧ r.toMem = false ∧ r.source < 44 ∧ r.ovr = false) ∧
    (∃ (s : State),
      let y := s.sens
      let trig := Assoc.get 0 s.evt.last (s.rf R.sensSeqCtrl 6 8)
      s.up ∧ s.ks.held = false ∧ s.sensMode = 2 ∧ y.seen < trig ∧ y.latched = true ∧ s.fresh (alignUp (max s.now (trig - 1)) 128) 227) ∧
    (∃ (s : State),
      let y := s.sens
      let trig := Assoc.get 0 s.evt.last (s.rf R.sensSeqCtrl 6 8)
      s.up ∧ s.ks.held = false ∧ s.sensMode = 2 ∧ y.seen < trig ∧ y.latched = false ∧ y.pass = true) ∧
    (∃ (s : State),
      let y := s.sens
      s.up ∧ s.ks.held = false ∧ y.phase = .idle ∧ (s.rf R.sensSeqCtrl 14 1 ≠ 1 ∨ s.sensMode = 0)) ∧
    (∃ (s : State) (edge : Nat),
      let y := s.sens
      s.up ∧ s.ks.held = false ∧ y.phase = .starting edge ∧ y.slot = none ∧ y.pass = true ∧ y.entry ≤ s.sensLast ∧ s.entrySource y.entry < 48) ∧
    (∃ (s : State) (edge : Nat),
      let y := s.sens
      s.up ∧ s.ks.held = false ∧ y.phase = .memWait edge ∧ y.slot = none ∧ y.pass = true ∧ y.entry ≤ s.sensLast ∧ s.entrySource y.entry < 48) ∧
    (∃ (s : State) (src : BitVec 6),
      let y := s.sens
      s.up ∧ s.ks.held = false ∧ s.mgt.state = 1 ∧ src.toNat < 48 ∧ y.slot = none ∧ y.phase = .down) ∧
    (∃ (s : State) (i : Inject) (src : BitVec 6),
      let y := s.sens
      s.up ∧ s.ks.held = false ∧ s.mgt.state = 1 ∧ src.toNat < 48 ∧ y.slot = some i ∧ i.mgt = true ∧ s.fresh s.boundary 228) ∧
    (∃ (s : State) (v : W32) (i : Inject) (cd : Int) (ovr : Bool) (unl : Bool) (hd : Nat) (due : Nat),
      let y := s.sens
      s.up ∧ s.ks.held = false ∧ y.slot = some i ∧ i.mgt = false ∧ i.result = some (cd, ovr, hd, unl, due) ∧ i.source < 44 ∧ ovr = false ∧
          s.rf R.sensInjCtrl 9 1 = 0 ∧ i.kts = [v, v, v] ∧ s.fresh (alignUp (max s.now due) 128) 225) ∧
    (∃ (s : State) (k : Fin 4),
      let x := s.excOf k
      s.up ∧ s.ks.held = false ∧ x.ramping = true ∧ bit (s.reg (R.excCtrl k)) 0 = true) ∧
    (∃ (s : State) (k : Fin 4),
      let x := s.excOf k
      s.up ∧ s.ks.held = false ∧ x.ramping = true ∧ bit (s.reg (R.excCtrl k)) 0 = false) ∧
    (∃ (s : State) (k : Fin 4),
      let x := s.excOf k
      s.up ∧ s.ks.held = false ∧ x.on = true ∧ x.limit = false ∧ s.fresh s.boundary 229) ∧
    (∃ (s : State), s.up ∧ s.ks.held = false) := by
  refine ⟨⟨withSens (fun y => { y with phase := .run convOf0, pass := true, sum := 5 }) plain, convOf0, by decide +kernel⟩,
    ⟨withSens (fun y => { y with phase := .run convOf0, pass := true, sum := 5, done := 3 }) plain, convOf0, 0xFFFFFFF0, by decide +kernel⟩,
    ⟨withSens (fun y => { y with phase := .run convOf0, pass := true, sum := 5, done := 3 }) plain, convOf0, 0x20000, by decide +kernel⟩,
    ⟨withSens (fun y => { y with phase := .run { convOf0 with injected := true }, slot := some { mgt := true, source := 5, gainExp := 1, samp := 3, prog := 0, kts := [], entry := 0, edge := 2000, result := none } }) plain, { convOf0 with injected := true }, { mgt := true, source := 5, gainExp := 1, samp := 3, prog := 0, kts := [], entry := 0, edge := 2000, result := none }, by decide +kernel⟩,
    ⟨withSens (fun y => { y with results := [{ entry := 15, code := -7, ovr := false, inj := true, unlocked := false, hold := 8000, toMem := false, source := 43, due := 44288, last := true }] }) plain, { entry := 15, code := -7, ovr := false, inj := true, unlocked := false, hold := 8000, toMem := false, source := 43, due := 44288, last := true }, [], by decide +kernel⟩,
    ⟨let x := withRegs [(R.sensSeqCtrl, 2 + 9 * 64)] (withSens (fun y => { y with latched := true }) plain);
        { x with evt := { x.evt with last := [(9, 901)] } }, by decide +kernel⟩,
    ⟨let x := withRegs [(R.sensSeqCtrl, 2 + 9 * 64)] (withSens (fun y => { y with pass := true }) plain);
        { x with evt := { x.evt with last := [(9, 901)] } }, by decide +kernel⟩,
    ⟨withSens (fun y => { y with phase := .idle, lastEnd := 44000 }) plain, by decide +kernel⟩,
    ⟨withSens (fun y => { y with phase := .starting 98000, pass := true }) plain, 98000, by decide +kernel⟩,
    ⟨withSens (fun y => { y with phase := .memWait 2000, pass := true }) plain, 2000, by decide +kernel⟩,
    ⟨plain, 47, by decide +kernel⟩,
    ⟨withSens (fun y => { y with slot := some { mgt := true, source := 5, gainExp := 1, samp := 3, prog := 0, kts := [], entry := 0, edge := 2000, result := none } }) plain, { mgt := true, source := 5, gainExp := 1, samp := 3, prog := 0, kts := [], entry := 0, edge := 2000, result := none }, 0, by decide +kernel⟩,
    ⟨withSens (fun y => { y with slot := some { mgt := false, source := 5, gainExp := 1, samp := 3, prog := 3, kts := [4, 4, 4], entry := 0, edge := 2000, result := some (-5, false, 8000, false, 44288) } }) plain, 4, { mgt := false, source := 5, gainExp := 1, samp := 3, prog := 3, kts := [4, 4, 4], entry := 0, edge := 2000, result := some (-5, false, 8000, false, 44288) }, -5, false, false, 8000, 44288, by decide +kernel⟩,
    ⟨withRegs [(R.excCtrl 3, 1)] (withExc 3 excOf0 plain), 3, by decide +kernel⟩,
    ⟨withExc 3 excOf0 plain, 3, by decide +kernel⟩,
    ⟨withExc 3 excOf0 plain, 3, by decide +kernel⟩,
    ⟨withExc 3 { excOf0 with limit := true } plain, by decide +kernel⟩⟩

theorem witness_ModePostsRun :
    (∃ (s : State) (w : W32), s.ticking ∧ bit w 0 = false) ∧
    (∃ (s : State) (w : W32),
      let m := s.mode
      let tgt := fld w 1 3
      let b := s.boundary
      let posts := bit w 0 = true ∧ m.progAt ≠ b + 1 ∧ (m.mode = 0 ∨ s.progPosts b = false)
      let free_ := fun (at_ : Nat) => s.fresh at_ 12 ∧ s.fresh at_ 13
      s.ticking ∧ posts ∧ m.busy = false ∧ 6 ≤ tgt ∧ free_ b) ∧
    (∃ (s : State) (w : W32),
      let m := s.mode
      let tgt := fld w 1 3
      let b := s.boundary
      let posts := bit w 0 = true ∧ m.progAt ≠ b + 1 ∧ (m.mode = 0 ∨ s.progPosts b = false)
      let free_ := fun (at_ : Nat) => s.fresh at_ 12 ∧ s.fresh at_ 13
      s.ticking ∧ posts ∧ m.busy = false ∧ tgt < 6 ∧ m.mode = 6 ∧ free_ b) ∧
    (∃ (s : State) (w : W32),
      let m := s.mode
      let tgt := fld w 1 3
      let b := s.boundary
      let posts := bit w 0 = true ∧ m.progAt ≠ b + 1 ∧ (m.mode = 0 ∨ s.progPosts b = false)
      let free_ := fun (at_ : Nat) => s.fresh at_ 12 ∧ s.fresh at_ 13
      s.ticking ∧ posts ∧ m.busy = false ∧ tgt < 6 ∧ tgt = m.mode ∧ free_ b) ∧
    (∃ (s : State) (w : W32),
      let m := s.mode
      let tgt := fld w 1 3
      let b := s.boundary
      let posts := bit w 0 = true ∧ m.progAt ≠ b + 1 ∧ (m.mode = 0 ∨ s.progPosts b = false)
      s.ticking ∧ posts ∧ m.busy = false ∧ m.mode = 1 ∧ 2 ≤ tgt ∧ tgt < 6 ∧ s.ks.held = false) ∧
    (∃ (s : State) (w : W32),
      let m := s.mode
      let tgt := fld w 1 3
      let b := s.boundary
      let posts := bit w 0 = true ∧ m.progAt ≠ b + 1 ∧ (m.mode = 0 ∨ s.progPosts b = false)
      s.ticking ∧ posts ∧ m.busy = false ∧ m.mode = 1 ∧ tgt = 0) ∧
    (∃ (s : State) (w : W32),
      let m := s.mode
      let tgt := fld w 1 3
      let b := s.boundary
      let posts := bit w 0 = true ∧ m.progAt ≠ b + 1 ∧ (m.mode = 0 ∨ s.progPosts b = false)
      s.ticking ∧ posts ∧ m.busy = false ∧ m.mode = 0 ∧ 1 ≤ tgt ∧ tgt < 6 ∧ m.forced = false) ∧
    (∃ (s : State) (w : W32),
      let m := s.mode
      let tgt := fld w 1 3
      let b := s.boundary
      let posts := bit w 0 = true ∧ m.progAt ≠ b + 1 ∧ (m.mode = 0 ∨ s.progPosts b = false)
      s.ticking ∧ posts ∧ m.busy = false ∧ 2 ≤ m.mode ∧ m.mode ≤ 4 ∧ tgt < 6 ∧ tgt ≠ m.mode) ∧
    (∃ (s : State) (w : W32),
      let m := s.mode
      let tgt := fld w 1 3
      let b := s.boundary
      let posts := bit w 0 = true ∧ m.progAt ≠ b + 1 ∧ (m.mode = 0 ∨ s.progPosts b = false)
      let free_ := fun (at_ : Nat) => s.fresh at_ 12 ∧ s.fresh at_ 13
      s.ticking ∧ posts ∧ m.busy = false ∧ m.mode = 5 ∧ tgt < 5 ∧ s.fg.phase ≠ 0 ∧ free_ b) ∧
    (∃ (s : State) (w : W32),
      let m := s.mode
      let b := s.boundary
      let posts := bit w 0 = true ∧ m.progAt ≠ b + 1 ∧ (m.mode = 0 ∨ s.progPosts b = false)
      s.ticking ∧ posts ∧ m.busy = true ∧ m.pending = none) ∧
    (∃ (s : State) (w : W32) (e : Nat) (req : Nat),
      let m := s.mode
      let b := s.boundary
      let posts := bit w 0 = true ∧ m.progAt ≠ b + 1 ∧ (m.mode = 0 ∨ s.progPosts b = false)
      let free_ := fun (at_ : Nat) => s.fresh at_ 12 ∧ s.fresh at_ 13
      s.ticking ∧ posts ∧ m.busy = true ∧ m.pending = some (e, req) ∧ free_ b) ∧
    (∃ (s : State) (w : W32),
      let m := s.mode
      let b := s.boundary
      let free_ := fun (at_ : Nat) => s.fresh at_ 12 ∧ s.fresh at_ 13
      s.ticking ∧ bit w 0 = true ∧ m.progAt = b + 1 ∧ free_ b) ∧
    (∃ (s : State) (e : Nat) (g : Nat),
      let m := s.mode
      let run := s.up ∧ s.ks.held = false
      let free_ := fun (at_ : Nat) => s.fresh at_ 12 ∧ s.fresh at_ 13
      s.ticking ∧ run ∧ m.leg = .entry ∧ m.due = some e ∧ s.now ≤ e ∧ e % 128 = 0 ∧ s.granted 16 11 = some g ∧ m.pending = none ∧ 2 ≤ m.target ∧
          m.target ≤ 5 ∧ (∀ n, n < 8 → s.enabledHead n = true → m.covered.testBit n = true) ∧ free_ e) ∧
    (∃ (s : State) (e : Nat) (g : Nat),
      let m := s.mode
      let run := s.up ∧ s.ks.held = false
      s.ticking ∧ run ∧ m.leg = .entry ∧ m.due = some e ∧ s.now ≤ e ∧ s.granted 16 11 = some g ∧ (∃ n, n < 8 ∧ s.enabledHead n = true ∧
          m.covered.testBit n = false)) ∧
    (∃ (s : State) (e : Nat),
      let m := s.mode
      let run := s.up ∧ s.ks.held = false
      let free_ := fun (at_ : Nat) => s.fresh at_ 12 ∧ s.fresh at_ 13
      s.ticking ∧ run ∧ m.leg = .switch ∧ m.due = some e ∧ s.now ≤ e ∧ e % 128 = 0 ∧ m.pending = none ∧ free_ e) ∧
    (∃ (s : State) (e : Nat),
      let m := s.mode
      let run := s.up ∧ s.ks.held = false
      let free_ := fun (at_ : Nat) => s.fresh at_ 12 ∧ s.fresh at_ 13
      s.ticking ∧ run ∧ m.leg = .exit ∧ m.due = some e ∧ s.now ≤ e ∧ e % 128 = 0 ∧ m.target = 1 ∧ m.pending = none ∧ free_ e) ∧
    (∃ (s : State) (e : Nat),
      let m := s.mode
      let run := s.up ∧ s.ks.held = false
      s.ticking ∧ run ∧ m.leg = .exit ∧ m.due = some e ∧ s.now ≤ e ∧ m.target = 0) ∧
    (∃ (s : State),
      let m := s.mode
      let run := s.up ∧ s.ks.held = false
      let free_ := fun (at_ : Nat) => s.fresh at_ 12 ∧ s.fresh at_ 13
      let x := alignUp (m.asked + 80000000000) 128
      s.ticking ∧ run ∧ m.leg = .entry ∧ m.due = none ∧ m.pending = none ∧ s.now ≤ x ∧ free_ x) := by
  refine ⟨⟨plain, 0xFFFFFFFE, by decide +kernel⟩,
    ⟨plain, 0xD, by decide +kernel⟩,
    ⟨booting, 0x3, by decide +kernel⟩,
    ⟨withMode (fun m => { m with mode := 4 }) plain, 0x9, by decide +kernel⟩,
    ⟨plain, 0xB, by decide +kernel⟩,
    ⟨plain, 1, by decide +kernel⟩,
    ⟨withMode (fun m => { m with mode := 0 }) plain, 0x9, by decide +kernel⟩,
    ⟨withMode (fun m => { m with mode := 4 }) plain, 0x7, by decide +kernel⟩,
    ⟨{ withMode (fun m => { m with mode := 5 }) plain with fg := { FgCal.reset with phase := 1 } }, 0x9, by decide +kernel⟩,
    ⟨withMode (fun m => { m with busy := true }) plain, 0xF, by decide +kernel⟩,
    ⟨withMode (fun m => { m with busy := true, pending := some (2, 3) }) plain, 0x7, 2, 3, by decide +kernel⟩,
    ⟨withMode (fun m => { m with progAt := 1025 }) plain, 0x7, by decide +kernel⟩,
    ⟨(withMode (fun m => { m with busy := true, target := 5, leg := .entry, due := some 1280, runner := 16 }) plain).setEntry 60 (entryVal 11 16 3 { core := 0, conv := 9, hbm0 := 0, hbm1 := 0 }), 1280, 60, by decide +kernel⟩,
    ⟨(withRegs [(R.convCtrl 7, 1)] (withMode (fun m => { m with busy := true, target := 2, leg := .entry, due := some 1280, runner := 3, covered := 4 }) plain)).setEntry 60 (entryVal 11 16 3 { core := 0, conv := 9, hbm0 := 0, hbm1 := 0 }), 1280, 60, by decide +kernel⟩,
    ⟨withMode (fun m => { m with mode := 2, busy := true, target := 3, leg := .switch, due := some 1280 }) plain, 1280, by decide +kernel⟩,
    ⟨withMode (fun m => { m with mode := 4, busy := true, target := 1, leg := .exit, due := some 1280 }) (converting 2 plain), 1280,
        by decide +kernel⟩,
    ⟨withMode (fun m => { m with mode := 4, busy := true, target := 0, leg := .exit, due := some 1280 }) (converting 2 plain), 1280,
        by decide +kernel⟩,
    ⟨withMode (fun m => { m with busy := true, target := 3, leg := .entry, asked := 777 }) plain, by decide +kernel⟩⟩

theorem witness_RetainKeepsAndResumes :
    (∃ (s : State),
      let m := s.mode
      s.up ∧ s.ks.held = false ∧ m.leg = .toRetain ∧ m.target = 0 ∧ m.hostWait = none ∧ m.pending = none) ∧
    (∃ (s : State),
      let m := s.mode
      s.ticking ∧ m.mode = 0 ∧ m.leg = .fromRetain ∧ m.target = 1 ∧ m.pending = none) ∧
    (∃ (s : State),
      let m := s.mode
      s.ticking ∧ m.mode = 0 ∧ m.leg = .fromRetain ∧ 2 ≤ m.target ∧ m.target ≤ 5) ∧
    (∃ (s : State) (st : Fin 2) (temp : BitVec 8), s.up ∧ s.ks.held = false ∧ st.val < s.nStacks ∧ 194 ≤ temp.toNat) ∧
    (∃ (s : State) (st : Fin 2) (temp : BitVec 8),
      let m := s.mode
      s.ticking ∧ m.mode = 0 ∧ st.val < s.nStacks ∧ 189 < temp.toNat ∧ (temp.toNat < 194 ∨ (m.forced = true ∧ m.busy = false)) ∧
          s.mem.retain.length = 138 ∧ twinOk s.mem.retain = true) ∧
    (∃ (s : State) (st : Fin 2) (temp : BitVec 8),
      let m := s.mode
      s.ticking ∧ m.mode = 0 ∧ st.val < s.nStacks ∧ 194 ≤ temp.toNat ∧ (m.forced = false ∨ m.busy = true)) := by
  refine ⟨⟨withMode (fun m => { m with busy := true, target := 0, leg := .toRetain, runner := 3 }) (coreRuns id), by decide +kernel⟩,
    ⟨let x := withMode (fun m => { m with mode := 0, busy := true, target := 1, leg := .fromRetain, runner := 3, forced := true }) plain;
        { x with ks := { x.ks with held := true } }, by decide +kernel⟩,
    ⟨let x := withMode (fun m => { m with mode := 0, busy := true, target := 5, leg := .fromRetain }) plain;
        { x with ks := { x.ks with held := true } }, by decide +kernel⟩,
    ⟨plain, 0, 194, by decide +kernel⟩,
    ⟨let x := withMode (fun m => { m with mode := 0 }) plain;
        { x with mem := { x.mem with retain := x.retentionRecord 1 false [(3, 0x10000, 0x20000)] } }, 1, 190, by decide +kernel⟩,
    ⟨withMode (fun m => { m with mode := 0, busy := true, target := 1, leg := .fromRetain, pending := some (2, 3) }) plain, 1, 194,
        by decide +kernel⟩⟩

theorem witness_ColdResetAndRelease :
    (∃ (s : State), s.mode.porN = false ∧ s.mode.aonLow = false) ∧
    (∃ (s : State), s.mode.porN = false ∧ s.mode.aonLow = true) ∧
    (∃ (s : State), s.mode.porN = true) ∧
    (∃ (s : State), s.mode.aonLow = true ∧ s.mode.porN = true) ∧
    (∃ (s : State), s.mode.aonLow = true ∧ s.mode.porN = false) := by
  refine ⟨⟨withMode (fun m => { m with porN := false }) State.reset, by decide +kernel⟩,
    ⟨withMode (fun m => { m with porN := false, aonLow := true }) State.reset, by decide +kernel⟩,
    ⟨coreRuns id, by decide +kernel⟩,
    ⟨withMode (fun m => { m with aonLow := true }) State.reset, by decide +kernel⟩,
    ⟨withMode (fun m => { m with porN := false, aonLow := true }) State.reset, by decide +kernel⟩⟩

theorem witness_ManagementRestartsAndBoots :
    (∃ (s : State),
      let m := s.mgt
      let z := s.boundary
      s.ticking ∧ (m.state = 1 ∨ m.state = 3) ∧ s.fresh z 234) ∧
    (∃ (s : State),
      let m := s.mgt
      let z := s.boundary
      s.ticking ∧ (m.state = 1 ∨ m.state = 3) ∧ s.fresh z 234 ∧ s.fresh z 245) ∧
    (∃ (s : State),
      let m := s.mgt
      s.ticking ∧ (m.state = 2 ∨ m.state = 0)) ∧
    (∃ (s : State),
      let m := s.mgt
      let boots := m.started = false ∧ (m.state = 2 ∨ (m.state = 0 ∧ s.mode.booting = true ∧ s.mode.porN = true))
      s.ticking ∧ boots) ∧
    (∃ (s : State) (a : Option (W32 × BitVec 5 × BitVec 16)) (b : Option (W32 × BitVec 5 × BitVec 16)) (i : W32 × BitVec 5 × BitVec 16),
      let m := s.mgt
      let p := m.ptr
      let boots := m.started = false ∧ (m.state = 2 ∨ (m.state = 0 ∧ s.mode.booting = true ∧ s.mode.porN = true))
      s.ticking ∧ boots ∧ p.prov = false ∧ s.bootable a b p.slot = some i) ∧
    (∃ (s : State) (a : Option (W32 × BitVec 5 × BitVec 16)) (b : Option (W32 × BitVec 5 × BitVec 16)) (i : W32 × BitVec 5 × BitVec 16),
      let m := s.mgt
      let p := m.ptr
      let boots := m.started = false ∧ (m.state = 2 ∨ (m.state = 0 ∧ s.mode.booting = true ∧ s.mode.porN = true))
      s.ticking ∧ boots ∧ p.prov = false ∧ s.bootable a b p.slot = none ∧ s.bootable a b (1 - p.slot) = some i) ∧
    (∃ (s : State) (a : Option (W32 × BitVec 5 × BitVec 16)) (b : Option (W32 × BitVec 5 × BitVec 16)),
      let m := s.mgt
      let p := m.ptr
      let boots := m.started = false ∧ (m.state = 2 ∨ (m.state = 0 ∧ s.mode.booting = true ∧ s.mode.porN = true))
      s.ticking ∧ boots ∧ p.prov = false ∧ s.bootable a b p.slot = none ∧ s.bootable a b (1 - p.slot) = none) ∧
    (∃ (s : State) (a : Option (W32 × BitVec 5 × BitVec 16)) (b : Option (W32 × BitVec 5 × BitVec 16)) (i : W32 × BitVec 5 × BitVec 16),
      let m := s.mgt
      let p := m.ptr
      let boots := m.started = false ∧ (m.state = 2 ∨ (m.state = 0 ∧ s.mode.booting = true ∧ s.mode.porN = true))
      s.ticking ∧ boots ∧ p.prov = true ∧ 3 ≤ m.bootCount ∧ p.seq + 1 < 2 ^ 32 ∧ s.bootable a b (1 - p.slot) = some i) ∧
    (∃ (s : State) (a : Option (W32 × BitVec 5 × BitVec 16)) (b : Option (W32 × BitVec 5 × BitVec 16)) (i : W32 × BitVec 5 × BitVec 16),
      let m := s.mgt
      let p := m.ptr
      let boots := m.started = false ∧ (m.state = 2 ∨ (m.state = 0 ∧ s.mode.booting = true ∧ s.mode.porN = true))
      s.ticking ∧ boots ∧ p.prov = true ∧ m.bootCount < 3 ∧ s.bootable a b p.slot = some i) ∧
    (∃ (s : State),
      let m := s.mgt
      let z := s.boundary
      s.ticking ∧ m.started = true ∧ m.state = 2 ∧ s.fresh z 232) ∧
    (∃ (s : State),
      let m := s.mgt
      let z := s.boundary
      s.ticking ∧ m.started = true ∧ m.state = 0 ∧ s.mode.mode = 6 ∧ s.ks.held = false ∧ s.fresh z 232 ∧ s.fresh z 12) := by
  refine ⟨⟨let x := plain; { x with mem := { x.mem with testing := 5 } }, by decide +kernel⟩,
    ⟨plain, by decide +kernel⟩,
    ⟨plain.modMgt (fun m => { m with state := 2 }), by decide +kernel⟩,
    ⟨booting, by decide +kernel⟩,
    ⟨booting, some (7, 3, 1), none, (7, 3, 1), by decide +kernel⟩,
    ⟨booting.modMgt (fun m => { m with epoch := 4 }), some (7, 3, 1), some (8, 5, 1), (8, 5, 1), by decide +kernel⟩,
    ⟨booting.modMgt (fun m => { m with epoch := 6 }), some (7, 3, 1), some (8, 5, 1), by decide +kernel⟩,
    ⟨((booting.flashWords 0 (twinWords [9, 2, 0, 0])).flashWords 0x2000 (twinWords [1])).flashWords 0x2008 (twinWords [2] ++ twinWords [3]),
        some (7, 3, 1), some (8, 5, 1), (8, 5, 1), by dsimp only; rw [bootCount_below _ 3 (by decide) (by decide +kernel)]; decide +kernel⟩,
    ⟨((booting.flashWords 0x1000 (twinWords [9, 2, 0, 0])).flashWords 0x2000 (twinWords [1])).flashWords 0x2008 (twinWords [2]), some (7, 3, 1),
        some (8, 5, 1), (7, 3, 1), by dsimp only; rw [bootCount_below _ 2 (by decide) (by decide +kernel)]; decide +kernel⟩,
    ⟨(plain.modMgt (fun m => { m with state := 2, started := true, held := [242, 245] })), by decide +kernel⟩,
    ⟨booting.modMgt (fun m => { m with started := true }), by decide +kernel⟩⟩

theorem witness_ManagementWatchesAndKeeps :
    (∃ (s : State), s.ticking) ∧
    (∃ (s : State) (temps : List (BitVec 16)),
      let m := s.mgt
      let z := s.boundary
      let read := (List.range 32).map (fun i => (temps.getD i 0).toInt)
      let hot := ({ m with temps := read } : Mgt).hottest
      let thr := if m.throttle then decide (2160 < hot.1) else decide (2240 ≤ hot.1)
      s.ticking ∧ thr ≠ m.throttle ∧ s.fresh z 237) ∧
    (∃ (s : State) (temps : List (BitVec 16)),
      let m := s.mgt
      let z := s.boundary
      let read := (List.range 32).map (fun i => (temps.getD i 0).toInt)
      let hot := ({ m with temps := read } : Mgt).hottest
      let warm := decide ((s.setting 5 : Int) * 16 ≤ hot.1)
      s.ticking ∧ warm = true ∧ m.warn = false ∧ s.fresh z 238) ∧
    (∃ (s : State),
      let m := s.mgt
      s.ticking ∧ m.state = 1 ∧ s.mode.mode ≠ 0 ∧ s.sens.slot = none ∧ s.sens.phase = .down) ∧
    (∃ (s : State),
      let m := s.mgt
      s.ticking ∧ m.state = 1) ∧
    (∃ (s : State),
      let m := s.mgt
      let z := s.boundary
      s.ticking ∧ m.state = 1 ∧ m.lifeWarned = false ∧ s.setting 7 = 0 ∧ s.fresh z 242) ∧
    (∃ (s : State),
      let m := s.mgt
      s.ticking ∧ m.state = 1) ∧
    (∃ (s : State) (r : CairnReq) (q : List CairnReq),
      let m := s.mgt
      s.ticking ∧ m.state = 1 ∧ s.cairn.hw = r :: q ∧ s.cairn.lost = 0 ∧ m.cairnNext < 32768) ∧
    (∃ (s : State) (r : CairnReq) (q : List CairnReq),
      let m := s.mgt
      s.ticking ∧ m.state = 1 ∧ s.cairn.hw = [] ∧ s.cairn.fw = r :: q ∧ s.cairn.lost = 0) ∧
    (∃ (s : State),
      let m := s.mgt
      let z := s.boundary
      s.ticking ∧ s.cairn.unreported ≠ 0 ∧ m.state ≠ 2 ∧ s.fresh z 243) ∧
    (∃ (s : State),
      let m := s.mgt
      s.ticking ∧ s.cairn.unreported ≠ 0 ∧ m.state = 2 ∧ m.held.length < 64) ∧
    (∃ (s : State),
      let m := s.mgt
      s.ticking ∧ s.ks.held = false ∧ m.state = 1 ∧ m.upd = 4 ∧ m.ptr.seq + 1 < 2 ^ 32) ∧
    (∃ (s : State),
      let m := s.mgt
      s.ticking ∧ s.ks.held = false ∧ m.state = 1 ∧ m.upd = 4 ∧ s.setting 3 ≠ 0 ∧ m.incompatible = false ∧ m.ptr.seq + 1 < 2 ^ 32 ∧
          m.slot ≤ 1) := by
  refine ⟨⟨plain, by decide +kernel⟩,
    ⟨plain, (List.range 32).map (fun i => BitVec.ofNat 16 (2209 + i)), by decide +kernel⟩,
    ⟨plain, (List.range 32).map (fun i => BitVec.ofNat 16 (2209 + i)), by decide +kernel⟩,
    ⟨plain.modMgt (fun m => { m with railNext := 7 }), by decide +kernel⟩,
    ⟨plain.modMgt (fun m => { m with temps := (List.range 32).map (fun i => (i * 60 : Nat)) }), by decide +kernel⟩,
    ⟨plain.modMgt (fun m => { m with sets := [{ seq := 0, schema := 0, items := [0, 0x5A, 10, 0, 0, 125, 50, 0] }, { seq := 1, schema := 0, items := [0, 0x5A, 10, 0, 0, 125, 50, 0] }] }), by decide +kernel⟩,
    ⟨plain, by decide +kernel⟩,
    ⟨let x := plain; { x with cairn := { x.cairn with hw := [{ code := 0x108, severity := 1, detail := 5, path := 9 }] } }, { code := 0x108, severity := 1, detail := 5, path := 9 }, [], by decide +kernel⟩,
    ⟨let x := plain; { x with cairn := { x.cairn with fw := [{ code := 0x108, severity := 1, detail := 5, path := 9 }] } }, { code := 0x108, severity := 1, detail := 5, path := 9 }, [], by decide +kernel⟩,
    ⟨let x := plain; { x with cairn := { x.cairn with unreported := 2 } }, by decide +kernel⟩,
    ⟨let x := plain.modMgt (fun m => { m with state := 2 }); { x with cairn := { x.cairn with unreported := 2 } }, by decide +kernel⟩,
    ⟨plain.modMgt (fun m => { m with upd := 4 }), by decide +kernel⟩,
    ⟨plain.modMgt (fun m => { m with upd := 4, sets := [{ seq := 0, schema := 0, items := [0, 0x5A, 10, 60, 0, 125, 50, 0] }, { seq := 1, schema := 0, items := [0, 0x5A, 10, 60, 0, 125, 50, 0] }] }), by decide +kernel⟩⟩

theorem witness_SmbusAnswers :
    (∃ (s : State),
      let m := s.mgt
      let acks := m.state = 1 ∨ m.state = 2
      s.ticking ∧ acks) ∧
    (∃ (s : State),
      let m := s.mgt
      let acks := m.state = 1 ∨ m.state = 2
      s.ticking ∧ acks) ∧
    (∃ (s : State) (id : Byte) (code : Byte),
      let m := s.mgt
      let acks := m.state = 1 ∨ m.state = 2
      let write := s.smbAddr false
      s.ticking ∧ acks ∧ code = pec [write, 0x03, id]) ∧
    (∃ (s : State) (id : Byte) (code : Byte),
      let m := s.mgt
      let acks := m.state = 1 ∨ m.state = 2
      let write := s.smbAddr false
      s.ticking ∧ acks ∧ code ≠ pec [write, 0x03, id]) ∧
    (∃ (s : State),
      let m := s.mgt
      let acks := m.state = 1 ∨ m.state = 2
      s.ticking ∧ acks ∧ m.smbSel < 42) ∧
    (∃ (s : State),
      let m := s.mgt
      let acks := m.state = 1 ∨ m.state = 2
      s.ticking ∧ acks ∧ 42 ≤ m.smbSel) ∧
    (∃ (s : State),
      let m := s.mgt
      let acks := m.state = 1 ∨ m.state = 2
      s.ticking ∧ acks) ∧
    (∃ (s : State),
      let m := s.mgt
      let acks := m.state = 1 ∨ m.state = 2
      s.ticking ∧ acks) ∧
    (∃ (s : State),
      let m := s.mgt
      let acks := m.state = 1 ∨ m.state = 2
      let i := (m.cairnNext + 32767) % 32768
      s.ticking ∧ acks ∧ (m.cairnBytes i).all (· == 0xFF) = false) ∧
    (∃ (s : State),
      let m := s.mgt
      let acks := m.state = 1 ∨ m.state = 2
      s.ticking ∧ acks) ∧
    (∃ (s : State),
      let m := s.mgt
      let acks := m.state = 1 ∨ m.state = 2
      s.ticking ∧ acks ∧ m.alerts ≠ 0) ∧
    (∃ (s : State),
      let m := s.mgt
      s.ticking ∧ (m.state = 0 ∨ m.state = 3 ∨ m.state = 4)) ∧
    (∃ (s : State),
      let m := s.mgt
      s.ticking ∧ (m.state = 0 ∨ m.state = 3 ∨ m.state = 4)) := by
  refine ⟨⟨plain.modMgt (fun m => { m with throttle := true, upd := 3 }), by decide +kernel⟩,
    ⟨plain.modMgt (fun m => { m with temps := (List.range 32).map (fun (i : Nat) => (i : Int) - 40) }), by decide +kernel⟩,
    ⟨plain, 0xFF, pec [State.smbAddr plain false, 3, 0xFF], by decide +kernel⟩,
    ⟨plain, 0xFF, 0x12, by decide +kernel⟩,
    ⟨plain.modMgt (fun m => { m with smbSel := 41, rails := [1, 2, 3, 4, 5, 6, 7, 800] }), by decide +kernel⟩,
    ⟨plain.modMgt (fun m => { m with smbSel := 42 }), by decide +kernel⟩,
    ⟨plain, by decide +kernel⟩,
    ⟨plain.modMgt (fun m => { m with life := { m.life with bins := [0, 0, 9000000, 40000000] } }), by decide +kernel⟩,
    ⟨(plain.modMgt (fun m => { m with cairnNext := 5 })).flashWords 0x300080 [7], by decide +kernel⟩,
    ⟨plain.modMgt (fun m => { m with alerts := 9 }), by decide +kernel⟩,
    ⟨plain.modMgt (fun m => { m with alerts := 9 }), by decide +kernel⟩,
    ⟨plain.modMgt (fun m => { m with state := 3 }), by decide +kernel⟩,
    ⟨plain.modMgt (fun m => { m with state := 4 }), by decide +kernel⟩⟩

theorem witness_BoundaryScanGoverns :
    (∃ (s : State),
      let live := s.mode.porN = true ∧ s.mode.aonLow = false
      live) ∧
    (∃ (s : State),
      let live := s.mode.porN = true ∧ s.mode.aonLow = false
      live) ∧
    (∃ (s : State),
      let live := s.mode.porN = true ∧ s.mode.aonLow = false
      live) ∧
    (∃ (s : State),
      let live := s.mode.porN = true ∧ s.mode.aonLow = false
      ¬ live) := by
  refine ⟨⟨coreRuns id, by decide +kernel⟩,
    ⟨plain, by decide +kernel⟩,
    ⟨{ plain with jtag := { plain.jtag with cells := 0xC0 } }, by decide +kernel⟩,
    ⟨withMode (fun m => { m with porN := false }) State.reset, by decide +kernel⟩⟩

theorem witness_RegisterPairsHoldTwoWords :
    (∃ (k : Fin 32), k.val % 2 = 0 ∧ k ≠ 0) ∧
    (∃ (k : Fin 32) (j : Nat), k.val % 2 = 0 ∧ k ≠ 0 ∧ j < 32 ∧ j ≠ k.val ∧ j ≠ k.val + 1) ∧
    (∃ (k : Fin 32), k.val % 2 = 0) ∧
    (∃ (k : Fin 32), k.val % 2 = 0 ∧ k = 0) ∧
    (∃ (k : Fin 32), k.val % 2 = 0) := by
  refine ⟨⟨30, by decide +kernel⟩,
    ⟨30, 29, by decide +kernel⟩,
    ⟨30, by decide +kernel⟩,
    ⟨0, by decide +kernel⟩,
    ⟨0, by decide +kernel⟩⟩

theorem witness_TickReadsTheCount :
    (∃ (s : State) (q : Fin 16) (g : Fin 32), s.ready q (.tick g)) :=
  ⟨coreRuns id, 3, 30, by decide +kernel⟩

theorem witness_MemoriesStayCanonical :
    ∃ s t : State, s.memWf = true ∧ step s = .next t :=
  ⟨{ plain with pending := [.dspModeApply] }, { plain with dsp := { plain.dsp with apply := true, status := 1 } }, by decide +kernel, rfl⟩

theorem witness_InstructionWordsDecode :
    (∃ op : Op, op.ok = true) ∧ ∃ (op : Op) (w w1 : W32), decodeOp w w1 = some op ∧ op.size = 2 :=
  ⟨⟨.mbx 24 0 8 0, by decide⟩, .li 12 8192, 0x618, 0x2000, by decide⟩

theorem witness_NothingRunsWithoutItsClock :
    (∃ (i : Instr) (s : State), s.clockless = true ∧ alwaysOn i = false) ∧
    ∃ (i : Instr) (s : State) (o : Fin 16 × Op), i.op = some o ∧ s.stopped = true :=
  ⟨⟨.refLost, withMode (fun m => { m with porN := false }) plain, by decide +kernel⟩,
    .nop 3, withMode (fun m => { m with mode := 0 }) plain, (3, .nop), by decide +kernel⟩

end Sys2Proof.Tests
end

section
/-! The twins of 00 R14. A 64-bit value is spelled by its low and its high word; the form of its twin follows from the form of the twin of
any two words. -/

namespace Sys2Proof.Machine

theorem loW_toNat (x : W64) : loW x.toNat = x.setWidth 32 := BitVec.ofNat_toNat 32 x

theorem hiW_toNat (x : W64) : hiW x.toNat = (x >>> 32).setWidth 32 := by
  have hshift : x.toNat / 2 ^ 32 = (x >>> 32).toNat := by
    rw [BitVec.toNat_ushiftRight, Nat.shiftRight_eq_div_pow]
  rw [hiW, hshift, BitVec.ofNat_toNat]

theorem twinWords_singleton (v : W32) : twinWords [v] = [v, ~~~ v] := rfl

theorem twinWords_pair (lo hi : W32) : twinWords [lo, hi] = [lo, hi, ~~~ lo, ~~~ hi] := rfl

theorem twinWords_triple (a b c : W32) : twinWords [a, b, c] = [a, b, c, ~~~ a, ~~~ b, ~~~ c] := rfl

/-- Settles O60: each clause is the form of `twinWords` on one, two or three words, the two words of a 64-bit value being its halves. -/
theorem twinsAreValuesAndComplements : Obligations.TwinsAreValuesAndComplements := by
  intro v a b c x
  refine ⟨twinWords_singleton v, ?_, twinWords_triple a b c⟩
  rw [twinWords_pair, loW_toNat, hiW_toNat]

end Sys2Proof.Machine
end

section
/-! Register pairs (12 R315): a pair is the 64-bit number of its two words, a write to it is two register writes, and every other part of the
core is as it was. -/

namespace Sys2Proof.Machine

/-- An even register number leaves room for the second register of its pair. -/
theorem succ_lt_of_even {k : Fin 32} (h : k.val % 2 = 0) : k.val + 1 < 32 := by omega

theorem Core.pair_of_ne_zero (c : Core) {k : Nat} (h : k ≠ 0) : c.pair k = join (c.rd k) (c.rd (k + 1)) := if_neg h

theorem Core.wrPair_of_ne_zero (c : Core) {k : Nat} (v : Nat) (h : k ≠ 0) : c.wrPair k v = (c.wr k (loW v)).wr (k + 1) (hiW v) := if_neg h

theorem Core.wrPair_zero (c : Core) (v : Nat) : c.wrPair 0 v = c := rfl

theorem Core.rd_wrPair_low (c : Core) {k : Nat} (v : Nat) (h : k ≠ 0) (hk : k < 32) : (c.wrPair k v).rd k = loW v := by
  rw [Core.wrPair_of_ne_zero c v h, Core.rd_wr _ _ _ _ hk, if_neg h, if_neg (by omega), Core.rd_wr _ _ _ _ hk, if_neg h, if_pos rfl]

theorem Core.rd_wrPair_high (c : Core) {k : Nat} (v : Nat) (h : k ≠ 0) (hk : k + 1 < 32) : (c.wrPair k v).rd (k + 1) = hiW v := by
  rw [Core.wrPair_of_ne_zero c v h, Core.rd_wr _ _ _ _ hk, if_neg (by omega), if_pos rfl]

theorem Core.rd_wrPair_ne (c : Core) {j k : Nat} (v : Nat) (hj : j < 32) (hlow : j ≠ k) (hhigh : j ≠ k + 1) : (c.wrPair k v).rd j = c.rd j := by
  by_cases h : k = 0
  · rw [h, Core.wrPair_zero]
  by_cases h0 : j = 0
  · rw [h0]; rfl
  · rw [Core.wrPair_of_ne_zero c v h, Core.rd_wr _ _ _ _ hj, if_neg h0, if_neg hhigh, Core.rd_wr _ _ _ _ hj, if_neg h0, if_neg hlow]

/-- A pair reads the 64-bit value written to it. -/
theorem Core.pair_wrPair (c : Core) {k v : Nat} (h : k ≠ 0) (hk : k + 1 < 32) (hv : v < 2 ^ 64) : (c.wrPair k v).pair k = v := by
  rw [Core.pair_of_ne_zero _ h, Core.rd_wrPair_low c v h (by omega), Core.rd_wrPair_high c v h hk, join_loW_hiW v hv]

/-- A register write changes the registers alone. -/
theorem Core.wr_eq (c : Core) (k : Nat) (v : W32) : c.wr k v = { c with g := (c.wr k v).g } := by
  unfold Core.wr
  split <;> rfl

/-- A write to a pair changes the registers alone. -/
theorem Core.wrPair_eq (c : Core) (k v : Nat) : c.wrPair k v = { c with g := (c.wrPair k v).g } := by
  by_cases h : k = 0
  · rw [h, Core.wrPair_zero]
  · rw [Core.wrPair_of_ne_zero c v h, Core.wr_eq, Core.wr_eq c]

/-- Settles O58: the two words of a pair read back, together and one by one; g0:g1 is the case in which the pair discards the write. -/
theorem registerPairsHoldTwoWords : Obligations.RegisterPairsHoldTwoWords := by
  intro c k v w heven
  have hk := succ_lt_of_even heven
  refine ⟨fun hne => ?_, fun hne => ?_, rfl, ?_, ?_⟩
  · have h : k.val ≠ 0 := Fin.val_ne_zero_iff.mpr hne
    refine ⟨?_, ?_, Core.pair_wrPair c h hk v.isLt, fun j hj hlow hhigh => Core.rd_wrPair_ne c _ hj hlow hhigh⟩
    · rw [Core.rd_wrPair_low c _ h k.isLt, loW_toNat]
    · rw [Core.rd_wrPair_high c _ h hk, hiW_toNat]
  · exact Core.pair_of_ne_zero c (Fin.val_ne_zero_iff.mpr hne)
  · rintro rfl
    exact Core.wrPair_zero c _
  · exact Core.rd_wr c 1 1 w (by decide)

end Sys2Proof.Machine
end

section
/-! TICK (12 R327). A ready TICK ends in one known state; the next instruction of its core begins at the edge at which it retires, so that two
TICKs in a row read counts 64 ticks apart. -/

namespace Sys2Proof.Machine

theorem le_alignUp_64 (n : Nat) : n ≤ alignUp n 64 := by
  unfold alignUp
  omega

theorem alignUp_64_le (n : Nat) : alignUp n 64 ≤ n + 63 := by
  unfold alignUp
  omega

/-- An instruction begins no earlier than now, and time has not gone past its edge, whether or not Keystone holds its count. -/
theorem State.begun_now_le (s : State) (q : Fin 16) : (s.begun q).now ≤ s.startEdge q := by
  have hnow : s.now ≤ s.startEdge q := Nat.le_trans (le_alignUp_64 s.now) (Nat.le_max_right _ _)
  unfold State.begun State.advance
  split
  · exact hnow
  · exact Nat.max_le.mpr ⟨hnow, Nat.le_refl _⟩

/-- After an instruction of one cycle or more, the next one of the core begins at the edge at which that one retired. -/
theorem State.startEdge_setCore_begun (s : State) (q : Fin 16) {d : Core} (h : s.startEdge q + 64 ≤ d.edge) :
    ((s.begun q).setCore q d).startEdge q = d.edge := by
  have halign : alignUp (s.begun q).now 64 ≤ d.edge :=
    calc alignUp (s.begun q).now 64 ≤ (s.begun q).now + 63 := alignUp_64_le _
      _ ≤ s.startEdge q + 63 := Nat.add_le_add_right (s.begun_now_le q) 63
      _ ≤ d.edge := by omega
  unfold State.startEdge
  rw [State.core_setCore]
  exact Nat.max_eq_left halign

/-- The passing of time leaves the relation of count and time. -/
theorem State.countAt_begun (s : State) (q : Fin 16) (t : Nat) : (s.begun q).countAt t = s.countAt t := by
  simp [State.countAt, State.begun]

theorem State.countAt_setCore (s : State) (q : Fin 16) (d : Core) (t : Nat) : (s.setCore q d).countAt t = s.countAt t := rfl

theorem State.countAt_lt (s : State) (t : Nat) : s.countAt t < 2 ^ 64 := Nat.mod_lt _ (by decide)

theorem State.countAt_add (s : State) (t n : Nat) : s.countAt (t + n) = (s.countAt t + n) % 2 ^ 64 := by
  unfold State.countAt
  omega

/-- Core q after the TICK that begins at the core's next edge. -/
def State.ticked (s : State) (q : Fin 16) (gd : Fin 32) : Core :=
  ((s.core q).wrPair gd (s.countAt (s.startEdge q))).goOn (s.startEdge q + 64) ((s.core q).pc + 1)

theorem exec_tick (s : State) (q : Fin 16) (gd : Fin 32) :
    exec (.tick q gd) s = s.awake (.next (s.instr q (.tick gd) (effTick q gd))) := rfl

/-- What a ready TICK comes to. -/
theorem exec_tick_ready {s : State} {q : Fin 16} {gd : Fin 32} (h : s.ready q (.tick gd)) :
    exec (.tick q gd) s = .next ((s.begun q).setCore q (s.ticked q gd)) := by
  have ⟨hup, hrun, _⟩ := h
  have heff : effTick q gd (s.begun q) (s.startEdge q) =
      .ok ((s.begun q).setCore q ((s.core q).wrPair gd (s.countAt (s.startEdge q)))) 1 ((s.core q).pc + 1) := by
    unfold effTick State.retires
    rw [State.core_begun, State.countAt_begun, Core.wrPair_eq]
  rw [exec_tick, State.awake_up s _ hup, State.instr_ok h heff (by rw [Core.wrPair_eq]; exact hrun)]
  rfl

/-- The encoding of TICK has every field but d zero. -/
theorem words_tick (gd : Fin 32) : (Op.tick gd).words = [BitVec.ofNat 32 (0x4B + gd * 2 ^ 7)] := by
  simp [Op.words, wordOf]

theorem State.ready_tick_even {s : State} {q : Fin 16} {gd : Fin 32} (h : s.ready q (.tick gd)) : gd.val % 2 = 0 := by
  obtain ⟨-, -, -, hok, -⟩ := h
  exact of_decide_eq_true hok

theorem State.ticked_sameButRegs (s : State) (q : Fin 16) (gd : Fin 32) : (s.core q).sameButRegs (s.ticked q gd) := by
  unfold Core.sameButRegs State.ticked
  rw [Core.goOn_same, Core.wrPair_eq]

theorem State.ticked_sameFlags (s : State) (q : Fin 16) (gd : Fin 32) : (s.core q).sameFlags (s.ticked q gd) := by
  unfold State.ticked
  rw [Core.goOn_same, Core.wrPair_eq]
  exact ⟨rfl, rfl, rfl, rfl⟩

theorem State.ticked_regsBut (s : State) (q : Fin 16) (gd : Fin 32) : (s.core q).regsBut (s.ticked q gd) [gd, gd + 1] := by
  intro j hj hmem
  simp only [List.mem_cons, List.not_mem_nil, or_false, not_or] at hmem
  obtain ⟨hlow, hhigh⟩ := hmem
  exact (Core.goOn_rd _ _ _ _).trans (Core.rd_wrPair_ne _ _ hj hlow hhigh)

theorem State.ticked_wentOn (s : State) (q : Fin 16) (gd : Fin 32) :
    (s.core q).wentOn (s.startEdge q) 1 ((s.core q).pc + 1) (s.ticked q gd) :=
  Core.wentOn_goOn _ _ _ 1 _ (by rw [Core.wrPair_eq]) (by rw [Core.wrPair_eq])

/-- The pair that TICK names reads the count at the edge that began it. -/
theorem State.ticked_pair (s : State) (q : Fin 16) {gd : Fin 32} (heven : gd.val % 2 = 0) (hne : gd ≠ 0) :
    (s.ticked q gd).pair gd = s.countAt (s.startEdge q) := by
  have h : gd.val ≠ 0 := Fin.val_ne_zero_iff.mpr hne
  have hpair : (s.ticked q gd).pair gd = ((s.core q).wrPair gd (s.countAt (s.startEdge q))).pair gd := by
    unfold State.ticked
    rw [Core.pair_of_ne_zero _ h, Core.pair_of_ne_zero _ h, Core.goOn_rd, Core.goOn_rd]
  rw [hpair, Core.pair_wrPair _ h (succ_lt_of_even heven) (s.countAt_lt _)]

/-- The count at the edge that begins the instruction after a TICK is 64 ticks on. -/
theorem State.countAt_after_tick (s : State) (q : Fin 16) (gd : Fin 32) :
    let t := (s.begun q).setCore q (s.ticked q gd)
    t.countAt (t.startEdge q) = (s.countAt (s.startEdge q) + 64) % 2 ^ 64 := by
  obtain ⟨-, hedge, -⟩ := s.ticked_wentOn q gd
  dsimp only
  rw [State.startEdge_setCore_begun s q (Nat.le_of_eq hedge.symm), State.countAt_setCore, State.countAt_begun, hedge, State.countAt_add]

/-- Settles O59: a ready TICK ends in `State.ticked`; a second one reads the count at the edge at which the first retired. -/
theorem tickReadsTheCount : Obligations.TickReadsTheCount := by
  intro s q g h
  refine ⟨words_tick g, fun hready => ⟨_, exec_tick_ready hready, State.onlyCore_setCore s q _, ?_⟩⟩
  have hpair := fun hne => s.ticked_pair q (State.ready_tick_even hready) hne
  rw [State.core_setCore]
  refine ⟨s.ticked_sameButRegs q g, s.ticked_sameFlags q g, s.ticked_regsBut q g, hpair, s.ticked_wentOn q g, ?_⟩
  intro hg hh hnext
  refine ⟨_, exec_tick_ready hnext, ?_⟩
  dsimp only
  rw [State.core_setCore, State.ticked_pair _ q (State.ready_tick_even hnext) hh, State.countAt_after_tick, hpair hg]

end Sys2Proof.Machine
end
